-- ==== Sys2Proof/Word.lean ====
section
/-!
DEFINITION. Sys2Proof/Word.lean: the widths in which the manual counts. Nothing here computes.
-/
namespace Sys2Proof

abbrev Byte := BitVec 8
/-- A 32-bit register or lane. -/
abbrev Word := BitVec 32
/-- A 64-bit register, a dome count as software reads it, or the S or V slot of a course. -/
abbrev DWord := BitVec 64
/-- One scratchpad row of 512 bytes; byte k is bits 8k+7:8k (R5, R185). -/
abbrev Row := BitVec 4096
/-- One tile row: 32 lanes of 32 bits; lane l is bits 32l+31:32l. -/
abbrev TileRow := BitVec 1024
/-- One course (R52). -/
abbrev Course := BitVec 256
/-- The 64 bytes of one HBM codeword (R210). -/
abbrev Codeword := BitVec 512
/-- A logical cell within a context: [13:9] region, [8:4] block, [3:0] cell (Table 3.12). -/
abbrev CellId := BitVec 14

end Sys2Proof
end

