-- ==== Sys2Proof/Machine/Mem.lean ====
section
/-!
DEFINITION. Sys2Proof/Machine/Mem.lean: sparse memories in one canonical form, keyed tables, and the bit-field helpers
that every register map uses.

A memory is a list of pairs (key, content), keys strictly rising, with no entry equal to what an unlisted key reads
as. Scratchpads, instruction and data memories, tile registers, HBM and the other large arrays are memories whose
unlisted keys read as 0 (R60, R201, R213). A table holds only the keys that exist; its entries may have any content.
-/
namespace Sys2Proof.Machine

/-- Sparse contents by key, keys strictly rising. -/
abbrev Mem (α : Type) := List (Nat × α)

/-- The content of key `k`, `d` where the key is not listed. -/
def Mem.rd {α : Type} (d : α) : Mem α → Nat → α
  | [], _ => d
  | (a, v) :: m, k => if a = k then v else Mem.rd d m k

/-- Look a key of a table up. -/
def Mem.find {α : Type} : Mem α → Nat → Option α
  | [], _ => none
  | (a, v) :: m, k => if a = k then some v else Mem.find m k

/-- Remove a key. -/
def Mem.del {α : Type} : Mem α → Nat → Mem α
  | [], _ => []
  | (a, v) :: m, k => if a = k then Mem.del m k else (a, v) :: Mem.del m k

/-- Insert or replace a key, keeping the keys in order. -/
def Mem.put {α : Type} : Mem α → Nat → α → Mem α
  | [], k, v => [(k, v)]
  | (a, w) :: m, k, v =>
    if a = k then (k, v) :: m else if k < a then (k, v) :: (a, w) :: m else (a, w) :: Mem.put m k v

/-- Write a memory: writing what an unlisted key reads as removes the entry. -/
def Mem.wr {α : Type} [DecidableEq α] (d : α) (m : Mem α) (k : Nat) (v : α) : Mem α :=
  if v = d then Mem.del m k else Mem.put m k v

/-- Change the entry of a key that the table holds; a key it does not hold stays absent. -/
def Mem.adjust {α : Type} (f : α → α) : Mem α → Nat → Mem α
  | [], _ => []
  | (a, v) :: m, k => if a = k then (a, f v) :: m else (a, v) :: Mem.adjust f m k

/-- Keys strictly rising, the first above `lo`. -/
def Mem.sortedFrom {α : Type} (lo : Option Nat) : Mem α → Bool
  | [] => true
  | (a, _) :: m => (match lo with | none => true | some l => decide (l < a)) && Mem.sortedFrom (some a) m

/-- The canonical form of a memory with default `d`. -/
def Mem.wf {α : Type} [DecidableEq α] (d : α) (m : Mem α) : Bool :=
  Mem.sortedFrom none m && m.all (fun e => decide (e.2 ≠ d))

/-- Bits [hi:lo] of a register, as a number. -/
def fld {w : Nat} (x : BitVec w) (hi lo : Nat) : Nat := (x.toNat >>> lo) % 2 ^ (hi + 1 - lo)

/-- One bit. -/
def bit {w : Nat} (x : BitVec w) (n : Nat) : Bool := x.getLsbD n

/-- A Boolean as a number. -/
def b01 (b : Bool) : Nat := if b then 1 else 0

/-- A register from its fields, each with its low bit: the values are masked to their widths [hi:lo]. -/
def packFields (w : Nat) (l : List (Nat × Nat × Nat)) : BitVec w :=
  BitVec.ofNat w (l.foldl (fun acc e => acc + (e.2.2 % 2 ^ (e.1 + 1 - e.2.1)) <<< e.2.1) 0)

/-- Replace bits [hi:lo]. -/
def setFld {w : Nat} (x : BitVec w) (hi lo v : Nat) : BitVec w :=
  BitVec.ofNat w (x.toNat - (fld x hi lo) <<< lo + (v % 2 ^ (hi + 1 - lo)) <<< lo)

/-- Clear the bits of `x` to which a W1C write puts a 1 (Table 0.3), within the bits of `mask`. -/
def w1c {w : Nat} (x mask v : BitVec w) : BitVec w := x &&& ~~~ (mask &&& v)

/-- Saturating increment of a counter whose largest value is `m`. -/
def satInc (m x : Nat) : Nat := if x + 1 ≤ m then x + 1 else m

/-- Saturating addition. -/
def satAdd (m x y : Nat) : Nat := if x + y ≤ m then x + y else m

/-- The signed value of the low `w` bits of a number. -/
def sext (w n : Nat) : Int :=
  let m := n % 2 ^ w
  if m < 2 ^ (w - 1) then (m : Int) else (m : Int) - (2 ^ w : Nat)

/-- Two's complement of an integer in 32 bits. -/
def word (i : Int) : BitVec 32 := BitVec.ofInt 32 i

/-- Change entry `i` of a list; beyond its end nothing changes. -/
def modAt {α : Type} (l : List α) (i : Nat) (f : α → α) : List α := l.modify i f

/-- The bytes of a number, least significant first (R5). -/
def bytesOf (n count : Nat) : List (BitVec 8) :=
  (List.range count).map (fun i => BitVec.ofNat 8 (n >>> (8 * i)))

/-- The number that bytes spell, least significant first (R5). -/
def natOfBytes : List (BitVec 8) → Nat
  | [] => 0
  | b :: l => b.toNat + 256 * natOfBytes l

/-- A list in pieces of `k`; what is left over at the end is no piece. -/
def pieces {α : Type} (k : Nat) : Nat → List α → List (List α)
  | 0, _ => []
  | fuel + 1, l => if l.length < k then [] else l.take k :: pieces k fuel (l.drop k)

/-- Insert an item before the first one with a greater key. -/
def insertBy {α : Type} (key : α → Nat) (a : α) : List α → List α
  | [] => [a]
  | b :: l => if key a < key b then a :: b :: l else b :: insertBy key a l

/-- Sort by key, ascending; items of equal key keep their order. -/
def sortBy {α : Type} (key : α → Nat) (l : List α) : List α := l.foldl (fun acc a => insertBy key a acc) []

/-- Sum of a list of numbers. -/
def sumNat (l : List Nat) : Nat := l.foldl (· + ·) 0

end Sys2Proof.Machine
end

