-- ==== Sys2Proof/Machine/Keccak.lean ====
section
/-!
DEFINITION. Sys2Proof/Machine/Keccak.lean: SHA3-512, SHAKE128 and SHAKE256, as FIPS 202 defines them (R394, R399).

R394 names FIPS 202, whose text spec/ does not repeat: rotations, round constants and padding are PRESUMED from that
standard (log entry 60).
-/
namespace Sys2Proof.Machine

/-- The round constants. -/
def keccakRounds : List DWord :=
  [0x0000000000000001, 0x0000000000008082, 0x800000000000808A, 0x8000000080008000, 0x000000000000808B, 0x0000000080000001,
   0x8000000080008081, 0x8000000000008009, 0x000000000000008A, 0x0000000000000088, 0x0000000080008009, 0x000000008000000A,
   0x000000008000808B, 0x800000000000008B, 0x8000000000008089, 0x8000000000008003, 0x8000000000008002, 0x8000000000000080,
   0x000000000000800A, 0x800000008000000A, 0x8000000080008081, 0x8000000000008080, 0x0000000080000001, 0x8000000080008008]

/-- How far each of the 25 lanes turns; lane (x, y) stands at x + 5y. -/
def keccakTurns : List Nat :=
  [0, 1, 62, 28, 27, 36, 44, 6, 55, 20, 3, 10, 43, 25, 39, 41, 45, 15, 21, 8, 18, 2, 61, 56, 14]

/-- One round. -/
def keccakRound (a : List DWord) (rc : DWord) : List DWord :=
  let at_ (l : List DWord) (x y : Nat) : DWord := l.getD (x % 5 + 5 * (y % 5)) 0
  let col := (List.range 5).map (fun x => at_ a x 0 ^^^ at_ a x 1 ^^^ at_ a x 2 ^^^ at_ a x 3 ^^^ at_ a x 4)
  let a := a.zipIdx.map (fun e => e.1 ^^^ at_ col (e.2 + 4) 0 ^^^ (at_ col (e.2 + 1) 0).rotateLeft 1)
  let a := a.zipIdx.map (fun e => e.1.rotateLeft (keccakTurns.getD e.2 0))
  let b := (List.range 25).map (fun i => at_ a (i % 5 + 3 * (i / 5)) (i % 5))
  (List.range 25).map (fun i =>
    let x := i % 5
    let y := i / 5
    (at_ b x y ^^^ (~~~ (at_ b (x + 1) y) &&& at_ b (x + 2) y)) ^^^ (if i = 0 then rc else 0))

/-- The permutation of 1,600 bits. -/
def keccakF (a : List DWord) : List DWord := keccakRounds.foldl keccakRound a

/-- The lanes that bytes spell. -/
def keccakLanes (l : List Byte) : List DWord :=
  (List.range 25).map (fun i => BitVec.ofNat 64 (natOfBytes ((l.drop (8 * i)).take 8)))

/-- Absorb whole blocks of `rate` bytes. -/
def absorb (rate : Nat) : Nat → List Byte → List DWord → List DWord
  | 0, _, a => a
  | n + 1, l, a => absorb rate n (l.drop rate) (keccakF (List.zipWith (· ^^^ ·) a (keccakLanes (l.take rate))))

/-- Squeeze blocks of `rate` bytes. -/
def squeeze (rate : Nat) : Nat → List DWord → List Byte
  | 0, _ => []
  | n + 1, a => (a.flatMap (fun w => bytesOf w.toNat 8)).take rate ++ squeeze rate n (keccakF a)

/-- The message with its suffix and the padding to whole blocks. -/
def keccakPad (rate suffix : Nat) (m : List Byte) : List Byte :=
  let gap := rate - m.length % rate
  m ++ bytesOf (suffix + 2 ^ (8 * gap - 1)) gap

/-- `n` bytes of the sponge. -/
def sponge (rate suffix : Nat) (m : List Byte) (n : Nat) : List Byte :=
  (squeeze rate ((n + rate - 1) / rate)
    (absorb rate (m.length / rate + 1) (keccakPad rate suffix m) (List.replicate 25 0))).take n

/-- SHA3-512: 64 bytes. -/
def sha3 (m : List Byte) : List Byte := sponge 72 0x06 m 64
def shake128 (m : List Byte) (n : Nat) : List Byte := sponge 168 0x1F m n
def shake256 (m : List Byte) (n : Nat) : List Byte := sponge 136 0x1F m n

end Sys2Proof.Machine
end

