-- ==== Sys2Proof/Machine/MlDsa.lean ====
section
/-!
DEFINITION. Sys2Proof/Machine/MlDsa.lean: ML-DSA-87 keys, signatures and their verification, as FIPS 204 defines them (R394,
R395, R398, R399).

R394 names FIPS 204, whose text spec/ does not repeat: its parameters and encodings are PRESUMED from that standard (log
entry 60). A signature is the standard's pure one with an empty context. Every sampling and the signing loop are cut at a
bound far above those of the standard's appendix, so each function here is total.
-/
namespace Sys2Proof.Machine

/-- A polynomial of 256 coefficients, each below q. -/
abbrev Poly := List Nat

/-- The modulus q. -/
def mlQ : Nat := 8380417

/-- The representative of a coefficient nearest 0. -/
def centred (x : Nat) : Int := if x ≤ 4190208 then (x : Int) else (x : Int) - 8380417
def ofInt (x : Int) : Nat := (x % 8380417).toNat

def ringAdd (a b : Poly) : Poly := List.zipWith (fun x y => (x + y) % mlQ) a b
def ringSub (a b : Poly) : Poly := List.zipWith (fun x y => (x + mlQ - y) % mlQ) a b
def ringMul (a b : Poly) : Poly := List.zipWith (fun x y => x * y % mlQ) a b

/-- The largest absolute value of a coefficient. -/
def ringNorm (a : Poly) : Nat := a.foldl (fun m x => max m (centred x).natAbs) 0

/-! ### The number-theoretic transform -/

/-- The low eight bits of a number, turned round. -/
def turned8 (n : Nat) : Nat := (List.range 8).foldl (fun r i => 2 * r + n / 2 ^ i % 2) 0

/-- The root of unity of node `m`, to the power 1 or -1. -/
def mlZeta (m : Nat) : Nat := 1753 ^ turned8 m % mlQ
def mlZetaInv (m : Nat) : Nat := 1753 ^ (512 - turned8 m) % mlQ

/-- The transform of 2^n coefficients at node `m`. -/
def nttNode : Nat → Nat → Poly → Poly
  | 0, _, w => w
  | n + 1, m, w =>
    let lo := w.take (2 ^ n)
    let z := mlZeta m
    let t := (w.drop (2 ^ n)).map (fun x => z * x % mlQ)
    nttNode n (2 * m) (ringAdd lo t) ++ nttNode n (2 * m + 1) (ringSub lo t)

def ntt (w : Poly) : Poly := nttNode 8 1 w

/-- The inverse of `nttNode`, times 2^n. -/
def inttNode : Nat → Nat → Poly → Poly
  | 0, _, w => w
  | n + 1, m, w =>
    let lo := inttNode n (2 * m) (w.take (2 ^ n))
    let hi := inttNode n (2 * m + 1) (w.drop (2 ^ n))
    let z := mlZetaInv m
    ringAdd lo hi ++ (ringSub lo hi).map (fun x => z * x % mlQ)

/-- The inverse transform: 8347681 is 1/256. -/
def intt (w : Poly) : Poly := (inttNode 8 1 w).map (fun x => 8347681 * x % mlQ)

def zeroPoly : Poly := List.replicate 256 0

/-- The product of a transformed matrix and a transformed vector. -/
def matMul (a : List (List Poly)) (v : List Poly) : List Poly :=
  a.map (fun row => (List.zipWith ringMul row v).foldl ringAdd zeroPoly)

/-! ### Rounding -/

/-- High and low part of a coefficient around multiples of 2^13. -/
def power2Round (r : Nat) : Nat × Int :=
  let r0 : Int := if r % 8192 ≤ 4096 then (r % 8192 : Nat) else (r % 8192 : Nat) - 8192
  ((((r : Int) - r0) / 8192).toNat, r0)

/-- High and low part of a coefficient around multiples of 2γ₂ = 523,776. -/
def decompose (r : Nat) : Nat × Int :=
  let r0 : Int := if r % 523776 ≤ 261888 then (r % 523776 : Nat) else (r % 523776 : Nat) - 523776
  if (r : Int) - r0 = 8380416 then (0, r0 - 1) else ((((r : Int) - r0) / 523776).toNat, r0)

/-- The high part that a hint corrects. -/
def useHint (h : Bool) (r : Nat) : Nat :=
  let d := decompose r
  if !h then d.1 else if 0 < d.2 then (d.1 + 1) % 16 else (d.1 + 15) % 16

/-! ### Bit packing -/

/-- Numbers of `n` bits each, the first lowest, as bytes. -/
def packBits (n : Nat) (l : List Nat) : List Byte := bytesOf (l.foldr (fun x acc => acc * 2 ^ n + x) 0) (n * l.length / 8)

/-- `count` numbers of `n` bits each. -/
def unpackBits (n count : Nat) (b : List Byte) : List Nat :=
  let v := natOfBytes b
  (List.range count).map (fun i => v / 2 ^ (n * i) % 2 ^ n)

/-- A polynomial with coefficients from -2^19 + 1 to 2^19, in 20 bits each. -/
def unpackMask (b : List Byte) : Poly := (unpackBits 20 256 b).map (fun x => ofInt (524288 - x))
def packMask (a : Poly) : List Byte := packBits 20 (a.map (fun x => (524288 - centred x).toNat))

/-- The high parts, four bits each. -/
def encodeW1 (w : List Poly) : List Byte := w.flatMap (packBits 4)

/-- The hint: the indices of its ones, then how many stand before the end of each polynomial. -/
def packHint (h : List (List Bool)) : List Byte :=
  let ones := h.map (fun p => (p.zipIdx.filter (fun e => e.1)).map (fun e => BitVec.ofNat 8 e.2))
  let all := ones.flatten
  all ++ List.replicate (75 - all.length) 0 ++
    (List.range 8).map (fun i => BitVec.ofNat 8 (((ones.take (i + 1)).map List.length).foldl (· + ·) 0))

/-- Each number is greater than the one before. -/
def rising : List Nat → Bool
  | a :: b :: l => decide (a < b) && rising (b :: l)
  | _ => true

/-- The hint that 83 bytes spell, unless they are malformed. -/
def unpackHint (b : List Byte) : Option (List (List Bool)) :=
  let y := b.map BitVec.toNat
  let ends := y.drop 75
  let spans := List.zip (0 :: ends) ends
  let part (e : Nat × Nat) : List Nat := (y.take e.2).drop e.1
  if spans.all (fun e => decide (e.1 ≤ e.2) && decide (e.2 ≤ 75) && rising (part e)) &&
      ((y.take 75).drop (ends.getD 7 0)).all (fun x => decide (x = 0)) then
    some (spans.map (fun e => (List.range 256).map (fun i => (part e).contains i)))
  else none

/-! ### Sampling -/

/-- An entry of the public matrix. -/
def sampleNtt (rho : List Byte) (r s : Nat) : Poly :=
  ((pieces 3 1008 (shake128 (rho ++ bytesOf s 1 ++ bytesOf r 1) 3024)).filterMap (fun t =>
    let z := natOfBytes t % 8388608
    if z < mlQ then some z else none)).take 256

def expandA (rho : List Byte) : List (List Poly) := (List.range 8).map (fun r => (List.range 7).map (fun s => sampleNtt rho r s))

/-- A secret polynomial with coefficients from -2 to 2. -/
def sampleSmall (seed : List Byte) (i : Nat) : Poly :=
  (((shake256 (seed ++ bytesOf i 2) 1088).flatMap (fun b => [b.toNat % 16, b.toNat / 16])).filterMap (fun h =>
    if h < 15 then some (ofInt (2 - (h % 5 : Nat))) else none)).take 256

/-- The places of the challenge, one after the other: `i` counts from 196 to 255. -/
def ballPlaces (signs : Nat) : List Byte → Nat → Poly → Poly
  | [], _, c => c
  | b :: l, i, c =>
    if 256 ≤ i ∨ i < b.toNat then ballPlaces signs l i c
    else ballPlaces signs l (i + 1)
      ((c.set i (c.getD b.toNat 0)).set b.toNat (if signs / 2 ^ (i - 196) % 2 = 1 then mlQ - 1 else 1))

/-- The challenge: 60 coefficients of 1 or -1. -/
def sampleInBall (seed : List Byte) : Poly :=
  let s := shake256 seed 1088
  ballPlaces (natOfBytes (s.take 8)) (s.drop 8) 196 zeroPoly

def expandMask (seed : List Byte) (k : Nat) : List Poly :=
  (List.range 7).map (fun r => unpackMask (shake256 (seed ++ bytesOf (k + r) 2) 640))

/-! ### Keys and signatures -/

/-- What a key pair is made of. -/
structure MlKey where
  rho : List Byte
  hidden : List Byte
  s1 : List Poly
  s2 : List Poly
  t : List Poly
  deriving DecidableEq, Repr

/-- The key pair of a seed of 32 bytes. -/
def mlKey (seed : BitVec 256) : MlKey :=
  let h := shake256 (bytesOf seed.toNat 32 ++ [8, 7]) 128
  let rho := h.take 32
  let sec := (h.drop 32).take 64
  let s1 := (List.range 7).map (sampleSmall sec)
  let s2 := (List.range 8).map (fun r => sampleSmall sec (7 + r))
  { rho := rho, hidden := h.drop 96, s1 := s1, s2 := s2
    t := List.zipWith ringAdd ((matMul (expandA rho) (s1.map ntt)).map intt) s2 }

/-- The public key: 2,592 bytes. -/
def MlKey.pub (k : MlKey) : List Byte := k.rho ++ k.t.flatMap (fun p => packBits 10 (p.map (fun x => (power2Round x).1)))

/-- What is hashed for a message with an empty context: the hash of the key, two zero bytes, the message. -/
def mlMu (pub msg : List Byte) : List Byte := shake256 (shake256 pub 64 ++ [0, 0] ++ msg) 64

/-- One round of the signing loop: the signature, unless the round is rejected. -/
def mlRound (k : MlKey) (a : List (List Poly)) (mu seed : List Byte) (kappa : Nat) : Option (List Byte) :=
  let y := expandMask seed kappa
  let w := (matMul a (y.map ntt)).map intt
  let ct := shake256 (mu ++ encodeW1 (w.map (fun p => p.map (fun x => (decompose x).1)))) 64
  let c := ntt (sampleInBall ct)
  let times (v : List Poly) : List Poly := v.map (fun p => intt (ringMul c (ntt p)))
  let z := List.zipWith ringAdd y (times k.s1)
  let r := List.zipWith ringSub w (times k.s2)
  let ct0 := times (k.t.map (fun p => p.map (fun x => ofInt (power2Round x).2)))
  let h := List.zipWith (fun p q => List.zipWith (fun x e => decide ((decompose ((x + e) % mlQ)).1 ≠ (decompose x).1)) p q) r ct0
  let small (n : Nat) (v : List Poly) : Bool := v.all (fun p => decide (ringNorm p < n))
  if small 524168 z && r.all (fun p => p.all (fun x => decide ((decompose x).2.natAbs < 261768))) && small 261888 ct0 &&
      decide (((h.flatten).filter id).length ≤ 75) then
    some (ct ++ z.flatMap packMask ++ packHint h)
  else none

/-- The signing loop from round `i`. -/
def mlLoop (k : MlKey) (a : List (List Poly)) (mu seed : List Byte) : Nat → Nat → List Byte
  | 0, _ => List.replicate 4627 0
  | n + 1, kappa =>
    match mlRound k a mu seed kappa with
    | some s => s
    | none => mlLoop k a mu seed n (kappa + 7)

/-- The signature of a message: 4,627 bytes. `rnd` is the signer's 32 random bytes. -/
def mlSign (seed : BitVec 256) (msg : List Byte) (rnd : BitVec 256) : List Byte :=
  let k := mlKey seed
  let mu := mlMu k.pub msg
  mlLoop k (expandA k.rho) mu (shake256 (k.hidden ++ bytesOf rnd.toNat 32 ++ mu) 64) 4096 0

/-- Whether a signature is one of a message under a public key. -/
def mlVerify (pub msg sig : List Byte) : Bool :=
  let ct := sig.take 64
  let z := (pieces 640 7 (sig.drop 64)).map unpackMask
  let t1 := (pieces 320 8 (pub.drop 32)).map (unpackBits 10 256)
  match unpackHint (sig.drop 4544) with
  | none => false
  | some h =>
    let c := ntt (sampleInBall ct)
    let az := matMul (expandA (pub.take 32)) (z.map ntt)
    let w := (List.zipWith (fun p t => ringSub p (ringMul c (ntt (t.map (fun x => 8192 * x))))) az t1).map intt
    let w1 := List.zipWith (fun p q => List.zipWith useHint p q) h w
    decide (sig.length = 4627) && z.all (fun p => decide (ringNorm p < 524168)) &&
      decide (shake256 (mlMu pub msg ++ encodeW1 w1) 64 = ct)

end Sys2Proof.Machine
end

