-- ==== Sys2Proof/Config.lean ====
section
/-!
DEFINITION. Sys2Proof/Config.lean: what a part fixes and the spec leaves to it, as constants without a body.

Nothing in Lean can evaluate such a constant or prove a value of it; every statement about the model holds for every
value (log entries 6 and 7).
-/
namespace Sys2Proof

/-- The seed of Abanak's root key pair, which no module holds (R394, R398). -/
opaque Config.rootSeed : BitVec 256
/-- The seed of the module's own key pair, which only its signing unit reads (R398). -/
opaque Config.identitySeed : BitVec 256
/-- The 32 random bytes of the root's signature in IDENTITY_CERT, and of the module's signatures (FIPS 204). -/
opaque Config.certRandom : BitVec 256
opaque Config.signRandom : Nat → BitVec 256
/-- The highest clock step in kHz whose calibrated full-rate power lies within an envelope in W; the factory
calibrates it per grade (R411). -/
opaque Config.modelCap : Bool → Nat → Nat
/-- The characters of OD 0x1000.05, the serial number. -/
opaque Config.serial : List Byte
/-- The owned pairs of the routes of binary `b` that end on the module of address `a` (R288), each as port, route, pair
and route latency. The image format gives a part only its own slots; where a module takes the partners' from is not
stated (log entry 8). -/
opaque Config.expectedPairs : Nat → Nat → List (Nat × Nat × Nat × Nat)
/-- The factory round trip of a port in ns (R299). -/
opaque Config.factoryRtt : Nat → Nat
/-- The PCIe vendor ID that MCTP and DOE messages carry (R378, R400). -/
opaque Config.vendorId : BitVec 16
/-- The region in which thermal sensor `s` lies (R217). -/
opaque Config.sensorRegion : Nat → Nat
/-- One less than the number of refresh commands owed at which a channel's debt reaches its limit (R33; log entry 4). -/
opaque Config.refreshLimit : Nat
/-- The bytes of a dump from the values of Table 10.4, whose layout the spec does not give (R262; log entry 9). -/
opaque Config.dumpRecord : List Nat → List Byte
/-- The code of an access class in an INFO response, 0 nobody, 1 M, 2 A, which the spec does not give (R380, R384). -/
opaque Config.classCode : Nat → BitVec 2
/-- The version bytes of a Get MCTP Version Support response (R378). UNVERIFIED: DSP0236 gives them. -/
opaque Config.mctpVersions : List Byte
/-- A value that the spec leaves open, fresh for every use: the counter `State.free` numbers the uses. -/
opaque Config.freeValue : Nat → BitVec 64

/-- The way of a request to the root: the spec bounds it, and fixes a number for each kind of request and unit that it
does not state (log entry 13). -/
opaque Config.rootWay : Nat → Nat → Nat

/-- The core clock cycles that a request of a kind takes from its unit to the root: 1 to 16 (R35, R359). -/
def Config.rootDelay (kind unit : Nat) : Nat := 1 + Config.rootWay kind unit % 16

end Sys2Proof
end

