-- ==== Sys2Proof/Machine/Float.lean ====
section
/-!
DEFINITION. Sys2Proof/Machine/Float.lean: the number formats of chapter 04 and FP32 arithmetic that rounds once.

A value is exact: not a number, an infinity, or a sign, an integer and a power of two. Every operation computes an
exact value and rounds it once, to nearest with ties to even (R87, R97).
-/
namespace Sys2Proof.Machine

/-- An exact value of a floating-point element: `fin neg m e` is (-1)^neg * m * 2^e. -/
inductive FVal where
  | nan
  | inf (neg : Bool)
  | fin (neg : Bool) (m : Nat) (e : Int)
  deriving DecidableEq, Repr

/-- Which encodings of Table 4.2 are not finite: IEEE's, only E4M3's NaN, or none. -/
inductive Specials where
  | ieee | e4m3 | none
  deriving DecidableEq, Repr

/-- A floating-point encoding of Table 4.2. -/
structure FloatFmt where
  eb : Nat
  mb : Nat
  bias : Nat
  specials : Specials
  deriving DecidableEq, Repr

def fp32Fmt : FloatFmt := ⟨8, 23, 127, .ieee⟩
def bf16Fmt : FloatFmt := ⟨8, 7, 127, .ieee⟩
def fp16Fmt : FloatFmt := ⟨5, 10, 15, .ieee⟩
def e4m3Fmt : FloatFmt := ⟨4, 3, 7, .e4m3⟩
def e5m2Fmt : FloatFmt := ⟨5, 2, 15, .ieee⟩
def e3m2Fmt : FloatFmt := ⟨3, 2, 3, .none⟩
def e2m3Fmt : FloatFmt := ⟨2, 3, 1, .none⟩
def e2m1Fmt : FloatFmt := ⟨2, 1, 1, .none⟩

/-- The exact value of an encoding (R82). -/
def decodeFloat (f : FloatFmt) (bits : Nat) : FVal :=
  let m := bits % 2 ^ f.mb
  let e := bits / 2 ^ f.mb % 2 ^ f.eb
  let neg := decide (bits / 2 ^ (f.mb + f.eb) % 2 = 1)
  if f.specials = .ieee ∧ e = 2 ^ f.eb - 1 then (if m = 0 then .inf neg else .nan)
  else if f.specials = .e4m3 ∧ e = 2 ^ f.eb - 1 ∧ m = 2 ^ f.mb - 1 then .nan
  else if e = 0 then .fin neg m (1 - (f.bias : Int) - f.mb)
  else .fin neg (m + 2 ^ f.mb) ((e : Int) - f.bias - f.mb)

/-- `m / 2^sh` rounded to nearest, ties to even. -/
def rne (m sh : Nat) : Nat :=
  let q := m >>> sh
  let r := m % 2 ^ sh
  if sh = 0 then m
  else if r > 2 ^ (sh - 1) ∨ (r = 2 ^ (sh - 1) ∧ q % 2 = 1) then q + 1 else q

/-- The magnitude `m * 2^e` rounded once to the quantum of the format, as encoding bits without a sign; a magnitude
beyond the largest finite number gives bits above `maxFinite`. -/
def roundMag (f : FloatFmt) (m : Nat) (e : Int) : Nat :=
  if m = 0 then 0
  else
    let qmin : Int := 1 - (f.bias : Int) - f.mb
    let q : Int := max ((Nat.log2 m : Int) + e - f.mb) qmin
    let r := if q ≤ e then m <<< (e - q).toNat else rne m (q - e).toNat
    (q - qmin).toNat * 2 ^ f.mb + r

/-- The largest finite encoding, without sign (Table 4.2). -/
def maxFinite (f : FloatFmt) : Nat :=
  match f.specials with
  | .ieee => (2 ^ f.eb - 1) * 2 ^ f.mb - 1
  | .e4m3 => 2 ^ (f.eb + f.mb) - 2
  | .none => 2 ^ (f.eb + f.mb) - 1

/-- The sign bit of a format. -/
def signBit (f : FloatFmt) (neg : Bool) : Nat := if neg then 2 ^ (f.eb + f.mb) else 0

/-- The canonical NaN (Table 4.2, R85). -/
def canonicalNan (f : FloatFmt) : Nat :=
  match f.specials with
  | .ieee => (2 ^ f.eb - 1) * 2 ^ f.mb + 2 ^ (f.mb - 1)
  | .e4m3 => 2 ^ (f.eb + f.mb) - 1
  | .none => 0

/-- The infinity of an IEEE format. -/
def infBits (f : FloatFmt) (neg : Bool) : Nat := signBit f neg + (2 ^ f.eb - 1) * 2 ^ f.mb

/-- Round an exact value to an IEEE format with no choice: beyond the largest finite number lies infinity (R87). -/
def encodeIeee (f : FloatFmt) : FVal → Nat
  | .nan => canonicalNan f
  | .inf neg => infBits f neg
  | .fin neg m e =>
    let r := roundMag f m e
    if r > maxFinite f then infBits f neg else signBit f neg + r

/-- The FP32 value of 32 bits. -/
def fpv (x : BitVec 32) : FVal := decodeFloat fp32Fmt x.toNat
/-- An exact value rounded once to FP32. -/
def toFp32 (v : FVal) : BitVec 32 := BitVec.ofNat 32 (encodeIeee fp32Fmt v)
def nan32 : BitVec 32 := 0x7FC00000#32

/-- A result of a conversion with the flags CVT_SAT and CVT_OVF it sets (R97). -/
structure Cvt where
  bits : Nat
  sat : Bool
  ovf : Bool
  deriving DecidableEq, Repr

/-- Conversion of an exact value to a float format that is no MX format (Table 4.3). -/
def cvtFloat (f : FloatFmt) (sat : Bool) (v : FVal) : Cvt :=
  let clampable := decide (f = e4m3Fmt ∨ f = e5m2Fmt)
  match v with
  | .nan => ⟨canonicalNan f, false, false⟩
  | .inf neg =>
    if clampable && sat then ⟨signBit f neg + maxFinite f, true, false⟩
    else if f.specials = .e4m3 then ⟨canonicalNan f, false, false⟩
    else ⟨infBits f neg, false, false⟩
  | .fin neg m e =>
    let r := roundMag f m e
    if r > maxFinite f then
      if clampable && sat then ⟨signBit f neg + maxFinite f, true, false⟩
      else if f.specials = .e4m3 then ⟨canonicalNan f, false, true⟩
      else ⟨infBits f neg, false, true⟩
    else ⟨signBit f neg + r, false, false⟩

/-- The single-value rule of R98 for an MX element. -/
def cvtMxElem (f : FloatFmt) (v : FVal) : Cvt :=
  let top := match f.specials with | .ieee => maxFinite f | .e4m3 => maxFinite f | .none => maxFinite f
  match v with
  | .nan => ⟨0, true, false⟩
  | .inf neg => ⟨signBit f neg + top, true, false⟩
  | .fin neg m e =>
    let r := roundMag f m e
    if r > top then ⟨signBit f neg + top, true, false⟩ else ⟨signBit f neg + r, false, false⟩

/-- An exact value rounded to an integer, ties to even. -/
def roundInt (neg : Bool) (m : Nat) (e : Int) : Int :=
  let r : Nat := if 0 ≤ e then m <<< e.toNat else rne m (-e).toNat
  if neg then -(r : Int) else (r : Int)

/-- Conversion to an integer range (Table 4.3): the value, and whether CVT_SAT is set. -/
def cvtInt (lo hi : Int) (v : FVal) : Int × Bool :=
  match v with
  | .nan => (0, true)
  | .inf neg => (if neg then lo else hi, true)
  | .fin neg m e =>
    let r := roundInt neg m e
    if r < lo then (lo, true) else if r > hi then (hi, true) else (r, false)

/-- The exact value of an integer. -/
def ofIntV (i : Int) : FVal := .fin (decide (i < 0)) i.natAbs 0

/-- The integer `n` with `v = n * 2^e` for `e` at or below the exponent of a finite value. -/
def scaledInt (neg : Bool) (m : Nat) (e base : Int) : Int :=
  let n : Nat := m <<< (e - base).toNat
  if neg then -(n : Int) else (n : Int)

/-- The exact sum of two values; an exact zero is -0 only where both inputs are -0 (R87, R143). -/
def addV (a b : FVal) : FVal :=
  match a, b with
  | .nan, _ => .nan
  | _, .nan => .nan
  | .inf n, .inf k => if n = k then .inf n else .nan
  | .inf n, _ => .inf n
  | _, .inf n => .inf n
  | .fin n m e, .fin k p g =>
    let base := min e g
    let t := scaledInt n m e base + scaledInt k p g base
    if t = 0 then .fin (if m = 0 ∧ p = 0 then n && k else false) 0 base
    else .fin (decide (t < 0)) t.natAbs base

/-- The sign changed. -/
def negV : FVal → FVal
  | .nan => .nan
  | .inf n => .inf (!n)
  | .fin n m e => .fin (!n) m e

/-- The exact product. -/
def mulV (a b : FVal) : FVal :=
  match a, b with
  | .nan, _ => .nan
  | _, .nan => .nan
  | .inf n, .inf k => .inf (n != k)
  | .inf n, .fin k p _ => if p = 0 then .nan else .inf (n != k)
  | .fin n m _, .inf k => if m = 0 then .nan else .inf (n != k)
  | .fin n m e, .fin k p g => .fin (n != k) (m * p) (e + g)

def isNan : FVal → Bool
  | .nan => true
  | _ => false

/-- Exact comparison of two values neither of which is a NaN; the two zeros are equal. -/
def ltV (a b : FVal) : Bool :=
  match a, b with
  | .inf n, .inf k => n && !k
  | .inf n, .fin .. => n
  | .fin .., .inf k => !k
  | .fin n m e, .fin k p g =>
    let base := min e g
    decide (scaledInt n m e base < scaledInt k p g base)
  | _, _ => false

def eqV (a b : FVal) : Bool := !isNan a && !isNan b && !ltV a b && !ltV b a

def fadd (a b : BitVec 32) : BitVec 32 := toFp32 (addV (fpv a) (fpv b))
def fsub (a b : BitVec 32) : BitVec 32 := toFp32 (addV (fpv a) (negV (fpv b)))
def fmul (a b : BitVec 32) : BitVec 32 := toFp32 (mulV (fpv a) (fpv b))

/-- `a` ordered before `b`, with -0 less than +0 (R68); neither is a NaN. -/
def fpLess (a b : BitVec 32) : Bool :=
  ltV (fpv a) (fpv b) || (eqV (fpv a) (fpv b) && a.getLsbD 31 && !b.getLsbD 31)

/-- FP32 minimum (R68). -/
def fmin (a b : BitVec 32) : BitVec 32 :=
  if isNan (fpv a) then (if isNan (fpv b) then nan32 else b)
  else if isNan (fpv b) then a
  else if fpLess b a then b else a

/-- FP32 maximum (R68). -/
def fmax (a b : BitVec 32) : BitVec 32 :=
  if isNan (fpv a) then (if isNan (fpv b) then nan32 else b)
  else if isNan (fpv b) then a
  else if fpLess a b then b else a

def feq (a b : BitVec 32) : Bool := eqV (fpv a) (fpv b)
def flt (a b : BitVec 32) : Bool := !isNan (fpv a) && !isNan (fpv b) && ltV (fpv a) (fpv b)
def fle (a b : BitVec 32) : Bool := flt a b || feq a b

/-- A signed 32-bit integer converted to FP32 (R68). -/
def fcvtsw (a : BitVec 32) : BitVec 32 := toFp32 (ofIntV a.toInt)

/-- FP32 converted to a signed 32-bit integer, and whether it saturated or met a NaN (R68). -/
def fcvtws (a : BitVec 32) : BitVec 32 × Bool :=
  let r := cvtInt (-2147483648) 2147483647 (fpv a)
  (word r.1, r.2)

/-! ### Format codes (Table 4.1) -/

/-- The float format of a code, for the codes that name one. -/
def floatOf (code : Nat) : Option FloatFmt :=
  match code with
  | 0x0 => some fp32Fmt | 0x1 => some bf16Fmt | 0x2 => some fp16Fmt
  | 0x3 => some e4m3Fmt | 0x4 => some e5m2Fmt | 0x5 => some e4m3Fmt | 0x6 => some e5m2Fmt
  | 0x7 => some e3m2Fmt | 0x8 => some e2m3Fmt | 0x9 => some e2m1Fmt
  | _ => none

/-- Element width in bits. -/
def widthOf (code : Nat) : Nat :=
  match code with
  | 0x0 => 32 | 0xE => 32 | 0x1 => 16 | 0x2 => 16 | 0x7 => 6 | 0x8 => 6 | 0x9 => 4 | 0xC => 4 | 0xD => 1 | _ => 8

/-- The classes of Table 4.1. -/
inductive FmtClass where
  | wide | f16 | fp8 | mx | int | bin | reserved
  deriving DecidableEq, Repr

def classOf (code : Nat) : FmtClass :=
  match code with
  | 0x0 => .wide | 0xE => .wide | 0x1 => .f16 | 0x2 => .f16 | 0x3 => .fp8 | 0x4 => .fp8
  | 0x5 => .mx | 0x6 => .mx | 0x7 => .mx | 0x8 => .mx | 0x9 => .mx
  | 0xA => .int | 0xB => .int | 0xC => .int | 0xD => .bin | _ => .reserved

/-- The integer range of an integer code (R83). -/
def intRange (code : Nat) : Int × Int :=
  match code with
  | 0xA => (-128, 127) | 0xB => (0, 255) | 0xC => (-8, 7) | 0xE => (-2147483648, 2147483647) | _ => (0, 1)

/-- The exact value of an element, without an MX scale (R82, R83). -/
def elemVal (code bits : Nat) : FVal :=
  match floatOf code with
  | some f => decodeFloat f bits
  | none =>
    if code = 0xD then ofIntV (if bits % 2 = 1 then 1 else -1)
    else if code = 0xB then ofIntV (bits % 256)
    else ofIntV (sext (widthOf code) bits)

/-- Element `i` of densely stored bytes (R84): the packing is the same for every width. -/
def elemBits {w : Nat} (row : BitVec w) (code i : Nat) : Nat :=
  (row.toNat >>> (widthOf code * i)) % 2 ^ widthOf code

/-- A value multiplied by an E8M0 scale; 0xFF is NaN (R86). -/
def scaleV (s : Nat) (v : FVal) : FVal :=
  if s = 255 then .nan
  else match v with
    | .fin n m e => .fin n m (e + (s : Int) - 127)
    | other => other

/-- EMAX of R98. -/
def mxEmax (code : Nat) : Int :=
  match code with
  | 0x5 => 8 | 0x6 => 15 | 0x7 => 4 | _ => 2

/-- The magnitude's floor(log2), for a finite value that is not 0. -/
def floorLog2V : FVal → Int
  | .fin _ m e => (Nat.log2 m : Int) + e
  | _ => 0

def isFin : FVal → Bool
  | .fin .. => true
  | _ => false

def isZeroV : FVal → Bool
  | .fin _ m _ => decide (m = 0)
  | _ => false

def signOf : FVal → Bool
  | .nan => false
  | .inf n => n
  | .fin n _ _ => n

/-- A block of FP32 values as one MX scale and its elements, with CVT_SAT (R98). -/
def mxBlock (code : Nat) (v : List FVal) : Nat × List Nat × Bool :=
  match floatOf code with
  | none => (0, v.map (fun _ => 0), false)
  | some f =>
    if v.any (fun x => !isFin x) then (255, v.map (fun _ => 0), false)
    else if v.all isZeroV then (0, v.map (fun x => signBit f (signOf x)), false)
    else
      let top := (v.filter (fun x => !isZeroV x)).foldl (fun acc x => max acc (floorLog2V x)) (-1000)
      let x := min (max (top - mxEmax code) (-127)) 127
      let es := v.map (fun y => match y with
        | .fin n m e => cvtMxElem f (.fin n m (e - x))
        | _ => cvtMxElem f y)
      ((x + 127).toNat, es.map (·.bits), es.any (·.sat))

/-- The conversion of one FP32 or INT32 lane to a stored element (Table 4.3, R98): element bits and flags. `isInt` says
that the lane holds an INT32. -/
def cvtElem (code : Nat) (sat : Bool) (v : FVal) : Cvt :=
  match floatOf code with
  | some f => if classOf code = .mx then cvtMxElem f v else cvtFloat f sat v
  | none =>
    if code = 0xD then
      match v with
      | .nan => ⟨0, true, false⟩
      | .inf n => ⟨b01 (!n), false, false⟩
      | .fin n m _ => ⟨if m ≠ 0 ∧ !n then 1 else 0, false, false⟩
    else
      let r := cvtInt (intRange code).1 (intRange code).2 v
      ⟨(BitVec.ofInt (widthOf code) r.1).toNat, r.2, false⟩

/-- The exact value of an element converted into FP32, with SAT for an MX element beyond the range (R97). -/
def intoFp32 (sat : Bool) (v : FVal) : BitVec 32 :=
  match v with
  | .fin n m e =>
    let r := roundMag fp32Fmt m e
    if r > maxFinite fp32Fmt then
      BitVec.ofNat 32 (if sat then signBit fp32Fmt n + maxFinite fp32Fmt else infBits fp32Fmt n)
    else BitVec.ofNat 32 (signBit fp32Fmt n + r)
  | other => toFp32 other

/-! ### Transcendental stages (R138): correctly rounded, by intervals that tighten until both ends round alike -/

/-- Lower sum of exp(y): y and the result have `p` fraction bits; every term is rounded down. -/
def expLo (p y : Nat) : Nat → Nat → Nat → Nat → Nat
  | 0, _, _, acc => acc
  | fuel + 1, n, t, acc => expLo p y fuel (n + 1) ((t * y / (n + 1)) >>> p) (acc + t)

/-- Upper sum of exp(y): every term is rounded up, and twice the last term bounds the tail. -/
def expHi (p y : Nat) : Nat → Nat → Nat → Nat → Nat
  | 0, _, t, acc => acc + 2 * t + 2
  | fuel + 1, n, t, acc => expHi p y fuel (n + 1) ((t * y / (n + 1)) / 2 ^ p + 1) (acc + t)

/-- ln 2 rounded down with `p` fraction bits; the error is below `p + 2` units. -/
def ln2Lo (p : Nat) : Nat := ((List.range p).map (fun i => 2 ^ p / ((i + 1) * 2 ^ (i + 1)))).foldl (· + ·) 0
def ln2Hi (p : Nat) : Nat := ln2Lo p + p + 2

/-- Sum of z^(2i+1)/(2i+1) rounded down, for z with `p` fraction bits. -/
def atanhLo (p z : Nat) : Nat → Nat → Nat → Nat → Nat
  | 0, _, _, acc => acc
  | fuel + 1, n, t, acc => atanhLo p z fuel (n + 2) ((((t * z) >>> p) * z) >>> p) (acc + t / n)
def atanhHi (p z : Nat) : Nat → Nat → Nat → Nat → Nat
  | 0, _, t, acc => acc + 2 * t + 2
  | fuel + 1, n, t, acc => atanhHi p z fuel (n + 2) (((t * z / 2 ^ p + 1) * z) / 2 ^ p + 1) (acc + t / n + 1)

/-- Try the working precisions in turn; take the first at which both ends of the interval round to the same FP32. -/
def ziv (f : Nat → BitVec 32 × BitVec 32) : List Nat → BitVec 32
  | [] => nan32
  | [p] => (f p).1
  | p :: ps => let r := f p; if r.1 = r.2 then r.1 else ziv f ps

def zivPrecisions : List Nat := [96, 160, 320, 640]

/-- 2^x for finite x = (-1)^neg * m * 2^e that is no integer. -/
def exp2Core (neg : Bool) (m : Nat) (e : Int) (p : Nat) : BitVec 32 × BitVec 32 :=
  -- x as a fixed-point number with p fraction bits, rounded down and up
  let a : Nat := if 0 ≤ e + p then m <<< (e + p).toNat else m >>> (-(e + p)).toNat
  let exact := decide (0 ≤ e + p ∨ m % 2 ^ (-(e + p)).toNat = 0)
  let a' := if exact then a else a + 1
  let lo : Int := if neg then -(a' : Int) else a
  let hi : Int := if neg then -(a : Int) else a'
  let k := lo / (2 ^ p : Nat)
  let flo := (lo - k * (2 ^ p : Nat)).toNat
  let fhi := (hi - k * (2 ^ p : Nat)).toNat
  let ylo := (flo * ln2Lo p) >>> p
  let yhi := (fhi * ln2Hi p) / 2 ^ p + 1
  let rlo := expLo p ylo (p + 16) 0 (2 ^ p) 0
  let rhi := expHi p yhi (p + 16) 0 (2 ^ p) 0
  (toFp32 (.fin false rlo (k - p)), toFp32 (.fin false rhi (k - p)))

/-- EXP2 (R138). -/
def fexp2 (x : BitVec 32) : BitVec 32 :=
  match fpv x with
  | .nan => nan32
  | .inf neg => if neg then 0#32 else 0x7F800000#32
  | .fin neg m e =>
    if m = 0 then 0x3F800000#32
    else if (Nat.log2 m : Int) + e ≥ 9 then (if neg then 0#32 else 0x7F800000#32)
    else if 0 ≤ e ∨ m % 2 ^ (-e).toNat = 0 then
      let i := roundInt neg m e
      toFp32 (.fin false 1 i)
    else ziv (exp2Core neg m e) zivPrecisions

/-- log2 of m * 2^e, not a power of two: k + log2 of a number in [3/4, 3/2). -/
def log2Core (m : Nat) (e : Int) (p : Nat) : BitVec 32 × BitVec 32 :=
  let b := Nat.log2 m
  -- m = r * 2^b with r in [1, 2); use r/2 and k+1 where r is 3/2 or more
  let big := decide (2 * m ≥ 3 * 2 ^ b)
  let d := if big then 2 ^ (b + 1) else 2 ^ b
  let k : Int := (b : Int) + e + (if big then 1 else 0)
  let num := if big then d - m else m - d
  let zlo := num * 2 ^ p / (m + d)
  let zhi := zlo + 1
  let slo := 2 * atanhLo p zlo p 1 zlo 0
  let shi := 2 * atanhHi p zhi p 1 zhi 0
  let qlo := slo * 2 ^ p / ln2Hi p
  let qhi := shi * 2 ^ p / ln2Lo p + 1
  let lo : Int := if big then k * (2 ^ p : Nat) - qhi else k * (2 ^ p : Nat) + qlo
  let hi : Int := if big then k * (2 ^ p : Nat) - qlo else k * (2 ^ p : Nat) + qhi
  (toFp32 (.fin (decide (lo < 0)) lo.natAbs (-p)), toFp32 (.fin (decide (hi < 0)) hi.natAbs (-p)))

/-- LOG2 (R138). -/
def flog2 (x : BitVec 32) : BitVec 32 :=
  match fpv x with
  | .nan => nan32
  | .inf neg => if neg then nan32 else 0x7F800000#32
  | .fin neg m e =>
    if m = 0 then 0xFF800000#32
    else if neg then nan32
    else if m = 2 ^ Nat.log2 m then toFp32 (ofIntV ((Nat.log2 m : Int) + e))
    else ziv (log2Core m e) zivPrecisions

/-- Integer square root, by bits from the top. -/
def isqrt (n : Nat) : Nat → Nat → Nat
  | 0, r => r
  | b + 1, r => if (r + 2 ^ b) * (r + 2 ^ b) ≤ n then isqrt n b (r + 2 ^ b) else isqrt n b r

/-- RSQRT (R138): an exact integer square root with a sticky bit. -/
def frsqrt (x : BitVec 32) : BitVec 32 :=
  match fpv x with
  | .nan => nan32
  | .inf neg => if neg then nan32 else 0#32
  | .fin neg m e =>
    if m = 0 then (if neg then 0xFF800000#32 else 0x7F800000#32)
    else if neg then nan32
    else
      -- 1/sqrt(m*2^e) = sqrt(2^(2t)/m') * 2^(-t - e'/2) with e' even
      let m' := if e % 2 = 0 then m else 2 * m
      let e' := if e % 2 = 0 then e else e - 1
      let t := 80
      let q := 2 ^ (2 * t) / m'
      let r := isqrt q (t + 1) 0
      let sticky := if r * r * m' = 2 ^ (2 * t) then 0 else 1
      toFp32 (.fin false (2 * r + sticky) (-(t : Int) - e' / 2 - 1))

/-- RCP (R138). -/
def frcp (x : BitVec 32) : BitVec 32 :=
  match fpv x with
  | .nan => nan32
  | .inf neg => if neg then 0x80000000#32 else 0#32
  | .fin neg m e =>
    if m = 0 then (if neg then 0xFF800000#32 else 0x7F800000#32)
    else
      let q := 2 ^ 80 / m
      let sticky := if q * m = 2 ^ 80 then 0 else 1
      toFp32 (.fin neg (2 * q + sticky) (-e - 81))

/-- tanh of m * 2^e between 2^-12 and 16, by (E - 1)/(E + 1) with E = exp(2x). -/
def tanhCore (neg : Bool) (m : Nat) (e : Int) (p : Nat) : BitVec 32 × BitVec 32 :=
  let y : Nat := m <<< (e + 1 + p).toNat
  let elo := expLo p y (p + 192) 0 (2 ^ p) 0
  let ehi := expHi p y (p + 192) 0 (2 ^ p) 0
  let one := 2 ^ p
  let lo := (elo - one) * 2 ^ p / (elo + one)
  let hi := (ehi - one) * 2 ^ p / (ehi + one) + 1
  (toFp32 (.fin neg lo (-p)), toFp32 (.fin neg hi (-p)))

/-- TANH (R138). Below 2^-12 the value differs from x by less than half a unit of x; from 16 on it rounds to 1. -/
def ftanh (x : BitVec 32) : BitVec 32 :=
  match fpv x with
  | .nan => nan32
  | .inf neg => if neg then 0xBF800000#32 else 0x3F800000#32
  | .fin neg m e =>
    if m = 0 then x
    else if (Nat.log2 m : Int) + e < -12 then x
    else if (Nat.log2 m : Int) + e ≥ 4 then (if neg then 0xBF800000#32 else 0x3F800000#32)
    else ziv (tanhCore neg m e) zivPrecisions

end Sys2Proof.Machine
end

