-- ==== Sys2Proof/Syntax.lean ====
section
/-!
DEFINITION. Sys2Proof/Syntax.lean: the commands of the block, one constructor of Instr for each row of
spec/opcode_table.json, in the table's order, and the operand types they carry.

A command is one step of the module, as spec/95_what_each_step_holds.md calls them. An operand is either what an
instruction's encoding holds, or what arrives from outside the module with the step: a flit, a value read from host
memory, a voltage, the outcome of a training round.
-/
namespace Sys2Proof

/-- A logical cell of context number `ctx` (R334, R216). -/
structure CellRef where
  ctx : Fin 32
  id : CellId
  deriving DecidableEq, Repr

/-- A function of a PCIe port: 0 the PF, 1 to 15 the VFs (R333). -/
structure FnRef where
  host : Fin 2
  fn : Fin 16
  deriving DecidableEq, Repr

/-- A physical position: region, block, position 0 to 16 (Table 9.1). -/
structure PhysCell where
  region : Fin 32
  block : Fin 24
  pos : Fin 17
  deriving DecidableEq, Repr

/-- The six slots of a course (Table 3.1). -/
inductive Slot where
  | S | T | V | M0 | M1 | Q
  deriving DecidableEq, Repr

/-- The causes of a hold (Table 2.4). -/
inductive HoldCause where
  | linkLate | partner | hbmLate | refresh | thermal | power | overrun
  deriving DecidableEq, Repr

/-- A flit as the receiver reads it: the header of Table 11.4 and the payload of R278. -/
structure Flit where
  cls : BitVec 2
  mtype : BitVec 6
  seq : BitVec 12
  ackseq : BitVec 12
  nak : Bool
  crclass : Bool
  credit : BitVec 10
  ctx : BitVec 16
  route : BitVec 8
  hop : BitVec 6
  due : BitVec 22
  arg : DWord
  payload : BitVec 2048
  deriving DecidableEq, Repr

/-- A flit as a port receives it, 280 bytes with byte i at bits 8i+7:8i (R278): as the FEC gives it; or, in an RS mode, as the
bits of whole codewords on each lane in use (R270); or, in a concatenated mode, as whole blocks of the inner code on each
lane, every bit with how sure the receiver is of it: above 0 for a 1, below 0 for a 0 (R271). `lead` bits of each lane stand
before its first codeword, and the flit begins at bit `skip` of the decoded stream. -/
inductive Wire where
  | flit (bits : BitVec 2240)
  | rs (lanes : List (List Bool)) (skip : Nat)
  | inner (lanes : List (List Int)) (lead skip : Nat)
  deriving DecidableEq, Repr

/-- Where a message comes from: the head of the flits a port has accepted, or the item `i` of the loose items that
travel on the module itself. -/
inductive MsgSrc where
  | port (p : Fin 16)
  | onModule (i : Nat)
  deriving DecidableEq, Repr

/-- What a landing step is about: the landings of one cell's scratchpad, or a context's HBM writes. -/
inductive LandTarget where
  | cell (c : CellRef)
  | hbm (n : Fin 32)
  deriving DecidableEq, Repr

/-- What an error code finds in one read: nothing, corrected units, or an uncorrectable one. -/
inductive Ecc where
  | good
  | corrected (count : Nat)
  | bad (unit : Nat)
  deriving DecidableEq, Repr

/-- What a loose row's read brings: the host's data, a failed completion, or what the error code finds in HBM; or, for a read
from or a write to the host, that the transaction layer cannot issue it (R438). -/
inductive HostRead where
  | data (v : Row)
  | failed
  | notIssued
  | hbm (e : Ecc)
  deriving DecidableEq, Repr

/-- The fields of a function's configuration space that software writes (Table 13.1). -/
inductive CfgField where
  | busMaster | powerState | maxPayload | maxRead | msixEnable | msixFnMask | vfEnable | numVfs
  deriving DecidableEq, Repr

/-- The registers a host write reaches (Tables 13.1 to 13.3); `msix` is the 8 KiB of BAR0 at 0x8000. -/
inductive RegTarget where
  | config (f : FnRef) (field : CfgField)
  | fn (f : FnRef) (off : BitVec 12)
  | msix (f : FnRef) (off : BitVec 13)
  | moduleWin (f : FnRef) (off : BitVec 16)
  | ctxWin (f : FnRef) (h : Fin 8) (off : BitVec 16)
  | regionWin (f : FnRef) (h : Fin 8) (r : BitVec 5) (off : BitVec 12)
  | cellWin (f : FnRef) (h : Fin 8) (id : CellId) (off : BitVec 14)
  deriving DecidableEq, Repr

/-- The path an object dictionary request takes (R378, R384). -/
inductive ReqPath where
  | pf (host : Fin 2)
  | vf (host : Fin 2) (n : Fin 16)
  | i3c
  | port15
  deriving DecidableEq, Repr

/-- The medium of an MCTP endpoint ID (R378). -/
inductive Medium where
  | pcieH0 | pcieH1 | i3c | link
  deriving DecidableEq, Repr

/-- The source of a control request: its medium, and the instance ID that its answer repeats. -/
structure ControlReq where
  medium : Medium
  inst : BitVec 5
  deriving DecidableEq, Repr

/-- The fields of a request that precede its data (Table 15.1); `zero` is byte 5, which must be 0. -/
structure OdReq where
  op : Byte
  tag : Byte
  index : BitVec 16
  sub : Byte
  zero : Byte
  offset : Word
  length : BitVec 16
  deriving DecidableEq, Repr

/-- The data objects of a PCIe DOE request (R400): DOE Discovery with its index, and the vendor's object 0x01 with a nonce. -/
inductive DoeObject where
  | discovery (index : Byte)
  | attest (nonce : BitVec 256)
  deriving DecidableEq, Repr

/-- The asynchronous crossings of Table 16.5. -/
inductive Crossing where
  | pcie (host : Fin 2)
  | silide (p : Fin 16)
  | hbm (region : Fin 32) (ch : Fin 8)
  | lantern
  deriving DecidableEq, Repr

/-- The causes of a shutdown (Table 16.1, R424, R432). -/
inductive ShutCause where
  | v54 (mv : Nat) (us : Nat)
  | v12 (mv : Nat) (us : Nat)
  | removal
  deriving DecidableEq, Repr

/-- What a PCIe port has trained to (R332), or that PERST# still holds it. -/
inductive PcieTrain where
  | trained (speed width : BitVec 4) (flit : Bool)
  | held
  | failed
  deriving DecidableEq, Repr

/-- The kinds of reset of R354. -/
inductive ResetKind where
  | hot | linkDown | fundamental
  deriving DecidableEq, Repr

/-- What a unit reports to the lantern (Table 9.2). -/
inductive FenceEvent where
  | residueCell (p : PhysCell)
  | uncorrectable (p : PhysCell)
  | ceLimit (p : PhysCell)
  | residueComb (region : Fin 32)
  | secondHbmUe (region : Fin 32)
  deriving DecidableEq, Repr

/-- The commands of the block. -/
inductive Instr where
  -- S slot and the course (chapter 03)
  | nop (c : CellRef) (slot : Slot)
  | add (c : CellRef) (rd ra rb : BitVec 5)
  | sub (c : CellRef) (rd ra rb : BitVec 5)
  | and (c : CellRef) (rd ra rb : BitVec 5)
  | or (c : CellRef) (rd ra rb : BitVec 5)
  | xor (c : CellRef) (rd ra rb : BitVec 5)
  | sll (c : CellRef) (rd ra rb : BitVec 5)
  | srl (c : CellRef) (rd ra rb : BitVec 5)
  | sra (c : CellRef) (rd ra rb : BitVec 5)
  | slt (c : CellRef) (rd ra rb : BitVec 5)
  | sltu (c : CellRef) (rd ra rb : BitVec 5)
  | min (c : CellRef) (rd ra rb : BitVec 5)
  | max (c : CellRef) (rd ra rb : BitVec 5)
  | minu (c : CellRef) (rd ra rb : BitVec 5)
  | maxu (c : CellRef) (rd ra rb : BitVec 5)
  | addi (c : CellRef) (rd ra : BitVec 5) (imm : Word)
  | andi (c : CellRef) (rd ra : BitVec 5) (imm : Word)
  | ori (c : CellRef) (rd ra : BitVec 5) (imm : Word)
  | xori (c : CellRef) (rd ra : BitVec 5) (imm : Word)
  | slli (c : CellRef) (rd ra : BitVec 5) (imm : Word)
  | srli (c : CellRef) (rd ra : BitVec 5) (imm : Word)
  | srai (c : CellRef) (rd ra : BitVec 5) (imm : Word)
  | slti (c : CellRef) (rd ra : BitVec 5) (imm : Word)
  | sltiu (c : CellRef) (rd ra : BitVec 5) (imm : Word)
  | li (c : CellRef) (rd ra : BitVec 5) (imm : Word)
  | mul (c : CellRef) (rd ra rb : BitVec 5)
  | mulh (c : CellRef) (rd ra rb : BitVec 5)
  | mulhu (c : CellRef) (rd ra rb : BitVec 5)
  | div (c : CellRef) (rd ra rb : BitVec 5)
  | divu (c : CellRef) (rd ra rb : BitVec 5)
  | rem (c : CellRef) (rd ra rb : BitVec 5)
  | remu (c : CellRef) (rd ra rb : BitVec 5)
  | fadd (c : CellRef) (rd ra rb : BitVec 5)
  | fsub (c : CellRef) (rd ra rb : BitVec 5)
  | fmul (c : CellRef) (rd ra rb : BitVec 5)
  | fmin (c : CellRef) (rd ra rb : BitVec 5)
  | fmax (c : CellRef) (rd ra rb : BitVec 5)
  | fcvtsw (c : CellRef) (rd ra rb : BitVec 5)
  | fcvtws (c : CellRef) (rd ra rb : BitVec 5)
  | feq (c : CellRef) (rd ra rb : BitVec 5)
  | flt (c : CellRef) (rd ra rb : BitVec 5)
  | fle (c : CellRef) (rd ra rb : BitVec 5)
  | fmvsx (c : CellRef) (rd ra rb : BitVec 5)
  | fmvxs (c : CellRef) (rd ra rb : BitVec 5)
  | fli (c : CellRef) (rd ra : BitVec 5) (imm : Word)
  | lw (c : CellRef) (rd ra : BitVec 5) (imm : Word)
  | flw (c : CellRef) (rd ra : BitVec 5) (imm : Word)
  | sw (c : CellRef) (rs ra : BitVec 5) (imm : Word)
  | fsw (c : CellRef) (rs ra : BitVec 5) (imm : Word)
  | mfc (c : CellRef) (rd : BitVec 5) (creg : BitVec 12)
  | mtc (c : CellRef) (rd : BitVec 5) (creg : BitVec 12)
  | beq (c : CellRef) (ra rb : BitVec 5) (dd : Bool) (target : BitVec 11)
  | bne (c : CellRef) (ra rb : BitVec 5) (dd : Bool) (target : BitVec 11)
  | blt (c : CellRef) (ra rb : BitVec 5) (dd : Bool) (target : BitVec 11)
  | bge (c : CellRef) (ra rb : BitVec 5) (dd : Bool) (target : BitVec 11)
  | bltu (c : CellRef) (ra rb : BitVec 5) (dd : Bool) (target : BitVec 11)
  | bgeu (c : CellRef) (ra rb : BitVec 5) (dd : Bool) (target : BitVec 11)
  | j (c : CellRef) (ra rb : BitVec 5) (dd : Bool) (target : BitVec 11)
  | jal (c : CellRef) (ra rb : BitVec 5) (dd : Bool) (target : BitVec 11)
  | jr (c : CellRef) (ra rb : BitVec 5) (dd : Bool) (target : BitVec 11)
  | loop (c : CellRef) (ra : BitVec 5) (reg dd : Bool) (count : BitVec 20) (last : BitVec 11)
  | halt (c : CellRef)
  | ovl (c : CellRef) (row : BitVec 10) (group : BitVec 7)
  | resultLanding (c : CellRef)
  -- T slot (chapter 05)
  | tpass (c : CellRef) (mode : BitVec 3) (ofmt wfmt : BitVec 4) (transp : Bool) (desc : BitVec 2) (anchor : BitVec 10)
  | passStep (c : CellRef)
  | wld (c : CellRef) (rs : BitVec 5) (rowoff : BitVec 10) (slot : BitVec 2) (half pack6 : Bool)
  | opld (c : CellRef) (rs : BitVec 5) (rowoff : BitVec 10) (buf pack6 : Bool)
  | scld (c : CellRef) (rs : BitVec 5) (rowoff : BitVec 10) (dst off : BitVec 3)
  | tdrain (c : CellRef) (bank : BitVec 2) (tr : BitVec 4) (trow : BitVec 5) (dfmt : BitVec 4) (idx clr : Bool)
  | tclr (c : CellRef) (mask : BitVec 4)
  -- V slot (chapters 06 and 12)
  | vchain (c : CellRef) (chain : BitVec 3) (src : BitVec 4) (srow nrows : BitVec 5) (dst : BitVec 4) (drow : BitVec 5)
  | vld (c : CellRef) (rs : BitVec 5) (rowoff : BitVec 10) (fmt tr : BitVec 4) (trow : BitVec 5) (sat : Bool)
  | vst (c : CellRef) (rs : BitVec 5) (rowoff : BitVec 10) (fmt tr : BitVec 4) (trow : BitVec 5) (sat : Bool)
  | vred (c : CellRef) (rop : BitVec 3) (axis : Bool) (src : BitVec 4) (srow nrows : BitVec 5) (dst : BitVec 4)
      (drow : BitVec 5) (mask : BitVec 3) (minv : Bool)
  | vreds (c : CellRef) (rop : BitVec 3) (rd : BitVec 5) (src : BitVec 4) (srow : BitVec 5) (mask : BitVec 3)
      (minv : Bool) (fb : BitVec 4)
  | vxacc (c : CellRef) (axis : Bool) (src : BitVec 4) (srow nrows : BitVec 5) (mask : BitVec 3) (minv : Bool)
  | vxdrain (c : CellRef) (raw : Bool) (dst : BitVec 4) (drow xsel : BitVec 5) (clr : Bool)
  | vxmerge (c : CellRef) (src : BitVec 4) (srow xsel : BitVec 5)
  | vxclr (c : CellRef)
  | vmset (c : CellRef) (md : BitVec 3) (mode : BitVec 2) (off : BitVec 7)
  | vmop (c : CellRef) (md ma mb : BitVec 3) (fn : BitVec 2)
  | afrexp (c : CellRef) (k : BitVec 3) (src : BitVec 4) (srow nrows : BitVec 5) (mask : BitVec 3) (minv : Bool)
  | afrxsend (c : CellRef) (k : BitVec 3) (route : BitVec 8) (dest : CellId)
  | afrcvt (c : CellRef) (k : BitVec 3) (src : BitVec 4) (srow rs : BitVec 5) (rowoff : BitVec 10) (mask : BitVec 3)
      (minv : Bool)
  | afrsend (c : CellRef) (k : BitVec 3) (route : BitVec 8) (dest : CellId) (rs : BitVec 5) (rowoff drow : BitVec 10)
  | afradd (c : CellRef) (k : BitVec 3) (ra : BitVec 5) (aoff : BitVec 10) (rb : BitVec 5) (boff : BitVec 10)
      (rd : BitVec 5) (doff : BitVec 10)
  | afrfin (c : CellRef) (k : BitVec 3) (rs : BitVec 5) (rowoff : BitVec 10) (dst : BitVec 4) (drow : BitVec 5)
  | afrend (c : CellRef) (k : BitVec 3)
  -- M0 and M1 slots, streams (chapter 07); m = false is M0
  | sgo (c : CellRef) (m : Bool) (d : BitVec 4) (ra rb : BitVec 5)
  | sarm (c : CellRef) (m : Bool) (d : BitVec 4) (ra rb : BitVec 5) (skeep dkeep : Bool)
  | sstop (c : CellRef) (m : Bool) (d : BitVec 4) (now : Bool)
  | rowPipeIssue (c : CellRef) (m : Bool)
  | streamBoundary (c : CellRef) (d : BitVec 4)
  | indexRowRead (c : CellRef) (d : BitVec 4)
  | looseRowIssue (c : CellRef) (d : BitVec 4)
  | looseRowDone (c : CellRef) (d : BitVec 4) (row : Nat) (r : HostRead)
  | looseLanding (c : CellRef)
  -- Q slot, signals, barriers, queues (chapter 10)
  | wait (c : CellRef) (sig n : BitVec 6)
  | waitr (c : CellRef) (sig : BitVec 6) (rs : BitVec 5)
  | post (c : CellRef) (sig n : BitVec 6)
  | sigsend (c : CellRef) (sig : BitVec 6) (ra : BitVec 5)
  | bar (c : CellRef) (b : BitVec 3)
  | rejoin (c : CellRef) (b : BitVec 3) (rs : BitVec 5)
  | lopen (c : CellRef)
  | qput (c : CellRef) (rs : BitVec 5) (rowoff : BitVec 7)
  | qsend (c : CellRef) (ra rb : BitVec 5)
  | qrecv (c : CellRef) (q : Bool) (rd : BitVec 5)
  | qpop (c : CellRef) (q : Bool)
  | qres (c : CellRef) (rd : BitVec 5)
  | signalArrival (c : CellRef)
  | waitSatisfied (c : CellRef)
  | barrierRelease (n : Fin 32) (b : Nat)
  | rejoinCheck (n : Fin 32) (b : Nat)
  | rejoinResume (n : Fin 32) (b : Nat)
  | messageProcessing (c : CellRef)
  | contributionProcessing (n : Fin 32) (region : BitVec 5)
  | sumResend (n : Fin 32) (region : BitVec 5) (q : BitVec 6)
  -- scratchpad operations and registers (chapter 08)
  | fill (c : CellRef) (src dst count : BitVec 10)
  | copy (c : CellRef) (src dst count : BitVec 10)
  | copyRowRead (c : CellRef)
  | mopComplete (c : CellRef)
  | queRingWrite (c : CellRef) (q : Bool) (value : Word)
  | registerWrite (t : RegTarget) (value : DWord)
  -- landings, HBM, holds (chapters 02 and 08)
  | transferLanding (t : LandTarget)
  | presenceCheck (n : Fin 32)
  | refreshDebt (region : Fin 32) (ch : Fin 8)
  | scrubRead (p : PhysCell)
  | scrubStarve (p : PhysCell)
  | hbmScrub (region : Fin 32) (ch : Fin 8) (unit : Nat) (ecc : Ecc)
  | clearingDone (region : Fin 32)
  | holdAccept (n : Fin 32)
  | holdFreeze (n : Fin 32)
  | holdRelease (n : Fin 32)
  | holdResume (n : Fin 32)
  | holdLimit (n : Fin 32)
  | frequencyChange
  -- contexts (chapters 13 and 14)
  | contextStart (n : Fin 32)
  | contextComplete (n : Fin 32)
  | killStart (n : Fin 32)
  | killReceipt (n : Fin 32)
  | killEnd (n : Fin 32)
  | killTimer (n : Fin 32)
  | quietDetected (n : Fin 32)
  | summaryTimer (n : Fin 32)
  | quietDump (n : Fin 32)
  -- Silide links (chapter 11)
  | signalDetect (p : Fin 16) (lanes : BitVec 2)
  | capabilityAccept (p : Fin 16) (word : DWord) (crc : Word) (copies : Nat)
  | modeSelect (p : Fin 16) (partnerMode : BitVec 4) (partnerLanes : BitVec 2)
  | trainRound (p : Fin 16) (errors0 errors1 : Nat) (inverted partnerPass : BitVec 2)
  | alignDone (p : Fin 16) (rttNs : BitVec 16)
  | negotiationTimeout (p : Fin 16)
  | downWait (p : Fin 16)
  | retrain (p : Fin 16) (fecLost : Bool)
  | retrainTimeout (p : Fin 16)
  | flitReceive (p : Fin 16) (w : Wire) (frac : BitVec 6)
  | nakResend (p : Fin 16)
  | nakRepeat (p : Fin 16)
  | headerTimer (p : Fin 16)
  | slotCycleSend (p : Fin 16) (n : Fin 32)
  | idle (p : Fin 16) (w : Wire)
  | vacant (p : Fin 16)
  | row (p : Fin 16)
  | rowLoose (src : MsgSrc)
  | signal (src : MsgSrc)
  | qmsg (src : MsgSrc)
  | qresult (src : MsgSrc)
  | contrib (src : MsgSrc)
  | barArrive (p : Fin 16)
  | barRelease (p : Fin 16)
  | reduce (p : Fin 16)
  | summary (p : Fin 16)
  | timeSync (p : Fin 16)
  | holdNotice (p : Fin 16)
  | releaseNotice (p : Fin 16)
  | killNotice (p : Fin 16)
  | clockAgree (p : Fin 16)
  | mgmt (p : Fin 16)
  | timeSyncTimer
  | timeInputLost
  | referenceLost
  | referenceRestored (offset : BitVec 24)
  -- supplies, thermal, power, bring-up (chapters 16 and 17)
  | supplyInRange (first : Byte) (v54mv v12mv : Nat)
  | supplyLow (mv : Nat)
  | supplyRestored (mv : Nat)
  | shutdown (cause : ShutCause)
  | v12Excursion (mv us : Nat)
  | v54High (mv : Nat)
  | presentMate
  | powerSample (avg100us avg1ms avg10ms : BitVec 16)
  | measuredCapStep
  | thermalCapStep
  | sensorHold (sensor : BitVec 6) (tenths : BitVec 16)
  | sensorRelease (sensor : BitVec 6) (tenths : BitVec 16)
  | overtempShutdown (sensor : BitVec 6) (tenths : BitVec 16)
  | stageS0 (durUs : Word) (badCopies : BitVec 18) (badLogs : DWord)
  | stageS1 (durUs : Word)
  | stageS2 (durUs : Word) (ok : Bool) (ppb : Word)
  | stageS3 (durUs : Word) (failed : BitVec 256)
  | stageS4 (durUs : Word) (failed : List PhysCell)
  | stageS5 (durUs : Word)
  | stageS6 (durUs : Word) (ok : Bool) (skewPs : Word)
  | stageS7 (durUs : Word) (h0 h1 : PcieTrain) (refclk : BitVec 2)
  | stageS8 (durUs : Word)
  | stageS9 (durUs : Word)
  | stageS10 (durUs : Word) (time : Option DWord) (offset : BitVec 24)
  | stageS11 (durUs : Word)
  | perstDeassert (host : Fin 2) (refclk : Bool) (t : PcieTrain)
  | portReset (host : Fin 2) (k : ResetKind) (t : PcieTrain)
  | functionLevelReset (f : FnRef)
  | crossingTimeout (x : Crossing)
  | reenter (f : FnRef) (value : Word)
  -- host interface (chapter 13)
  | cmdqTailWrite (f : FnRef) (value : Word)
  | cmdqCfgWrite (f : FnRef) (value : Word)
  | cplqCfgWrite (f : FnRef) (value : Word)
  | cplqHeadWrite (f : FnRef) (value : Word)
  | commandFetch (f : FnRef) (entry : Option Codeword)
  | commandAccept (f : FnRef) (seq : Nat)
  | eventRecord (f : FnRef)
  | msixTimer (f : FnRef)
  | hostKill (f : FnRef) (value : Word)
  | hostMboxGo (f : FnRef) (value : Word)
  | commandNop (f : FnRef) (seq : Nat)
  | openSession (f : FnRef) (seq : Nat)
  | closeSession (f : FnRef) (seq : Nat)
  | setVfQuota (f : FnRef) (seq : Nat)
  | load (f : FnRef) (seq : Nat)
  | loadComplete (n : Fin 32) (image : Option (List Byte))
  | setHostWindow (f : FnRef) (seq : Nat)
  | launch (f : FnRef) (seq : Nat)
  | kill (f : FnRef) (seq : Nat)
  | release (f : FnRef) (seq : Nat)
  | dump (f : FnRef) (seq : Nat)
  | dumpDone (n : Fin 32)
  | leaseCreate (f : FnRef) (seq : Nat)
  | leaseRelease (f : FnRef) (seq : Nat)
  -- lantern, object dictionary, security (chapter 15)
  | fenceRecord (e : FenceEvent)
  | odRead (q : ReqPath) (r : OdReq)
  | odWrite (q : ReqPath) (r : OdReq) (data : List Byte) (fails : Bool)
  | odInfo (q : ReqPath) (r : OdReq)
  | fence (q : ReqPath) (tag : Byte) (target : Word) (fails : Bool)
  | unfence (q : ReqPath) (tag : Byte) (target : Word) (fails : Bool)
  | fwImage (q : ReqPath) (tag : Byte) (offset : Nat) (data : List Byte) (fails : Bool)
  | fwCommit (q : ReqPath) (tag : Byte) (value : Byte) (fails : Bool)
  | attestNonce (q : ReqPath) (tag : Byte) (nonce : BitVec 256)
  | attestReport (q : ReqPath)
  | doeRequest (host : Fin 2) (object : DoeObject)
  | setEndpointId (r : ControlReq) (eid : Byte)
  | getEndpointId (r : ControlReq)
  | getMctpVersionSupport (r : ControlReq)
  | getMessageTypeSupport (r : ControlReq)
  | entdaa (addr : BitVec 7)
  | lanternRestart (memoryError : Bool)
  | restartComplete
  -- late rows of the table
  | flitTransmit (p : Fin 16) (frac : BitVec 6)
  | hbmReadData (n : Fin 32) (id : Nat) (ecc : Ecc)
  | refreshDebtCleared (region : Fin 32) (ch : Fin 8)
  | completionTimeout (c : CellRef) (d : BitVec 4) (row : Nat)
  | hbmChannelRetrain (region : Fin 32) (ch : Fin 8) (ok : Bool)
  | cellMemoryScrub (c : CellRef) (dataMemory : Bool) (word : BitVec 13)
  deriving DecidableEq, Repr

end Sys2Proof
end

