-- ==== Sys2Proof/WellFormed.lean ====
section
/-!
DEFINITION. Sys2Proof/WellFormed.lean: which slot instructions are legal by their operands alone (R55).

A reserved bit or an undefined opcode has no constructor, so what is left are operand fields that hold an excluded
value. Checks that also need the cell's state (LOOP's own address, a chain descriptor, a bank) belong to the meanings.
-/
namespace Sys2Proof

open Sys2Proof.Machine (FmtClass classOf widthOf)

/-- The CREG numbers that exist (Tables 3.11, 5.9, 6.13, 7.8, 8.7, 10.8, R327). -/
def cregDefined (x : Nat) : Bool :=
  decide (x ≤ 0x007) ||
  (decide (0x100 ≤ x) && decide (x ≤ 0x104)) ||
  (decide (0x110 ≤ x) && decide (x < 0x190) && decide ((x - 0x110) % 0x20 ≤ 24)) ||
  decide (x = 0x200) ||
  (decide (0x210 ≤ x) && decide (x < 0x290) && decide ((x - 0x210) % 0x10 ≤ 8)) ||
  (decide (0x2A0 ≤ x) && decide (x ≤ 0x2AF)) ||
  decide (x = 0x300) || decide (x = 0x301) ||
  (decide (0x310 ≤ x) && decide (x ≤ 0x326)) ||
  (decide (0x340 ≤ x) && decide (x ≤ 0x34F)) ||
  (decide (0x400 ≤ x) && decide (x ≤ 0x406)) ||
  (decide (0x410 ≤ x) && decide (x ≤ 0x41F)) ||
  (decide (0x440 ≤ x) && decide (x ≤ 0x442)) ||
  (decide (0x448 ≤ x) && decide (x ≤ 0x44F)) ||
  (decide (0x500 ≤ x) && decide (x ≤ 0x507))

/-- A field that names an f register (R66). -/
def isF (r : BitVec 5) : Bool := decide (r.toNat < 16)

/-- The container width of a tensor-row format (Table 5.2); 0 where the tensor row has no such format. -/
def container (code : Nat) : Nat :=
  match classOf code with
  | .f16 => 16
  | .fp8 => 8
  | .mx => if code = 0x9 then 4 else 8
  | .int => if code = 0xC then 4 else 8
  | .bin => 1
  | _ => 0

/-- The formats of column reads (R107). -/
def columnFmt (code : Nat) : Bool :=
  decide (code = 0x1) || decide (code = 0x2) || decide (code = 0x3) || decide (code = 0x4) || decide (code = 0xA) ||
  decide (code = 0xB)

/-- The format pairs of Table 5.4 with R104, R107 and R116. -/
def tpassLegal (mode ofmt wfmt : Nat) (transp : Bool) (anchor : BitVec 10) : Bool :=
  let pair := decide (classOf ofmt = classOf wfmt) && decide (container ofmt = container wfmt) &&
    decide (container ofmt ≠ 0)
  let plain := decide (classOf ofmt = .fp8) || decide (classOf ofmt = .f16) || decide (classOf ofmt = .int)
  let modeOk :=
    match mode with
    | 0 => true
    | 2 => plain && decide (ofmt ≠ 0x4) && decide (wfmt ≠ 0x4)
    | 5 => decide (classOf ofmt = .bin) && !transp
    | 7 => false
    | _ => plain
  pair && modeOk && (!transp || columnFmt wfmt) &&
    (decide (anchor = 0) || decide (classOf ofmt = .f16) || decide (classOf ofmt = .mx))

/-- Legality of a slot instruction by its operands (R55). A WRITE and an INFO carry their own operation, and every other request
is an OD_READ (R380); the other commands carry no excluded values. -/
def legal : Instr → Bool
  | .slli _ _ _ imm | .srli _ _ _ imm | .srai _ _ _ imm => decide (imm.toNat < 32)
  | .li _ _ ra _ => decide (ra = 0)
  | .fadd _ rd ra rb | .fsub _ rd ra rb | .fmul _ rd ra rb | .fmin _ rd ra rb | .fmax _ rd ra rb =>
    isF rd && isF ra && isF rb
  | .fcvtsw _ rd _ rb | .fmvsx _ rd _ rb => isF rd && decide (rb = 0)
  | .fcvtws _ _ ra rb | .fmvxs _ _ ra rb => isF ra && decide (rb = 0)
  | .feq _ _ ra rb | .flt _ _ ra rb | .fle _ _ ra rb => isF ra && isF rb
  | .fli _ rd ra _ => isF rd && decide (ra = 0)
  | .flw _ rd _ _ => isF rd
  | .fsw _ rs _ _ => isF rs
  | .mfc _ _ creg | .mtc _ _ creg => cregDefined creg.toNat
  | .j _ ra rb dd _ => decide (ra = 0) && decide (rb = 0) && !dd
  | .jal _ _ rb dd _ => decide (rb = 0) && !dd
  | .jr _ _ rb _ target => decide (rb = 0) && decide (target = 0)
  | .loop _ ra reg _ count _ => if reg then decide (count = 0) else decide (ra = 0)
  | .ovl _ row _ => decide (row.toNat < 640)
  | .tpass _ mode ofmt wfmt transp _ anchor => tpassLegal mode.toNat ofmt.toNat wfmt.toNat transp anchor
  | .scld _ _ _ dst _ => decide (dst.toNat ≤ 5)
  | .tdrain _ _ _ _ dfmt idx _ =>
    (decide (dfmt = 0x0) || decide (dfmt = 0x1) || decide (dfmt = 0xE)) && (!idx || decide (dfmt = 0xE))
  | .tclr _ mask => decide (mask ≠ 0)
  | .vld _ _ _ fmt _ _ sat => decide (fmt ≠ 0xD) && decide (fmt ≠ 0xF) && !sat
  | .vst _ _ _ fmt _ _ _ => decide (fmt ≠ 0xD) && decide (fmt ≠ 0xF)
  | .vred _ rop _ _ _ _ _ _ _ _ => decide (rop ≠ 7)
  | .vreds _ rop rd _ _ _ _ fb =>
    (decide (rop.toNat > 2) || isF rd) && (decide (rop = 7) || decide (fb = 0))
  | .vxdrain _ raw _ _ xsel _ => raw || decide (xsel = 0)
  | .vmset _ md mode _ => decide (md ≠ 0) && decide (mode ≠ 3)
  | .vmop _ md _ _ _ => decide (md ≠ 0)
  | .afrxsend _ _ route _ => decide (route ≠ 0)
  | .afrcvt _ _ _ srow _ _ _ _ => !srow.getLsbD 0
  | .afrsend _ _ route _ _ _ drow => decide (route ≠ 0) && decide (drow.toNat < 640)
  | .afrfin _ _ _ _ _ drow => !drow.getLsbD 0
  | .wait _ _ n | .post _ _ n => decide (n ≠ 0)
  | .odRead _ r => decide (r.op ≠ 2) && decide (r.op ≠ 3)
  | .odWrite _ r _ _ => decide (r.op = 2)
  | .odInfo _ r => decide (r.op = 3)
  | _ => true

end Sys2Proof
end

