-- ==== Sys2Proof/Decode.lean ====
section
/-!
DEFINITION. Sys2Proof/Decode.lean: the word of a command of the table, and the encodings of the slot instructions.

The rows of spec/opcode_table.json give no bits, so no word spells a command there. The slot instructions have the
encodings of the spec's format tables: a course fetched from instruction memory is decoded by them, and the slot log
records a skipped slot by its encoding (R52, R55, R58).
-/
namespace Sys2Proof

/-- The command that a word of the opcode table spells: the table's rows give no bits. -/
def decodeTableWord (_nbits _w : Nat) : Option Instr := none

/-- The encoding of a slot instruction in its slot, by the formats of Tables 3.5, 5.5, 6.9, 7.4, 10.5 and 12.5; zero-
extended to 64 bits as CELL_SLOTLOG records it (Table 3.4). A command that is no slot instruction has no encoding. -/
def encodeSlot : Instr → Option DWord
  | .nop _ _ => some 0
  | .add _ rd ra rb => some (1#8 ++ rd ++ ra ++ rb ++ 0#41 : BitVec 64)
  | .sub _ rd ra rb => some (2#8 ++ rd ++ ra ++ rb ++ 0#41 : BitVec 64)
  | .and _ rd ra rb => some (3#8 ++ rd ++ ra ++ rb ++ 0#41 : BitVec 64)
  | .or _ rd ra rb => some (4#8 ++ rd ++ ra ++ rb ++ 0#41 : BitVec 64)
  | .xor _ rd ra rb => some (5#8 ++ rd ++ ra ++ rb ++ 0#41 : BitVec 64)
  | .sll _ rd ra rb => some (6#8 ++ rd ++ ra ++ rb ++ 0#41 : BitVec 64)
  | .srl _ rd ra rb => some (7#8 ++ rd ++ ra ++ rb ++ 0#41 : BitVec 64)
  | .sra _ rd ra rb => some (8#8 ++ rd ++ ra ++ rb ++ 0#41 : BitVec 64)
  | .slt _ rd ra rb => some (9#8 ++ rd ++ ra ++ rb ++ 0#41 : BitVec 64)
  | .sltu _ rd ra rb => some (10#8 ++ rd ++ ra ++ rb ++ 0#41 : BitVec 64)
  | .min _ rd ra rb => some (11#8 ++ rd ++ ra ++ rb ++ 0#41 : BitVec 64)
  | .max _ rd ra rb => some (12#8 ++ rd ++ ra ++ rb ++ 0#41 : BitVec 64)
  | .minu _ rd ra rb => some (13#8 ++ rd ++ ra ++ rb ++ 0#41 : BitVec 64)
  | .maxu _ rd ra rb => some (14#8 ++ rd ++ ra ++ rb ++ 0#41 : BitVec 64)
  | .addi _ rd ra imm => some (17#8 ++ rd ++ ra ++ 0#14 ++ imm : BitVec 64)
  | .andi _ rd ra imm => some (19#8 ++ rd ++ ra ++ 0#14 ++ imm : BitVec 64)
  | .ori _ rd ra imm => some (20#8 ++ rd ++ ra ++ 0#14 ++ imm : BitVec 64)
  | .xori _ rd ra imm => some (21#8 ++ rd ++ ra ++ 0#14 ++ imm : BitVec 64)
  | .slli _ rd ra imm => some (22#8 ++ rd ++ ra ++ 0#14 ++ imm : BitVec 64)
  | .srli _ rd ra imm => some (23#8 ++ rd ++ ra ++ 0#14 ++ imm : BitVec 64)
  | .srai _ rd ra imm => some (24#8 ++ rd ++ ra ++ 0#14 ++ imm : BitVec 64)
  | .slti _ rd ra imm => some (25#8 ++ rd ++ ra ++ 0#14 ++ imm : BitVec 64)
  | .sltiu _ rd ra imm => some (26#8 ++ rd ++ ra ++ 0#14 ++ imm : BitVec 64)
  | .li _ rd ra imm => some (31#8 ++ rd ++ ra ++ 0#14 ++ imm : BitVec 64)
  | .mul _ rd ra rb => some (32#8 ++ rd ++ ra ++ rb ++ 0#41 : BitVec 64)
  | .mulh _ rd ra rb => some (33#8 ++ rd ++ ra ++ rb ++ 0#41 : BitVec 64)
  | .mulhu _ rd ra rb => some (34#8 ++ rd ++ ra ++ rb ++ 0#41 : BitVec 64)
  | .div _ rd ra rb => some (36#8 ++ rd ++ ra ++ rb ++ 0#41 : BitVec 64)
  | .divu _ rd ra rb => some (37#8 ++ rd ++ ra ++ rb ++ 0#41 : BitVec 64)
  | .rem _ rd ra rb => some (38#8 ++ rd ++ ra ++ rb ++ 0#41 : BitVec 64)
  | .remu _ rd ra rb => some (39#8 ++ rd ++ ra ++ rb ++ 0#41 : BitVec 64)
  | .fadd _ rd ra rb => some (48#8 ++ rd ++ ra ++ rb ++ 0#41 : BitVec 64)
  | .fsub _ rd ra rb => some (49#8 ++ rd ++ ra ++ rb ++ 0#41 : BitVec 64)
  | .fmul _ rd ra rb => some (50#8 ++ rd ++ ra ++ rb ++ 0#41 : BitVec 64)
  | .fmin _ rd ra rb => some (51#8 ++ rd ++ ra ++ rb ++ 0#41 : BitVec 64)
  | .fmax _ rd ra rb => some (52#8 ++ rd ++ ra ++ rb ++ 0#41 : BitVec 64)
  | .fcvtsw _ rd ra rb => some (53#8 ++ rd ++ ra ++ rb ++ 0#41 : BitVec 64)
  | .fcvtws _ rd ra rb => some (54#8 ++ rd ++ ra ++ rb ++ 0#41 : BitVec 64)
  | .feq _ rd ra rb => some (56#8 ++ rd ++ ra ++ rb ++ 0#41 : BitVec 64)
  | .flt _ rd ra rb => some (57#8 ++ rd ++ ra ++ rb ++ 0#41 : BitVec 64)
  | .fle _ rd ra rb => some (58#8 ++ rd ++ ra ++ rb ++ 0#41 : BitVec 64)
  | .fmvsx _ rd ra rb => some (60#8 ++ rd ++ ra ++ rb ++ 0#41 : BitVec 64)
  | .fmvxs _ rd ra rb => some (61#8 ++ rd ++ ra ++ rb ++ 0#41 : BitVec 64)
  | .fli _ rd ra imm => some (62#8 ++ rd ++ ra ++ 0#14 ++ imm : BitVec 64)
  | .lw _ rd ra imm => some (64#8 ++ rd ++ ra ++ 0#14 ++ imm : BitVec 64)
  | .flw _ rd ra imm => some (66#8 ++ rd ++ ra ++ 0#14 ++ imm : BitVec 64)
  | .sw _ rs ra imm => some (65#8 ++ rs ++ ra ++ 0#14 ++ imm : BitVec 64)
  | .fsw _ rs ra imm => some (67#8 ++ rs ++ ra ++ 0#14 ++ imm : BitVec 64)
  | .mfc _ rd creg => some (72#8 ++ rd ++ 0#39 ++ creg : BitVec 64)
  | .mtc _ rd creg => some (73#8 ++ rd ++ 0#39 ++ creg : BitVec 64)
  | .beq _ ra rb dd target => some (80#8 ++ ra ++ rb ++ (BitVec.ofBool dd) ++ 0#34 ++ target : BitVec 64)
  | .bne _ ra rb dd target => some (81#8 ++ ra ++ rb ++ (BitVec.ofBool dd) ++ 0#34 ++ target : BitVec 64)
  | .blt _ ra rb dd target => some (82#8 ++ ra ++ rb ++ (BitVec.ofBool dd) ++ 0#34 ++ target : BitVec 64)
  | .bge _ ra rb dd target => some (83#8 ++ ra ++ rb ++ (BitVec.ofBool dd) ++ 0#34 ++ target : BitVec 64)
  | .bltu _ ra rb dd target => some (84#8 ++ ra ++ rb ++ (BitVec.ofBool dd) ++ 0#34 ++ target : BitVec 64)
  | .bgeu _ ra rb dd target => some (85#8 ++ ra ++ rb ++ (BitVec.ofBool dd) ++ 0#34 ++ target : BitVec 64)
  | .j _ ra rb dd target => some (88#8 ++ ra ++ rb ++ (BitVec.ofBool dd) ++ 0#34 ++ target : BitVec 64)
  | .jal _ ra rb dd target => some (89#8 ++ ra ++ rb ++ (BitVec.ofBool dd) ++ 0#34 ++ target : BitVec 64)
  | .jr _ ra rb dd target => some (90#8 ++ ra ++ rb ++ (BitVec.ofBool dd) ++ 0#34 ++ target : BitVec 64)
  | .loop _ ra reg dd count last =>
    some (96#8 ++ ra ++ (BitVec.ofBool reg) ++ (BitVec.ofBool dd) ++ 0#18 ++ count ++ last : BitVec 64)
  | .halt _ => some (111#8 ++ 0#56 : BitVec 64)
  | .ovl _ row group => some (112#8 ++ 0#30 ++ row ++ 0#9 ++ group : BitVec 64)
  | .tpass _ mode ofmt wfmt transp desc anchor =>
    some ((1#6 ++ mode ++ ofmt ++ wfmt ++ (BitVec.ofBool transp) ++ desc ++ anchor ++ 0#18 : BitVec 48).setWidth 64)
  | .wld _ rs rowoff slot half pack6 =>
    some ((2#6 ++ rs ++ rowoff ++ slot ++ (BitVec.ofBool half) ++ (BitVec.ofBool pack6) ++ 0#23 : BitVec 48).setWidth 64)
  | .opld _ rs rowoff buf pack6 =>
    some ((3#6 ++ rs ++ rowoff ++ (BitVec.ofBool buf) ++ 0#2 ++ (BitVec.ofBool pack6) ++ 0#23 : BitVec 48).setWidth 64)
  | .scld _ rs rowoff dst off => some ((4#6 ++ rs ++ rowoff ++ dst ++ off ++ 0#21 : BitVec 48).setWidth 64)
  | .tdrain _ bank tr trow dfmt idx clr =>
    some ((5#6 ++ bank ++ tr ++ trow ++ dfmt ++ (BitVec.ofBool idx) ++ (BitVec.ofBool clr) ++ 0#25 : BitVec 48).setWidth 64)
  | .tclr _ mask => some ((6#6 ++ mask ++ 0#38 : BitVec 48).setWidth 64)
  | .vchain _ chain src srow nrows dst drow =>
    some (1#6 ++ chain ++ src ++ srow ++ nrows ++ dst ++ drow ++ 0#32 : BitVec 64)
  | .vld _ rs rowoff fmt tr trow sat =>
    some (2#6 ++ rs ++ rowoff ++ fmt ++ tr ++ trow ++ (BitVec.ofBool sat) ++ 0#29 : BitVec 64)
  | .vst _ rs rowoff fmt tr trow sat =>
    some (3#6 ++ rs ++ rowoff ++ fmt ++ tr ++ trow ++ (BitVec.ofBool sat) ++ 0#29 : BitVec 64)
  | .vred _ rop axis src srow nrows dst drow mask minv =>
    some (4#6 ++ rop ++ (BitVec.ofBool axis) ++ src ++ srow ++ nrows ++ dst ++ drow ++ mask ++ (BitVec.ofBool minv) ++ 0#27 : BitVec 64)
  | .vreds _ rop rd src srow mask minv fb =>
    some (5#6 ++ rop ++ rd ++ src ++ srow ++ mask ++ (BitVec.ofBool minv) ++ fb ++ 0#33 : BitVec 64)
  | .vxacc _ axis src srow nrows mask minv =>
    some (8#6 ++ (BitVec.ofBool axis) ++ src ++ srow ++ nrows ++ mask ++ (BitVec.ofBool minv) ++ 0#39 : BitVec 64)
  | .vxdrain _ raw dst drow xsel clr =>
    some (9#6 ++ (BitVec.ofBool raw) ++ dst ++ drow ++ xsel ++ (BitVec.ofBool clr) ++ 0#42 : BitVec 64)
  | .vxmerge _ src srow xsel => some (10#6 ++ src ++ srow ++ xsel ++ 0#44 : BitVec 64)
  | .vxclr _ => some (11#6 ++ 0#58 : BitVec 64)
  | .vmset _ md mode off => some (12#6 ++ md ++ mode ++ off ++ 0#46 : BitVec 64)
  | .vmop _ md ma mb fn => some (13#6 ++ md ++ ma ++ mb ++ fn ++ 0#47 : BitVec 64)
  | .afrexp _ k src srow nrows mask minv =>
    some (48#6 ++ k ++ src ++ srow ++ nrows ++ mask ++ (BitVec.ofBool minv) ++ 0#37 : BitVec 64)
  | .afrxsend _ k route dest => some (49#6 ++ k ++ route ++ dest ++ 0#33 : BitVec 64)
  | .afrcvt _ k src srow rs rowoff mask minv =>
    some (50#6 ++ k ++ src ++ srow ++ rs ++ rowoff ++ mask ++ (BitVec.ofBool minv) ++ 0#27 : BitVec 64)
  | .afrsend _ k route dest rs rowoff drow =>
    some (51#6 ++ k ++ route ++ dest ++ rs ++ rowoff ++ drow ++ 0#8 : BitVec 64)
  | .afradd _ k ra aoff rb boff rd doff =>
    some (52#6 ++ k ++ ra ++ aoff ++ rb ++ boff ++ rd ++ doff ++ 0#10 : BitVec 64)
  | .afrfin _ k rs rowoff dst drow => some (53#6 ++ k ++ rs ++ rowoff ++ dst ++ drow ++ 0#31 : BitVec 64)
  | .afrend _ k => some (54#6 ++ k ++ 0#55 : BitVec 64)
  | .sgo _ _ d ra rb => some ((1#6 ++ d ++ ra ++ rb ++ 0#12 : BitVec 32).setWidth 64)
  | .sarm _ _ d ra rb skeep dkeep =>
    some ((2#6 ++ d ++ ra ++ rb ++ (BitVec.ofBool skeep) ++ (BitVec.ofBool dkeep) ++ 0#10 : BitVec 32).setWidth 64)
  | .sstop _ _ d now => some ((3#6 ++ d ++ (BitVec.ofBool now) ++ 0#21 : BitVec 32).setWidth 64)
  | .wait _ sig n => some ((1#4 ++ sig ++ n : BitVec 16).setWidth 64)
  | .waitr _ sig rs => some ((2#4 ++ sig ++ rs ++ 0#1 : BitVec 16).setWidth 64)
  | .post _ sig n => some ((3#4 ++ sig ++ n : BitVec 16).setWidth 64)
  | .sigsend _ sig ra => some ((4#4 ++ sig ++ ra ++ 0#1 : BitVec 16).setWidth 64)
  | .bar _ b => some ((5#4 ++ b ++ 0#9 : BitVec 16).setWidth 64)
  | .rejoin _ b rs => some ((6#4 ++ b ++ rs ++ 0#4 : BitVec 16).setWidth 64)
  | .lopen _ => some ((7#4 ++ 0#12 : BitVec 16).setWidth 64)
  | .qput _ rs rowoff => some ((8#4 ++ rs ++ rowoff : BitVec 16).setWidth 64)
  | .qsend _ ra rb => some ((9#4 ++ ra ++ rb ++ 0#2 : BitVec 16).setWidth 64)
  | .qrecv _ q rd => some ((10#4 ++ (BitVec.ofBool q) ++ rd ++ 0#6 : BitVec 16).setWidth 64)
  | .qpop _ q => some ((11#4 ++ (BitVec.ofBool q) ++ 0#11 : BitVec 16).setWidth 64)
  | .qres _ rd => some ((12#4 ++ rd ++ 0#7 : BitVec 16).setWidth 64)
  | _ => none

/-- The instruction that the bits of the S slot (Tables 3.5, 3.8) spell; none for an undefined opcode or a reserved bit that is 1
(R55). -/
def decodeS (c : CellRef) (w : BitVec 64) : Option Instr :=
  if w = 0 then some (.nop c .S)
  else
    match (w.extractLsb' 56 8).toNat with
    | 0x01 =>
      if w.extractLsb' 0 41 = 0 then
        some (.add c (w.extractLsb' 51 5) (w.extractLsb' 46 5) (w.extractLsb' 41 5))
      else none
    | 0x02 =>
      if w.extractLsb' 0 41 = 0 then
        some (.sub c (w.extractLsb' 51 5) (w.extractLsb' 46 5) (w.extractLsb' 41 5))
      else none
    | 0x03 =>
      if w.extractLsb' 0 41 = 0 then
        some (.and c (w.extractLsb' 51 5) (w.extractLsb' 46 5) (w.extractLsb' 41 5))
      else none
    | 0x04 =>
      if w.extractLsb' 0 41 = 0 then
        some (.or c (w.extractLsb' 51 5) (w.extractLsb' 46 5) (w.extractLsb' 41 5))
      else none
    | 0x05 =>
      if w.extractLsb' 0 41 = 0 then
        some (.xor c (w.extractLsb' 51 5) (w.extractLsb' 46 5) (w.extractLsb' 41 5))
      else none
    | 0x06 =>
      if w.extractLsb' 0 41 = 0 then
        some (.sll c (w.extractLsb' 51 5) (w.extractLsb' 46 5) (w.extractLsb' 41 5))
      else none
    | 0x07 =>
      if w.extractLsb' 0 41 = 0 then
        some (.srl c (w.extractLsb' 51 5) (w.extractLsb' 46 5) (w.extractLsb' 41 5))
      else none
    | 0x08 =>
      if w.extractLsb' 0 41 = 0 then
        some (.sra c (w.extractLsb' 51 5) (w.extractLsb' 46 5) (w.extractLsb' 41 5))
      else none
    | 0x09 =>
      if w.extractLsb' 0 41 = 0 then
        some (.slt c (w.extractLsb' 51 5) (w.extractLsb' 46 5) (w.extractLsb' 41 5))
      else none
    | 0x0A =>
      if w.extractLsb' 0 41 = 0 then
        some (.sltu c (w.extractLsb' 51 5) (w.extractLsb' 46 5) (w.extractLsb' 41 5))
      else none
    | 0x0B =>
      if w.extractLsb' 0 41 = 0 then
        some (.min c (w.extractLsb' 51 5) (w.extractLsb' 46 5) (w.extractLsb' 41 5))
      else none
    | 0x0C =>
      if w.extractLsb' 0 41 = 0 then
        some (.max c (w.extractLsb' 51 5) (w.extractLsb' 46 5) (w.extractLsb' 41 5))
      else none
    | 0x0D =>
      if w.extractLsb' 0 41 = 0 then
        some (.minu c (w.extractLsb' 51 5) (w.extractLsb' 46 5) (w.extractLsb' 41 5))
      else none
    | 0x0E =>
      if w.extractLsb' 0 41 = 0 then
        some (.maxu c (w.extractLsb' 51 5) (w.extractLsb' 46 5) (w.extractLsb' 41 5))
      else none
    | 0x11 =>
      if w.extractLsb' 32 14 = 0 then
        some (.addi c (w.extractLsb' 51 5) (w.extractLsb' 46 5) (w.extractLsb' 0 32))
      else none
    | 0x13 =>
      if w.extractLsb' 32 14 = 0 then
        some (.andi c (w.extractLsb' 51 5) (w.extractLsb' 46 5) (w.extractLsb' 0 32))
      else none
    | 0x14 =>
      if w.extractLsb' 32 14 = 0 then
        some (.ori c (w.extractLsb' 51 5) (w.extractLsb' 46 5) (w.extractLsb' 0 32))
      else none
    | 0x15 =>
      if w.extractLsb' 32 14 = 0 then
        some (.xori c (w.extractLsb' 51 5) (w.extractLsb' 46 5) (w.extractLsb' 0 32))
      else none
    | 0x16 =>
      if w.extractLsb' 32 14 = 0 then
        some (.slli c (w.extractLsb' 51 5) (w.extractLsb' 46 5) (w.extractLsb' 0 32))
      else none
    | 0x17 =>
      if w.extractLsb' 32 14 = 0 then
        some (.srli c (w.extractLsb' 51 5) (w.extractLsb' 46 5) (w.extractLsb' 0 32))
      else none
    | 0x18 =>
      if w.extractLsb' 32 14 = 0 then
        some (.srai c (w.extractLsb' 51 5) (w.extractLsb' 46 5) (w.extractLsb' 0 32))
      else none
    | 0x19 =>
      if w.extractLsb' 32 14 = 0 then
        some (.slti c (w.extractLsb' 51 5) (w.extractLsb' 46 5) (w.extractLsb' 0 32))
      else none
    | 0x1A =>
      if w.extractLsb' 32 14 = 0 then
        some (.sltiu c (w.extractLsb' 51 5) (w.extractLsb' 46 5) (w.extractLsb' 0 32))
      else none
    | 0x1F =>
      if w.extractLsb' 32 14 = 0 then
        some (.li c (w.extractLsb' 51 5) (w.extractLsb' 46 5) (w.extractLsb' 0 32))
      else none
    | 0x20 =>
      if w.extractLsb' 0 41 = 0 then
        some (.mul c (w.extractLsb' 51 5) (w.extractLsb' 46 5) (w.extractLsb' 41 5))
      else none
    | 0x21 =>
      if w.extractLsb' 0 41 = 0 then
        some (.mulh c (w.extractLsb' 51 5) (w.extractLsb' 46 5) (w.extractLsb' 41 5))
      else none
    | 0x22 =>
      if w.extractLsb' 0 41 = 0 then
        some (.mulhu c (w.extractLsb' 51 5) (w.extractLsb' 46 5) (w.extractLsb' 41 5))
      else none
    | 0x24 =>
      if w.extractLsb' 0 41 = 0 then
        some (.div c (w.extractLsb' 51 5) (w.extractLsb' 46 5) (w.extractLsb' 41 5))
      else none
    | 0x25 =>
      if w.extractLsb' 0 41 = 0 then
        some (.divu c (w.extractLsb' 51 5) (w.extractLsb' 46 5) (w.extractLsb' 41 5))
      else none
    | 0x26 =>
      if w.extractLsb' 0 41 = 0 then
        some (.rem c (w.extractLsb' 51 5) (w.extractLsb' 46 5) (w.extractLsb' 41 5))
      else none
    | 0x27 =>
      if w.extractLsb' 0 41 = 0 then
        some (.remu c (w.extractLsb' 51 5) (w.extractLsb' 46 5) (w.extractLsb' 41 5))
      else none
    | 0x30 =>
      if w.extractLsb' 0 41 = 0 then
        some (.fadd c (w.extractLsb' 51 5) (w.extractLsb' 46 5) (w.extractLsb' 41 5))
      else none
    | 0x31 =>
      if w.extractLsb' 0 41 = 0 then
        some (.fsub c (w.extractLsb' 51 5) (w.extractLsb' 46 5) (w.extractLsb' 41 5))
      else none
    | 0x32 =>
      if w.extractLsb' 0 41 = 0 then
        some (.fmul c (w.extractLsb' 51 5) (w.extractLsb' 46 5) (w.extractLsb' 41 5))
      else none
    | 0x33 =>
      if w.extractLsb' 0 41 = 0 then
        some (.fmin c (w.extractLsb' 51 5) (w.extractLsb' 46 5) (w.extractLsb' 41 5))
      else none
    | 0x34 =>
      if w.extractLsb' 0 41 = 0 then
        some (.fmax c (w.extractLsb' 51 5) (w.extractLsb' 46 5) (w.extractLsb' 41 5))
      else none
    | 0x35 =>
      if w.extractLsb' 0 41 = 0 then
        some (.fcvtsw c (w.extractLsb' 51 5) (w.extractLsb' 46 5) (w.extractLsb' 41 5))
      else none
    | 0x36 =>
      if w.extractLsb' 0 41 = 0 then
        some (.fcvtws c (w.extractLsb' 51 5) (w.extractLsb' 46 5) (w.extractLsb' 41 5))
      else none
    | 0x38 =>
      if w.extractLsb' 0 41 = 0 then
        some (.feq c (w.extractLsb' 51 5) (w.extractLsb' 46 5) (w.extractLsb' 41 5))
      else none
    | 0x39 =>
      if w.extractLsb' 0 41 = 0 then
        some (.flt c (w.extractLsb' 51 5) (w.extractLsb' 46 5) (w.extractLsb' 41 5))
      else none
    | 0x3A =>
      if w.extractLsb' 0 41 = 0 then
        some (.fle c (w.extractLsb' 51 5) (w.extractLsb' 46 5) (w.extractLsb' 41 5))
      else none
    | 0x3C =>
      if w.extractLsb' 0 41 = 0 then
        some (.fmvsx c (w.extractLsb' 51 5) (w.extractLsb' 46 5) (w.extractLsb' 41 5))
      else none
    | 0x3D =>
      if w.extractLsb' 0 41 = 0 then
        some (.fmvxs c (w.extractLsb' 51 5) (w.extractLsb' 46 5) (w.extractLsb' 41 5))
      else none
    | 0x3E =>
      if w.extractLsb' 32 14 = 0 then
        some (.fli c (w.extractLsb' 51 5) (w.extractLsb' 46 5) (w.extractLsb' 0 32))
      else none
    | 0x40 =>
      if w.extractLsb' 32 14 = 0 then
        some (.lw c (w.extractLsb' 51 5) (w.extractLsb' 46 5) (w.extractLsb' 0 32))
      else none
    | 0x42 =>
      if w.extractLsb' 32 14 = 0 then
        some (.flw c (w.extractLsb' 51 5) (w.extractLsb' 46 5) (w.extractLsb' 0 32))
      else none
    | 0x41 =>
      if w.extractLsb' 32 14 = 0 then
        some (.sw c (w.extractLsb' 51 5) (w.extractLsb' 46 5) (w.extractLsb' 0 32))
      else none
    | 0x43 =>
      if w.extractLsb' 32 14 = 0 then
        some (.fsw c (w.extractLsb' 51 5) (w.extractLsb' 46 5) (w.extractLsb' 0 32))
      else none
    | 0x48 => if w.extractLsb' 12 39 = 0 then some (.mfc c (w.extractLsb' 51 5) (w.extractLsb' 0 12)) else none
    | 0x49 => if w.extractLsb' 12 39 = 0 then some (.mtc c (w.extractLsb' 51 5) (w.extractLsb' 0 12)) else none
    | 0x50 =>
      if w.extractLsb' 11 34 = 0 then
        some (.beq c (w.extractLsb' 51 5) (w.extractLsb' 46 5) (w.getLsbD 45) (w.extractLsb' 0 11))
      else none
    | 0x51 =>
      if w.extractLsb' 11 34 = 0 then
        some (.bne c (w.extractLsb' 51 5) (w.extractLsb' 46 5) (w.getLsbD 45) (w.extractLsb' 0 11))
      else none
    | 0x52 =>
      if w.extractLsb' 11 34 = 0 then
        some (.blt c (w.extractLsb' 51 5) (w.extractLsb' 46 5) (w.getLsbD 45) (w.extractLsb' 0 11))
      else none
    | 0x53 =>
      if w.extractLsb' 11 34 = 0 then
        some (.bge c (w.extractLsb' 51 5) (w.extractLsb' 46 5) (w.getLsbD 45) (w.extractLsb' 0 11))
      else none
    | 0x54 =>
      if w.extractLsb' 11 34 = 0 then
        some (.bltu c (w.extractLsb' 51 5) (w.extractLsb' 46 5) (w.getLsbD 45) (w.extractLsb' 0 11))
      else none
    | 0x55 =>
      if w.extractLsb' 11 34 = 0 then
        some (.bgeu c (w.extractLsb' 51 5) (w.extractLsb' 46 5) (w.getLsbD 45) (w.extractLsb' 0 11))
      else none
    | 0x58 =>
      if w.extractLsb' 11 34 = 0 then
        some (.j c (w.extractLsb' 51 5) (w.extractLsb' 46 5) (w.getLsbD 45) (w.extractLsb' 0 11))
      else none
    | 0x59 =>
      if w.extractLsb' 11 34 = 0 then
        some (.jal c (w.extractLsb' 51 5) (w.extractLsb' 46 5) (w.getLsbD 45) (w.extractLsb' 0 11))
      else none
    | 0x5A =>
      if w.extractLsb' 11 34 = 0 then
        some (.jr c (w.extractLsb' 51 5) (w.extractLsb' 46 5) (w.getLsbD 45) (w.extractLsb' 0 11))
      else none
    | 0x60 =>
      if w.extractLsb' 31 18 = 0 then
        some (.loop c (w.extractLsb' 51 5) (w.getLsbD 50) (w.getLsbD 49) (w.extractLsb' 11 20) (w.extractLsb' 0 11))
      else none
    | 0x6F => if w.extractLsb' 0 56 = 0 then some (.halt c) else none
    | 0x70 =>
      if w.extractLsb' 26 30 = 0 ∧ w.extractLsb' 7 9 = 0 then
        some (.ovl c (w.extractLsb' 16 10) (w.extractLsb' 0 7))
      else none
    | _ => none

/-- The instruction that the bits of the T slot (Tables 5.5, 5.6) spell; none for an undefined opcode or a reserved bit that is 1
(R55). -/
def decodeT (c : CellRef) (w : BitVec 48) : Option Instr :=
  if w = 0 then some (.nop c .T)
  else
    match (w.extractLsb' 42 6).toNat with
    | 0x01 =>
      if w.extractLsb' 0 18 = 0 then
        some (.tpass c (w.extractLsb' 39 3) (w.extractLsb' 35 4) (w.extractLsb' 31 4) (w.getLsbD 30) (w.extractLsb' 28 2) (w.extractLsb' 18 10))
      else none
    | 0x02 =>
      if w.extractLsb' 0 23 = 0 then
        some (.wld c (w.extractLsb' 37 5) (w.extractLsb' 27 10) (w.extractLsb' 25 2) (w.getLsbD 24) (w.getLsbD 23))
      else none
    | 0x03 =>
      if w.extractLsb' 24 2 = 0 ∧ w.extractLsb' 0 23 = 0 then
        some (.opld c (w.extractLsb' 37 5) (w.extractLsb' 27 10) (w.getLsbD 26) (w.getLsbD 23))
      else none
    | 0x04 =>
      if w.extractLsb' 0 21 = 0 then
        some (.scld c (w.extractLsb' 37 5) (w.extractLsb' 27 10) (w.extractLsb' 24 3) (w.extractLsb' 21 3))
      else none
    | 0x05 =>
      if w.extractLsb' 0 25 = 0 then
        some (.tdrain c (w.extractLsb' 40 2) (w.extractLsb' 36 4) (w.extractLsb' 31 5) (w.extractLsb' 27 4) (w.getLsbD 26) (w.getLsbD 25))
      else none
    | 0x06 => if w.extractLsb' 0 38 = 0 then some (.tclr c (w.extractLsb' 38 4)) else none
    | _ => none

/-- The instruction that the bits of the V slot (Tables 6.9, 6.10, 12.5) spell; none for an undefined opcode or a reserved bit that is 1
(R55). -/
def decodeV (c : CellRef) (w : BitVec 64) : Option Instr :=
  if w = 0 then some (.nop c .V)
  else
    match (w.extractLsb' 58 6).toNat with
    | 0x01 =>
      if w.extractLsb' 0 32 = 0 then
        some (.vchain c (w.extractLsb' 55 3) (w.extractLsb' 51 4) (w.extractLsb' 46 5) (w.extractLsb' 41 5) (w.extractLsb' 37 4) (w.extractLsb' 32 5))
      else none
    | 0x02 =>
      if w.extractLsb' 0 29 = 0 then
        some (.vld c (w.extractLsb' 53 5) (w.extractLsb' 43 10) (w.extractLsb' 39 4) (w.extractLsb' 35 4) (w.extractLsb' 30 5) (w.getLsbD 29))
      else none
    | 0x03 =>
      if w.extractLsb' 0 29 = 0 then
        some (.vst c (w.extractLsb' 53 5) (w.extractLsb' 43 10) (w.extractLsb' 39 4) (w.extractLsb' 35 4) (w.extractLsb' 30 5) (w.getLsbD 29))
      else none
    | 0x04 =>
      if w.extractLsb' 0 27 = 0 then
        some (.vred c (w.extractLsb' 55 3) (w.getLsbD 54) (w.extractLsb' 50 4) (w.extractLsb' 45 5) (w.extractLsb' 40 5) (w.extractLsb' 36 4) (w.extractLsb' 31 5) (w.extractLsb' 28 3) (w.getLsbD 27))
      else none
    | 0x05 =>
      if w.extractLsb' 0 33 = 0 then
        some (.vreds c (w.extractLsb' 55 3) (w.extractLsb' 50 5) (w.extractLsb' 46 4) (w.extractLsb' 41 5) (w.extractLsb' 38 3) (w.getLsbD 37) (w.extractLsb' 33 4))
      else none
    | 0x08 =>
      if w.extractLsb' 0 39 = 0 then
        some (.vxacc c (w.getLsbD 57) (w.extractLsb' 53 4) (w.extractLsb' 48 5) (w.extractLsb' 43 5) (w.extractLsb' 40 3) (w.getLsbD 39))
      else none
    | 0x09 =>
      if w.extractLsb' 0 42 = 0 then
        some (.vxdrain c (w.getLsbD 57) (w.extractLsb' 53 4) (w.extractLsb' 48 5) (w.extractLsb' 43 5) (w.getLsbD 42))
      else none
    | 0x0A =>
      if w.extractLsb' 0 44 = 0 then
        some (.vxmerge c (w.extractLsb' 54 4) (w.extractLsb' 49 5) (w.extractLsb' 44 5))
      else none
    | 0x0B => if w.extractLsb' 0 58 = 0 then some (.vxclr c) else none
    | 0x0C =>
      if w.extractLsb' 0 46 = 0 then
        some (.vmset c (w.extractLsb' 55 3) (w.extractLsb' 53 2) (w.extractLsb' 46 7))
      else none
    | 0x0D =>
      if w.extractLsb' 0 47 = 0 then
        some (.vmop c (w.extractLsb' 55 3) (w.extractLsb' 52 3) (w.extractLsb' 49 3) (w.extractLsb' 47 2))
      else none
    | 0x30 =>
      if w.extractLsb' 0 37 = 0 then
        some (.afrexp c (w.extractLsb' 55 3) (w.extractLsb' 51 4) (w.extractLsb' 46 5) (w.extractLsb' 41 5) (w.extractLsb' 38 3) (w.getLsbD 37))
      else none
    | 0x31 =>
      if w.extractLsb' 0 33 = 0 then
        some (.afrxsend c (w.extractLsb' 55 3) (w.extractLsb' 47 8) (w.extractLsb' 33 14))
      else none
    | 0x32 =>
      if w.extractLsb' 0 27 = 0 then
        some (.afrcvt c (w.extractLsb' 55 3) (w.extractLsb' 51 4) (w.extractLsb' 46 5) (w.extractLsb' 41 5) (w.extractLsb' 31 10) (w.extractLsb' 28 3) (w.getLsbD 27))
      else none
    | 0x33 =>
      if w.extractLsb' 0 8 = 0 then
        some (.afrsend c (w.extractLsb' 55 3) (w.extractLsb' 47 8) (w.extractLsb' 33 14) (w.extractLsb' 28 5) (w.extractLsb' 18 10) (w.extractLsb' 8 10))
      else none
    | 0x34 =>
      if w.extractLsb' 0 10 = 0 then
        some (.afradd c (w.extractLsb' 55 3) (w.extractLsb' 50 5) (w.extractLsb' 40 10) (w.extractLsb' 35 5) (w.extractLsb' 25 10) (w.extractLsb' 20 5) (w.extractLsb' 10 10))
      else none
    | 0x35 =>
      if w.extractLsb' 0 31 = 0 then
        some (.afrfin c (w.extractLsb' 55 3) (w.extractLsb' 50 5) (w.extractLsb' 40 10) (w.extractLsb' 36 4) (w.extractLsb' 31 5))
      else none
    | 0x36 => if w.extractLsb' 0 55 = 0 then some (.afrend c (w.extractLsb' 55 3)) else none
    | _ => none

/-- The instruction that the bits of the M0 or M1 slot (Tables 7.4, 7.5) spell; none for an undefined opcode or a reserved bit that is 1
(R55). -/
def decodeM (c : CellRef) (m : Bool) (w : BitVec 32) : Option Instr :=
  if w = 0 then some (.nop c (if m then .M1 else .M0))
  else
    match (w.extractLsb' 26 6).toNat with
    | 0x01 =>
      if w.extractLsb' 0 12 = 0 then
        some (.sgo c m (w.extractLsb' 22 4) (w.extractLsb' 17 5) (w.extractLsb' 12 5))
      else none
    | 0x02 =>
      if w.extractLsb' 0 10 = 0 then
        some (.sarm c m (w.extractLsb' 22 4) (w.extractLsb' 17 5) (w.extractLsb' 12 5) (w.getLsbD 11) (w.getLsbD 10))
      else none
    | 0x03 => if w.extractLsb' 0 21 = 0 then some (.sstop c m (w.extractLsb' 22 4) (w.getLsbD 21)) else none
    | _ => none

/-- The instruction that the bits of the Q slot (Table 10.5) spell; none for an undefined opcode or a reserved bit that is 1
(R55). -/
def decodeQ (c : CellRef) (w : BitVec 16) : Option Instr :=
  if w = 0 then some (.nop c .Q)
  else
    match (w.extractLsb' 12 4).toNat with
    | 0x01 => some (.wait c (w.extractLsb' 6 6) (w.extractLsb' 0 6))
    | 0x02 => if w.extractLsb' 0 1 = 0 then some (.waitr c (w.extractLsb' 6 6) (w.extractLsb' 1 5)) else none
    | 0x03 => some (.post c (w.extractLsb' 6 6) (w.extractLsb' 0 6))
    | 0x04 => if w.extractLsb' 0 1 = 0 then some (.sigsend c (w.extractLsb' 6 6) (w.extractLsb' 1 5)) else none
    | 0x05 => if w.extractLsb' 0 9 = 0 then some (.bar c (w.extractLsb' 9 3)) else none
    | 0x06 => if w.extractLsb' 0 4 = 0 then some (.rejoin c (w.extractLsb' 9 3) (w.extractLsb' 4 5)) else none
    | 0x07 => if w.extractLsb' 0 12 = 0 then some (.lopen c) else none
    | 0x08 => some (.qput c (w.extractLsb' 7 5) (w.extractLsb' 0 7))
    | 0x09 => if w.extractLsb' 0 2 = 0 then some (.qsend c (w.extractLsb' 7 5) (w.extractLsb' 2 5)) else none
    | 0x0A => if w.extractLsb' 0 6 = 0 then some (.qrecv c (w.getLsbD 11) (w.extractLsb' 6 5)) else none
    | 0x0B => if w.extractLsb' 0 11 = 0 then some (.qpop c (w.getLsbD 11)) else none
    | 0x0C => if w.extractLsb' 0 7 = 0 then some (.qres c (w.extractLsb' 7 5)) else none
    | _ => none

/-- The six slots of a course (Table 3.1), in the priority order of R56: bits of each slot. -/
def courseS (x : Course) : BitVec 64 := x.extractLsb' 192 64
def courseT (x : Course) : BitVec 48 := x.extractLsb' 144 48
def courseV (x : Course) : BitVec 64 := x.extractLsb' 80 64
def courseM0 (x : Course) : BitVec 32 := x.extractLsb' 48 32
def courseM1 (x : Course) : BitVec 32 := x.extractLsb' 16 32
def courseQ (x : Course) : BitVec 16 := x.extractLsb' 0 16

/-- Each slot of a course with its bits and the instruction it spells, if any. -/
def decodeCourse (c : CellRef) (x : Course) : List (Slot × DWord × Option Instr) :=
  [(.S, courseS x, decodeS c (courseS x)),
   (.T, (courseT x).setWidth 64, decodeT c (courseT x)),
   (.V, courseV x, decodeV c (courseV x)),
   (.M0, (courseM0 x).setWidth 64, decodeM c false (courseM0 x)),
   (.M1, (courseM1 x).setWidth 64, decodeM c true (courseM1 x)),
   (.Q, (courseQ x).setWidth 64, decodeQ c (courseQ x))]

/-- The slot of a slot instruction. -/
def slotOf : Instr → Option Slot
  | .nop _ sl => some sl
  | .add .. => some .S
  | .sub .. => some .S
  | .and .. => some .S
  | .or .. => some .S
  | .xor .. => some .S
  | .sll .. => some .S
  | .srl .. => some .S
  | .sra .. => some .S
  | .slt .. => some .S
  | .sltu .. => some .S
  | .min .. => some .S
  | .max .. => some .S
  | .minu .. => some .S
  | .maxu .. => some .S
  | .addi .. => some .S
  | .andi .. => some .S
  | .ori .. => some .S
  | .xori .. => some .S
  | .slli .. => some .S
  | .srli .. => some .S
  | .srai .. => some .S
  | .slti .. => some .S
  | .sltiu .. => some .S
  | .li .. => some .S
  | .mul .. => some .S
  | .mulh .. => some .S
  | .mulhu .. => some .S
  | .div .. => some .S
  | .divu .. => some .S
  | .rem .. => some .S
  | .remu .. => some .S
  | .fadd .. => some .S
  | .fsub .. => some .S
  | .fmul .. => some .S
  | .fmin .. => some .S
  | .fmax .. => some .S
  | .fcvtsw .. => some .S
  | .fcvtws .. => some .S
  | .feq .. => some .S
  | .flt .. => some .S
  | .fle .. => some .S
  | .fmvsx .. => some .S
  | .fmvxs .. => some .S
  | .fli .. => some .S
  | .lw .. => some .S
  | .flw .. => some .S
  | .sw .. => some .S
  | .fsw .. => some .S
  | .mfc .. => some .S
  | .mtc .. => some .S
  | .beq .. => some .S
  | .bne .. => some .S
  | .blt .. => some .S
  | .bge .. => some .S
  | .bltu .. => some .S
  | .bgeu .. => some .S
  | .j .. => some .S
  | .jal .. => some .S
  | .jr .. => some .S
  | .loop .. => some .S
  | .halt .. => some .S
  | .ovl .. => some .S
  | .tpass .. => some .T
  | .wld .. => some .T
  | .opld .. => some .T
  | .scld .. => some .T
  | .tdrain .. => some .T
  | .tclr .. => some .T
  | .vchain .. => some .V
  | .vld .. => some .V
  | .vst .. => some .V
  | .vred .. => some .V
  | .vreds .. => some .V
  | .vxacc .. => some .V
  | .vxdrain .. => some .V
  | .vxmerge .. => some .V
  | .vxclr .. => some .V
  | .vmset .. => some .V
  | .vmop .. => some .V
  | .afrexp .. => some .V
  | .afrxsend .. => some .V
  | .afrcvt .. => some .V
  | .afrsend .. => some .V
  | .afradd .. => some .V
  | .afrfin .. => some .V
  | .afrend .. => some .V
  | .wait .. => some .Q
  | .waitr .. => some .Q
  | .post .. => some .Q
  | .sigsend .. => some .Q
  | .bar .. => some .Q
  | .rejoin .. => some .Q
  | .lopen .. => some .Q
  | .qput .. => some .Q
  | .qsend .. => some .Q
  | .qrecv .. => some .Q
  | .qpop .. => some .Q
  | .qres .. => some .Q
  | .sgo _ m .. => some (if m then .M1 else .M0)
  | .sarm _ m .. => some (if m then .M1 else .M0)
  | .sstop _ m .. => some (if m then .M1 else .M0)
  | _ => none

end Sys2Proof
end

