-- ==== Sys2Proof/Machine/State.lean ====
section
/-!
DEFINITION. Sys2Proof/Machine/State.lean: everything the spec gives the module to hold, as plain data, and its value at
the start of stage S0.

Each structure is one part of the module; its comment names the rules that give it. Memories and tables are those of
Machine/Mem.lean. Cycles are schedule cycles, cycles of a cell, core clock cycles or dome counts, as the comment says.
-/
namespace Sys2Proof.Machine

/-! ### The cell: control and scalar processor (chapter 03) -/

/-- A record of CELL_SLOTLOG0 to CELL_SLOTLOG3 (Table 3.4). -/
structure SlotLog where
  bits : DWord
  stamp : Nat
  addr : BitVec 11
  slot : Nat
  reason : Nat
  free : Bool
  deriving DecidableEq, Repr

/-- An entry of the loop stack (R75). -/
structure LoopEntry where
  first : BitVec 11
  last : BitVec 11
  remaining : Nat
  deriving DecidableEq, Repr

/-- The waits of R233, with what they wait for. -/
inductive Wait where
  | sig (k : BitVec 6) (n : Nat)
  | recv (q : Bool) (rd : BitVec 5)
  | result (rd : BitVec 5)
  deriving DecidableEq, Repr

/-- Control state of a cell. `live` says that the cell executes a course in this cycle, `issued` which of its slots
have issued; `halting` and `entering` take effect with the next course (R74, R46). -/
structure Control where
  pc : BitVec 11 := 0
  delay : Nat := 0
  target : Option (BitVec 11) := none
  zeroEnd : Option (BitVec 11) := none
  empties : Nat := 0
  loops : List LoopEntry := []
  halting : Bool := false
  halted : Bool := false
  entering : Bool := false
  free : Bool := false
  courseCtr : Nat := 0
  waiting : Option Wait := none
  rejoining : Option (Nat × Nat) := none
  live : Bool := false
  issued : List Slot := []
  /-- The fetch stage has reported an uncorrectable word (R60). -/
  reported : Bool := false
  skips : Nat := 0
  log : List SlotLog := []
  deriving DecidableEq, Repr

/-- A register that a result lands in. -/
inductive ResDst where
  | s (r : BitVec 5)
  | f (r : BitVec 5)
  deriving DecidableEq, Repr

/-- A result in flight: it lands at the end of cycle `due` (R63); `issued` and `rank` settle ties (R64). -/
structure Res where
  due : Nat
  issued : Nat
  rank : Nat
  dst : ResDst
  val : Word
  deriving DecidableEq, Repr

/-- A data-memory store in flight (R65). -/
structure Store where
  due : Nat
  idx : Nat
  val : Word
  deriving DecidableEq, Repr

/-- An overlay in flight (R61). -/
structure Overlay where
  due : Nat
  group : Nat
  row : Row
  deriving DecidableEq, Repr

/-- An MTC in flight: it takes effect at the end of its cycle (R80). -/
structure CregWrite where
  due : Nat
  creg : BitVec 12
  val : Word
  deriving DecidableEq, Repr

structure Scalar where
  s : Vector Word 32 := Vector.replicate 32 0
  f : Vector Word 16 := Vector.replicate 16 0
  divFree : Nat := 0
  res : List Res := []
  stores : List Store := []
  overlays : List Overlay := []
  cregs : List CregWrite := []
  cvtSat : Bool := false
  countClamp : Bool := false
  addrWrap : Bool := false
  div0 : Bool := false
  deriving DecidableEq, Repr

/-- What the check bits of a stored word find (R60, R197). -/
inductive WordErr where
  | good | correctable | uncorrectable
  deriving DecidableEq, Repr

/-! ### Tensor row (chapter 05) -/

/-- An accumulator (R89 to R93, R100, R118). `sel` says that a selection mode has kept a value. -/
structure Lane where
  w : BitVec 160 := 0
  res : BitVec 12 := 0
  loss : Bool := false
  ovf : Bool := false
  nan : Bool := false
  pinf : Bool := false
  ninf : Bool := false
  cnt : Nat := 0
  sel : Bool := false
  idx : Word := 0
  deriving DecidableEq, Repr

/-- What a bank latches (R114). -/
structure Latch where
  mode : Nat
  cls : FmtClass
  lsb : Int
  fmt : Nat
  deriving DecidableEq, Repr

/-- An accumulator bank; a lane that `lanes` does not list is clear (R103). -/
structure Bank where
  latch : Option Latch := none
  lanes : Mem Lane := []
  deriving DecidableEq, Repr

/-- A pass descriptor (Tables 5.13 to 5.15). -/
structure PassDesc where
  base : Word := 0
  cnt : Vector (BitVec 16) 6 := Vector.replicate 6 0
  ostr : Vector Word 6 := Vector.replicate 6 0
  wstr : Vector Word 6 := Vector.replicate 6 0
  bstr : Vector Word 6 := Vector.replicate 6 0
  deriving DecidableEq, Repr

/-- A contribution before truncation (R88): an exact sum `sum * 2^e` and the flags of R93. -/
structure Contrib where
  sum : Int := 0
  e : Int := 0
  nan : Bool := false
  pinf : Bool := false
  ninf : Bool := false
  deriving DecidableEq, Repr

/-- What one step adds to one lane: truncated contributions, their flags and number, and in the selection modes the
best candidate with its index. -/
structure LaneAdd where
  sum : Int := 0
  loss : Bool := false
  ovf : Bool := false
  nan : Bool := false
  pinf : Bool := false
  ninf : Bool := false
  cnt : Nat := 0
  best : Option (Int × Word) := none
  deriving DecidableEq, Repr

/-- Contributions in flight: they reach the bank at the end of cycle `due` (R112). -/
structure StepAdd where
  due : Nat
  bank : Nat
  latch : Latch
  lanes : List LaneAdd
  deriving DecidableEq, Repr

/-- A running pass (R112); `half` holds the partial sums of a first half block (R88, R110). -/
structure Pass where
  desc : PassDesc
  mode : Nat
  ofmt : Nat
  wfmt : Nat
  transp : Bool
  anchor : Int
  start : Nat
  done : Nat
  total : Nat
  half : Option (List Contrib)
  deriving DecidableEq, Repr

inductive LoadDst where
  | tile (slot half : Nat)
  | opbuf (b : Nat)
  | slotScale (slot : Nat)
  | opScale (b : Nat)
  deriving DecidableEq, Repr

/-- A load of the tensor row in flight (R119). -/
structure TensLoad where
  due : Nat
  dst : LoadDst
  data : Row
  deriving DecidableEq, Repr

structure Tensor where
  ob : Vector Row 2 := Vector.replicate 2 0
  obScale : Vector Course 2 := Vector.replicate 2 0
  tiles : Mem Course := []
  slotScale : Vector Codeword 4 := Vector.replicate 4 0
  banks : Vector Bank 4 := Vector.replicate 4 {}
  descs : Vector PassDesc 4 := Vector.replicate 4 {}
  obidx : Vector Word 2 := Vector.replicate 2 0
  pass : Option Pass := none
  passDesc : BitVec 2 := 0
  adds : List StepAdd := []
  loads : List TensLoad := []
  clears : List (Nat × Nat) := []
  mix : Bool := false
  align : Bool := false
  drainSat : Bool := false
  specialAny : Bool := false
  overAny : Bool := false
  lossAny : Bool := false
  deriving DecidableEq, Repr

/-! ### Vector engine (chapters 06 and 12) -/

/-- A tile write in flight: key 32 * tile register + row, the lanes written, and the order of R131. -/
structure TileWrite where
  due : Nat
  issued : Nat
  prio : Nat
  key : Nat
  lanes : Word
  data : TileRow
  deriving DecidableEq, Repr

/-- A mask write in flight: key 32 * mask register + row. -/
structure MaskWrite where
  due : Nat
  issued : Nat
  key : Nat
  bits : Word
  data : Word
  deriving DecidableEq, Repr

/-- A superaccumulator (R99). -/
structure XAcc where
  w : BitVec 320 := 0
  res : BitVec 12 := 0
  nan : Bool := false
  pinf : Bool := false
  ninf : Bool := false
  ovf : Bool := false
  cnt : Nat := 0
  deriving DecidableEq, Repr

/-- Additions to a superaccumulator in flight; `merge` marks a raw form (R148). -/
structure XAdd where
  due : Nat
  x : Nat
  sum : Int
  nan : Bool
  pinf : Bool
  ninf : Bool
  ovf : Bool
  cnt : Nat
  deriving DecidableEq, Repr

structure ChainDesc where
  ctl : Word := 0
  stg : Vector Word 8 := Vector.replicate 8 0
  deriving DecidableEq, Repr

/-- The register-file ports that V-slot instructions claim (Table 6.2). -/
inductive VPort where
  | rp0 | rp1 | rp2 | wp0 | wp1 | mw
  deriving DecidableEq, Repr

/-- A V-slot instruction in progress. Rows are read, pass their stages and leave at the cycles of R133, R141, R144,
R146, R310, R312, R314, R316 and R318. -/
inductive VecOp where
  /-- A chain: rows in progress by number, each with its running value; `slow` are the latencies of TP-1. -/
  | chain (issued : Nat) (desc : ChainDesc) (fregs : List Word) (slow : Bool) (src srow nrows dst drow : Nat)
      (rows : List (Nat × TileRow))
  | store (issued : Nat) (log : SlotLog) (fmt : Nat) (sat : Bool) (tr trow row : Nat) (got : List Nat)
  | red (issued rop : Nat) (axis : Bool) (src srow nrows dst drow mask : Nat) (minv : Bool) (got : List (TileRow × Word))
  | xacc (issued : Nat) (axis : Bool) (src srow nrows mask : Nat) (minv : Bool)
  | afrexp (issued k src srow nrows mask : Nat) (minv : Bool)
  | afrcvt (issued : Nat) (log : SlotLog) (k src srow row mask : Nat) (minv : Bool) (desc : Word) (e : Int)
      (got : List (TileRow × Word))
  | afradd (issued : Nat) (log : SlotLog) (k a b d : Nat) (got : List (Row × Row))
  | afrfin (issued k row dst drow : Nat) (desc : Word) (e : Int) (nan pinf ninf ovf : Bool) (got : List Row)
  deriving DecidableEq, Repr

/-- A bucket slot (R307): state 0 IDLE, 1 OPEN, 2 SUM. -/
structure Bucket where
  state : Nat := 0
  desc : Word := 0
  e : Int := 0
  nan : Bool := false
  pinf : Bool := false
  ninf : Bool := false
  ovf : Bool := false
  loss : Bool := false
  deriving DecidableEq, Repr

/-- Changes of a bucket slot that take effect at the end of cycle `due`. -/
inductive BktChange where
  | opened (desc : Word)
  | summing
  | closed
  | merge (e : Int) (nan pinf ninf ovf : Bool)
  | loss
  deriving DecidableEq, Repr

structure BktUpd where
  due : Nat
  k : Nat
  change : BktChange
  deriving DecidableEq, Repr

/-- The exact sum of a SUM or ISUM adder, with the residue that the adder carries for it (R100, R143). It is checked before the
result that it is part of is delivered, at the end of cycle `due`: a lane of a tile write, or with no `key` a scalar result. -/
structure NodeSum where
  due : Nat
  issued : Nat
  key : Option Nat
  lane : Nat
  sum : Int
  res : BitVec 12
  deriving DecidableEq, Repr

structure VecEngine where
  tiles : Mem TileRow := []
  masks : Mem Word := []
  x : Mem XAcc := []
  chains : Vector ChainDesc 8 := Vector.replicate 8 {}
  bktDesc : Vector Word 8 := Vector.replicate 8 0
  bkts : Vector Bucket 8 := Vector.replicate 8 {}
  claims : List (VPort × Nat) := []
  ops : List VecOp := []
  tileWrites : List TileWrite := []
  nodes : List NodeSum := []
  maskWrites : List MaskWrite := []
  xadds : List XAdd := []
  xclears : List (Nat × Option Nat) := []
  bktUpds : List BktUpd := []
  xFree : Nat := 0
  rawBad : Bool := false
  wclash : Bool := false
  cvtOvf : Bool := false
  cvtSat : Bool := false
  deriving DecidableEq, Repr

/-! ### Scratchpad (chapter 08) -/

/-- The residue that an adder of aligned fixed reduction carries for bits `pos` to `pos + width - 1` of the row that it writes
(R100, R314). -/
structure ResCheck where
  lane : Nat
  pos : Nat
  width : Nat
  signed : Bool
  res : BitVec 12
  deriving DecidableEq, Repr

/-- A row on its way to the scratchpad of cell `cell` of the same context. `own` rows count the cell's own cycles
(R48), the others schedule cycles. `rank`, `issued` and `tie` decide the bank contest (R190, R191); `src` is the SOURCE
of Table 8.15. `sig` and `bytes` are what lands under a signal's number (R230). A row with a variable part is checked
for presence; `present` says that its data is there (R29, R30). `course` describes the V-slot instruction that a lost
landing is logged against (R192), `bucket` the slot whose OVER it sets (R315) or the slot and tag a DATA message names
(R313). -/
structure Landing where
  due : Nat
  own : Bool
  cell : CellId
  row : Nat
  data : Row
  rank : Nat
  issued : Nat
  tie : Nat
  src : Nat
  sig : Option (BitVec 6) := none
  bytes : Nat := 0
  present : Bool := true
  checked : Bool := true
  id : Nat := 0
  course : Option SlotLog := none
  bucket : Option (Nat × Word) := none
  ovf : Bool := false
  checks : List ResCheck := []
  deriving DecidableEq, Repr

/-- A signal arrival on its way (Table 10.1): to signal `sig` of `cell`, adding `n` to COUNT and `bytes` to
ANNOUNCED at the end of cycle `due`. -/
structure Arrival where
  due : Nat
  own : Bool
  cell : CellId
  sig : BitVec 6
  n : Nat
  bytes : Nat
  deriving DecidableEq, Repr

/-- Bytes that land under a signal's number without a scratchpad row: HBM and host destinations (R230). -/
structure ByteLanding where
  due : Nat
  cell : CellId
  sig : BitVec 6
  bytes : Nat
  deriving DecidableEq, Repr

/-- A running FILL or COPY (R193). -/
structure Mop where
  copy : Bool
  src : Nat
  dst : Nat
  count : Nat
  const : Word
  sig : Word
  issued : Nat
  read : Nat
  lastDue : Nat
  deriving DecidableEq, Repr

/-- A record of SPAD_LOSSLOG (Table 8.15). -/
structure LossLog where
  due : Nat
  row : Nat
  rank : Nat
  winner : Nat
  src : Nat
  deriving DecidableEq, Repr

structure Scratchpad where
  rows : Mem Row := []
  errs : Mem WordErr := []
  claims : List (Nat × Nat) := []
  mop : Option Mop := none
  mopConst : Word := 0
  mopSig : Word := 0
  ceCount : Nat := 0
  firstRow : Nat := 0
  firstWord : Nat := 0
  ce : Bool := false
  reject : Bool := false
  loss : Bool := false
  starve : Bool := false
  lossCount : Nat := 0
  lossLog : List LossLog := []
  deriving DecidableEq, Repr

/-! ### Stream movers (chapter 07) -/

/-- The registers of one descriptor (Tables 7.11 to 7.17). -/
structure Desc where
  ctl : Word := 0
  sbase : Word := 0
  dbase : Word := 0
  dpeer : Word := 0
  cnt01 : Word := 0
  cnt23 : Word := 0
  cnt45 : Word := 0
  sstr : Vector Word 6 := Vector.replicate 6 0
  dstr : Vector Word 6 := Vector.replicate 6 0
  sig : Word := 0
  aux : Word := 0
  deriving DecidableEq, Repr

/-- A row of a beat that has been planned and has not issued: beat (from the stream's first run on), beat within its
run, run, row of the beat, planned cycle, and its addresses without an index. -/
structure ReadyRow where
  beat : Nat
  i : Nat
  run : Nat
  j : Nat
  planned : Nat
  src : Int
  dst : Int
  deriving DecidableEq, Repr

/-- An index row that has been read: 128 indexes of a run, and by how many cycles the read was late (R164). -/
structure IdxBlock where
  run : Nat
  block : Nat
  delay : Nat
  data : Row
  deriving DecidableEq, Repr

/-- A destination row being filled by packed beats (R161); `gids` are the groups of its elements. -/
structure Pack where
  id : Nat
  run : Nat
  /-- Which group of 512 / ESIZE consecutive beats of its run fills the row (R161). -/
  part : Nat
  row : Nat
  data : Row
  got : Nat
  bytes : Nat
  due : Nat
  issued : Nat
  planned : Nat
  tie : Nat
  gids : List (Nat × Nat)
  lost : Bool
  deriving DecidableEq, Repr

/-- A group of beats that sends one signal (R172): rows not yet issued, rows issued whose landing is not yet settled,
rows issued, bytes covered, latest due cycle of its landings and writes, latest due cycle that any row of it has or would
have had, latest source cycle, planned cycle of its last row, whether a row of the link has
carried its arrival, whether its source signal is sent, and rows of a loose stream whose data has not come yet (R173). -/
structure Group where
  run : Nat
  g : Nat
  left : Nat
  opened : Nat := 0
  issued : Nat := 0
  bytes : Nat := 0
  due : Nat := 0
  late : Nat := 0
  srcDue : Nat := 0
  lastPlanned : Nat
  carried : Bool := false
  ssent : Bool := false
  unread : Nat := 0
  deriving DecidableEq, Repr

/-- A loose row that is outstanding (R170): its number, group, source and destination addresses, data, the bytes that
land, whether it is under way (0), waiting to land in this cell (1), acknowledged (2) or part of a packed row that has not
landed (3), how many acknowledgements are still to come, and the packed row that it is part of. -/
structure LooseOut where
  row : Nat
  run : Nat
  /-- The beat of the run. -/
  i : Nat
  g : Nat
  src : Int
  dst : Int
  data : Row
  bytes : Nat
  stage : Nat
  need : Nat
  pack : Option Nat := none
  /-- The host address, from the window as it stands at the issue (Table 13.8). -/
  addr : Nat := 0
  /-- A host access that could not be issued (R438). -/
  stuck : Bool := false
  deriving DecidableEq, Repr

/-- A host read of a loose row whose completion is still to come, with its PCIe tag (R364, R438). -/
structure HostTag where
  /-- The port of the request. -/
  host : Fin 2
  tag : Nat
  ctx : Fin 32
  cell : CellId
  d : Nat
  row : Nat
  deriving DecidableEq, Repr

/-- An active stream. `sb` and `db` are the effective bases in bytes of the run in progress; `run` counts runs;
`nextBeat` is the first beat that is not planned yet. -/
structure Stream where
  desc : Desc
  mover : Bool
  issued : Nat
  sb : Nat
  db : Nat
  run : Nat := 0
  nextBeat : Nat := 0
  ready : List ReadyRow := []
  idx : List IdxBlock := []
  /-- Index rows still to be read: run, block, first cycle of the request. -/
  idxPending : List (Nat × Nat × Nat) := []
  stopping : Bool := false
  packs : List Pack := []
  groups : List Group := []
  /-- Identities of HBM units in progress, by beat. -/
  units : Mem Nat := []
  outstanding : List LooseOut := []
  deriving DecidableEq, Repr

/-- What stays with a descriptor between streams (Tables 7.18, 7.19, R177). -/
structure DescState where
  shadow : Option (Word × Word) := none
  shadowRegs : Word × Word := (0, 0)
  lastBases : Option (Word × Word) := none
  mover : Bool := false
  deferred : Nat := 0
  lost : Nat := 0
  deriving DecidableEq, Repr

structure Movers where
  dsel : BitVec 4 := 0
  descs : Vector Desc 16 := Vector.replicate 16 {}
  st : Vector DescState 16 := Vector.replicate 16 {}
  streams : Mem Stream := []
  /-- SGO, SARM and SSTOP effects at the end of a cycle: shadow writes and emptyings (due, descriptor, contents), and
  stops (due, descriptor, NOW). -/
  shadowSets : List (Nat × Nat × Option (Word × Word)) := []
  ends : List (Nat × Nat × Bool) := []
  /-- Streams that are idle and still have rows outstanding or packed rows to send. -/
  orphans : List (Nat × Stream) := []
  nextRow : Nat := 0
  claims : List Nat := []
  /-- Descriptors that an SGO of this cycle has started: checks of units see the end of the last cycle (R56). -/
  started : List Nat := []
  piped : List Bool := []
  /-- The last schedule cycle lay in a free-running section (R179). -/
  section_ : Bool := false
  range : Bool := false
  lostAny : Bool := false
  defer : Bool := false
  deriving DecidableEq, Repr

/-! ### HBM traffic of a cell (R167, R206, R207) -/

/-- One row or element read from HBM on its way (R167): `id` names the 2 KiB unit whose data it belongs to; the bytes go
to bit position `pos` of the row that lands under `landing`. `cmd` is the command cycle of the unit where this is its
first row, `placed` the cycle at which the controller places that command; `data` is what the sample read, `present`
says that the unit's data has come. -/
structure HbmRead where
  id : Nat
  cell : CellId
  issued : Nat
  cmd : Option Nat
  sample : Nat
  due : Nat
  addr : Nat
  len : Nat
  mover : Bool
  d : Nat
  placed : Option Nat := none
  data : Option Row := none
  present : Bool
  pos : Nat
  landing : Nat
  deriving DecidableEq, Repr

/-- One row or element written to HBM on its way; `cmd` is the command cycle of its unit where this is the unit's last
row. -/
structure HbmWrite where
  cell : CellId
  issued : Nat
  cmd : Option Nat
  due : Nat
  addr : Nat
  len : Nat
  data : Row
  mover : Bool
  d : Nat
  placed : Option Nat := none
  sig : Option (BitVec 6)
  deriving DecidableEq, Repr

/-! ### Signals, queues (chapter 10) -/

structure Sig where
  count : Nat := 0
  ann : Nat := 0
  land : Nat := 0
  deriving DecidableEq, Repr

/-- The source of a message (Table 10.14, QUE_SRCq). -/
structure Source where
  route : Byte
  comb : Bool
  id : BitVec 14
  deriving DecidableEq, Repr

/-- An entry of a message table (R246); a skip marker has no tag and is never visible. `left` counts the rows that
have not been written yet. -/
structure QEntry where
  marker : Bool
  first : Nat
  rows : Nat
  tag : BitVec 16
  src : Source
  left : Nat
  visible : Bool
  deriving DecidableEq, Repr

structure Queue where
  ring : Word := 0
  head : Nat := 0
  tail : Nat := 0
  used : Nat := 0
  table : List QEntry := []
  srcReg : Word := 0
  accepted : Nat := 0
  popped : Nat := 0
  deriving DecidableEq, Repr

/-- A send whose result QRES has not taken (R249), with its target register. -/
structure SendRec where
  seq : Nat
  tag : BitVec 16
  target : Word
  result : Option (BitVec 2)
  deriving DecidableEq, Repr

/-! ### Traffic of a context -/

/-- Where the result of a message, or the acknowledgement of a loose row, goes back to. -/
inductive Reply where
  | none
  /-- A sending cell of context number `n` on this module, with the number of its send (R249). -/
  | cell (n : Nat) (id : CellId) (seq : Nat)
  /-- Combining queue `q` of a logical region (R258). -/
  | comb (n : Nat) (region q : Nat)
  /-- A sender on another module: the route of the result (0: one hop back on `port`), and the fields of R249. -/
  | link (port route : Nat) (id : CellId) (tag : BitVec 16) (seq : Nat)
  /-- A loose row of descriptor `d` of a cell of context `n` (R170). -/
  | loose (n : Nat) (id : CellId) (d row : Nat)
  deriving DecidableEq, Repr

/-- A message in the receive stage of a cell (R251): not yet processed, or accepted with rows still to be written from
row `ringRow` on. -/
structure StagedMsg where
  q : Bool
  tag : BitVec 16
  src : Source
  rows : List Row
  reply : Reply
  accepted : Bool
  ringRow : Nat
  deriving DecidableEq, Repr

/-- A loose row that has arrived in a cell and waits for an idle write access (Table 8.2, rank 7). -/
structure LooseRow where
  row : Nat
  data : Row
  sig : Option (BitVec 6)
  bytes : Nat
  reply : Reply
  deriving DecidableEq, Repr

structure Sync where
  sigs : Mem Sig := []
  sigsel : BitVec 6 := 0
  barA : Vector Word 8 := Vector.replicate 8 0
  barB : Vector Word 8 := Vector.replicate 8 0
  consumes : List (Nat × BitVec 6 × Nat) := []
  queues : Vector Queue 2 := Vector.replicate 2 {}
  nackLimit : Byte := 0
  cfgReject : Bool := false
  stage : List Row := []
  sends : List SendRec := []
  nextSend : Nat := 0
  nackrun : Nat := 0
  acked : Nat := 0
  epoch : Word := 0
  lastNack : Option Word := none
  pops : List (Nat × Bool) := []
  received : List StagedMsg := []
  looseRows : List LooseRow := []
  deriving DecidableEq, Repr

/-- A logical cell of a context. `now` counts the cycles the cell has executed: schedule cycles, and the core clock
cycles of an OVERRUN hold that it spends in a free-running section. `imem` is keyed by course, `dmem` by word,
`imemErr` and `dmemErr` by 64-bit word. -/
structure Cell where
  now : Nat := 0
  /-- The cell has begun cycle `now` and not ended it. -/
  begun : Bool := false
  id : CellId := 0
  imem : Mem Course := []
  dmem : Mem Word := []
  imemErr : Mem WordErr := []
  dmemErr : Mem WordErr := []
  ctl : Control := {}
  sc : Scalar := {}
  tens : Tensor := {}
  vec : VecEngine := {}
  spad : Scratchpad := {}
  strm : Movers := {}
  sync : Sync := {}
  deriving DecidableEq, Repr

/-- A loose item travelling on the module (R48, R230, R248, R254). -/
inductive Loose where
  | row (n : Nat) (cell : CellId) (r : LooseRow)
  | signal (n : Nat) (cell : CellId) (sig : BitVec 6) (bytes : Nat)
  | qmsg (n : Nat) (cell : CellId) (m : StagedMsg)
  | contrib (n region q : Nat) (src : Source) (rows : List Row) (reply : Reply)
  | result (goal : Reply) (res : BitVec 2)
  deriving DecidableEq, Repr

/-- A scheduled link row or REDUCE message that a cell issued in a slot cycle of its pair (R168, R287, R313). -/
structure LinkRow where
  cycle : Nat
  route : Nat
  cell : CellId
  mtype : BitVec 6
  arg0 : DWord
  arg1 : DWord
  data : Row
  deriving DecidableEq, Repr

/-- An arrival that travels in the first VACANT flit at or after a cycle (R172). -/
structure VacArrival where
  route : Nat
  cell : CellId
  after : Nat
  dest : CellId
  sig : BitVec 6
  bytes : Nat
  deriving DecidableEq, Repr

/-- A scheduled instance that has arrived in a port's landing buffer (R288): half-rows, or a VACANT flit. -/
structure Instance where
  port : Nat
  route : Nat
  due : Nat
  mtype : BitVec 6
  half0 : Option (DWord × BitVec 2048)
  half1 : Option (DWord × BitVec 2048)
  deriving DecidableEq, Repr

/-- An error that a unit of the context has reported to the dome network root (R359), with what CTX_ERRLOG records
(Table 14.10). -/
structure ErrRec where
  code : Nat
  unit : Nat
  free : Bool
  cell : CellId
  detail : Nat
  cc : Nat
  dome : Nat
  deriving DecidableEq, Repr

/-- A request for a kill on its way to the root (Table 14.2); `sched` is the schedule cycle of detection (R375). -/
structure KillReq where
  source : Nat
  err : ErrRec
  since : Nat
  sched : Nat
  deriving DecidableEq, Repr

/-- A request for a hold on its way to the root (R35); `src` is the SOURCE of Table 2.4. -/
structure HoldReq where
  cause : HoldCause
  src : Nat
  since : Nat
  deriving DecidableEq, Repr

/-- An entry of CTX_HOLD_LOG (Table 2.7). -/
structure HoldLog where
  start : Nat
  stop : Nat
  cycle : Nat
  causes : Byte
  src : Nat
  deriving DecidableEq, Repr

/-- Holds of a context (R35 to R42, R369). `opened` are the causes not yet cleared, `cleared` releases on their way to
the root, `lastRelease` the core clock cycle at which the last one was accepted. -/
structure Hold where
  count : Nat := 0
  logNext : Nat := 0
  causes : Byte := 0
  notice : Bool := false
  pending : Bool := false
  held : Bool := false
  cycle : Nat := 0
  reqs : List HoldReq := []
  opened : List (HoldCause × Nat) := []
  lastRelease : Option Nat := none
  start : Nat := 0
  ns : Nat := 0
  limit : Nat := 0
  log : Mem HoldLog := []
  joined : List (HoldCause × Nat) := []
  deriving DecidableEq, Repr

/-- A hazard record (Table 2.11). -/
structure HazRec where
  event : Nat
  writeDue : Nat
  cell : CellId
  row : Nat
  kind : Nat
  deriving DecidableEq, Repr

structure Hazards where
  enable : Bool := false
  active : Bool := false
  total : Nat := 0
  log : List HazRec := []
  /-- Latest-issued write that has landed, by cell and row: issue and due cycle. -/
  last : Mem (Nat × Nat) := []
  /-- Reads of the last cycles, as far back as a link row can have been issued: schedule cycle, cell, row. -/
  reads : List (Nat × CellId × Nat) := []
  deriving DecidableEq, Repr

/-- A kill in progress or complete (R359 to R361, R371, Table 14.9): K, the clock of its receipt, the lowest clock in
kHz in force during it, and for a kill by notice the port of arrival and the dome count that the notice carries. -/
structure Kill where
  startDome : Nat
  startClk : Nat
  k : Nat
  code : Nat
  source : Nat
  noexec : Bool
  freeAny : Bool := false
  duringHold : Bool := false
  received : Bool := false
  gotClk : Nat := 0
  stopDome : Nat := 0
  slowest : Nat
  fromPort : Option Nat := none
  notice : Nat
  deriving DecidableEq, Repr

/-- An arrival at a barrier (R236, R239, R243): descriptor, whether it is a rejoin barrier, scope and scope unit, the
values that must agree (CELLMASK, REGMASK, EPOCH), the participant with its RSIG, and J of a rejoin. -/
structure BarArr where
  b : Nat
  rejoin : Bool
  scope : Nat
  unit : Nat
  key : Nat × Nat × Bool
  cell : CellId
  rsig : BitVec 6
  j : Nat
  deriving DecidableEq, Repr

/-- A barrier instance (R236 to R241, R243), opened at a schedule cycle. Participants that have arrived for the current and for the next
generation, with their RSIG; the fields of the first arrival; completion cycles. -/
structure BarInst where
  b : Nat
  rejoin : Bool
  scope : Nat
  unit : Nat
  gen : Nat
  cur : List (CellId × BitVec 6)
  nxt : List (CellId × BitVec 6)
  curKey : Option (Nat × Nat × Bool)
  nxtKey : Option (Nat × Nat × Bool)
  opened : Nat
  lastDone : Option Nat
  /-- Generations complete and not yet released: release cycle, participants, EPOCH. -/
  due : List (Nat × List (CellId × BitVec 6) × Bool)
  j : Option Nat
  checked : Bool
  /-- Scopes 5 and 6: modules whose arrival for the current and the next generation has come, own included. -/
  heard : List Nat
  heardNext : List Nat
  sent : Bool
  /-- Scopes 5 and 6: the cycle in which the last participant of this module arrived, and the dome count at which the 72
  cycles after it were over (Table 10.2). -/
  own : Option Nat := none
  spread : Option Nat := none
  deriving DecidableEq, Repr

/-- A REDUCE message of kind EXP that has arrived and waits for its due cycle (R311). -/
structure ExpMsg where
  due : Nat
  cell : CellId
  k : Nat
  tag : Nat
  e : Int
  nan : Bool
  pinf : Bool
  ninf : Bool
  ovf : Bool
  deriving DecidableEq, Repr

/-- A combining queue (R255 to R258). -/
structure Comb where
  cfg : DWord := 0
  count : Nat := 0
  gen : Nat := 0
  sat : Bool := false
  pending : Bool := false
  sum : List Row := []
  resend : Option Nat := none
  deriving DecidableEq, Repr

/-- One lane of an accumulator row: 80 bits and residue. -/
structure AccLane where
  w : BitVec 80 := 0
  res : BitVec 12 := 0
  deriving DecidableEq, Repr

/-- A contribution in the combining stage. -/
structure StagedContrib where
  q : Nat
  src : Source
  rows : List Row
  reply : Reply
  deriving DecidableEq, Repr

structure CombRegion where
  qs : Mem Comb := []
  acc : Mem AccLane := []
  stage : List StagedContrib := []
  deriving DecidableEq, Repr

/-- A route of the context's part (R291). -/
structure Route where
  hops : Nat
  ports : List Nat
  dest : Nat
  lat : Nat
  ret : Nat
  deriving DecidableEq, Repr

/-- An entry of a slot plan (R286): kind 0 unused, 1 owned, 2 transit. -/
structure SlotEntry where
  kind : Nat := 0
  route : Nat := 0
  cell : CellId := 0
  deriving DecidableEq, Repr

/-- An owned pair of a route that ends on this module (R288). -/
structure Expect where
  port : Nat
  route : Nat
  pair : Nat
  lat : Nat
  deriving DecidableEq, Repr

/-- What the image header gives (Table 13.12). -/
structure ImageInfo where
  binary : Nat := 0
  regions : Nat := 0
  profile : Nat := 0
  tag : BitVec 16 := 0
  allow : List Nat := []
  group : Nat := 0
  nodeMask : Nat := 0
  dumpLaddr : Nat := 0
  dumpLen : Nat := 0
  deriving DecidableEq, Repr

/-- The states of Table 13.10. -/
inductive CtxState where
  | free | loading | loaded | armed | running | killing | done | failed
  deriving DecidableEq, Repr

/-- The last two summaries of a module of the node (R260): its position, whether it was quiet in the last round and in
the one before, and its counts by partner position. -/
structure Summary where
  pos : Nat
  quiet : Bool
  before : Bool
  sent : List Nat
  received : List Nat
  deriving DecidableEq, Repr

/-- Deadlock detection (R259 to R262). `run` counts core clock cycles of quiet, `since` is the dome count at which the
stretch was found; `sent` and `received` count loose messages by port, 0 to 14; `rounds` holds the
summaries, the module's own included. -/
structure Quiet where
  run : Nat := 0
  quiet : Bool := false
  since : Nat := 0
  dumped : Bool := false
  sent : Mem Nat := []
  received : Mem Nat := []
  rounds : List Summary := []
  lastRound : Nat := 0
  deriving DecidableEq, Repr

/-- A context (chapters 02, 13, 14). -/
structure Ctx where
  state : CtxState := .free
  owner : FnRef := ⟨0, 0⟩
  handle : Nat := 0
  session : Nat := 0
  error : Nat := 0
  acceptDome : Nat := 0
  acceptClk : Nat := 0
  acceptNum : Nat := 0
  passedTag : Bool := false
  /-- The thermal class of each physical region at the acceptance of the LOAD (R217). -/
  classes : List Nat := []
  /-- The service map at that moment: of each region, whether it is offered, and FENCED of its blocks (R217, Table 9.3). -/
  service : List (Bool × Mem Nat) := []
  /-- Since then: regions that have finished CLEARING, and fences that have taken effect (Table 9.3). -/
  cleared : List Nat := []
  fences : List (Nat × Option PhysCell × Nat) := []
  /-- What those fences have taken from the leased rows: region, place, and row or error (R201, Table 9.3). -/
  keptRows : List (Nat × Nat × Row) := []
  keptErrs : List (Nat × Nat × WordErr) := []
  /-- The image as read, while earlier LOADs are still to be placed (R354, Table 9.3). -/
  got : Option (List Byte) := none
  dumpAddr : Nat := 0
  dumpLen : Nat := 0
  /-- IMAGE_LEN of the LOAD (Table 13.8). -/
  imageLen : Nat := 0
  image : ImageInfo := {}
  launch : Nat := 0
  cc : Nat := 0
  /-- The logical regions' physical regions, in order. -/
  regions : List Nat := []
  runProfile : Nat := 0
  padded : Bool := false
  hold : Hold := {}
  haz : Hazards := {}
  hwin : Mem (Nat × Nat) := []
  routes : Mem Route := []
  /-- Slot plans, keyed 32 * port + pair. -/
  slots : Mem SlotEntry := []
  expects : List Expect := []
  /-- Lagging routes (R41), as 256 * port of arrival + route. -/
  lagging : List Nat := []
  landings : List Landing := []
  arrivals : List Arrival := []
  byteLands : List ByteLanding := []
  exps : List ExpMsg := []
  /-- Cycles of the barrier units and combining queues (R240): schedule cycles, and core clock cycles of an OVERRUN
  hold. -/
  btime : Nat := 0
  hreads : List HbmRead := []
  hwrites : List HbmWrite := []
  nextId : Nat := 1
  linkRows : List LinkRow := []
  vacs : List VacArrival := []
  instances : List Instance := []
  kills : List KillReq := []
  kill : Option Kill := none
  errors : Nat := 0
  errlog : List ErrRec := []
  bars : List BarInst := []
  comb : Mem CombRegion := []
  afrPeak : Nat := 0
  quiet : Quiet := {}
  /-- Causes of the dumps that are being written, oldest first (R262): 0 DEADLOCK, 1 QUIET, 2 REQUEST. -/
  dumps : List Nat := []
  /-- Ports on which the context has accepted a flit since load (R365). -/
  heardOn : List Nat := []
  /-- Cycle `cc` has not begun to execute: at a launch edge or a freeze, until the cells go on (R37, R44). -/
  fresh : Bool := false
  /-- CTX_SCHED_CC and SYNC_CC of a DONE context, as they stood at its completion (R338, R349). -/
  finalCc : Option (Nat × Nat) := none
  /-- The CTX_HOLD_ registers of a DONE context: the holds as they stood at its completion (R338, R349). -/
  finalHold : Option Hold := none
  /-- CTX_AFR_STAT.INFLIGHT of a context that has ended (R338, R362). -/
  finalAfr : Option Nat := none
  /-- SPAD_LEASE of the regions of a context that has ended (R338). -/
  finalLease : Mem Word := []
  /-- Results and barrier messages that the links have brought during a hold: they wait at the receive side, with the port of
  their arrival (Table 2.3). -/
  waiting : List (Nat × Flit) := []
  deriving DecidableEq, Repr

/-! ### Silide ports (chapter 11) -/

/-- The negotiation states of Table 11.2, in the coding of LNK_PpSTAT. -/
inductive PortState where
  | detect | capability | select | train | align | active | retrain | down
  deriving DecidableEq, Repr

/-- A loose queue of a port: messages waiting under one tag, each a list of flits sent whole (R284). -/
structure LooseQueue where
  tag : BitVec 16
  msgs : List (List Flit)
  deriving DecidableEq, Repr

/-- One Silide port. -/
structure Port where
  state : PortState := .down
  mode : Nat := 0
  lanes : BitVec 2 := 0
  good : BitVec 2 := 3
  partnerWord : DWord := 0
  /-- The mode mask as it stood at the last DETECT (R275). -/
  mask : Byte := 0xFF
  rounds : Nat := 0
  /-- The mode that a RETRAIN has to return to, and when it began, in `Clocks.ns` (R303). -/
  retraining : Option (Nat × Nat) := none
  /-- Link-layer state stands since a RETRAIN: the next return to ACTIVE goes on with it (R302). -/
  kept : Bool := false
  /-- Lanes whose pair TRAIN has found inverted, and corrects (R428). -/
  polarity : BitVec 2 := 0
  /-- Core clock cycle in which the capability word was last sent (Table 11.2). -/
  wordAt : Nat := 0
  /-- TIME_LOCKED as the partner last gave it, in its capability word or in a TIME_SYNC flit, and its time role as its
  TIME_SYNC flits have given it since the module chose its time input (R295, R300). -/
  partnerLocked : Bool := false
  partnerRole : Option Nat := none
  /-- The partner has been compared with the expected one since S8 began (R408). -/
  compared : Bool := false
  mismatched : Bool := false
  retrained : Bool := false
  timeIn : Bool := false
  crcErr : Nat := 0
  retries : Nat := 0
  retrains : Nat := 0
  discard : Nat := 0
  rtt : BitVec 16 := 0
  len : BitVec 16 := 0
  -- link layer, sending side
  txSeq : BitVec 12 := 0
  replay : List Flit := []
  naked : Bool := false
  resend : Option (BitVec 12) := none
  /-- How often each flit of the replay buffer has been resent, by SEQ (R302). -/
  resends : Mem Nat := []
  /-- Symbols that wait for a whole RS message, and bits of each lane that wait for a whole inner block (R271). -/
  fecIn : List (BitVec 10) := []
  laneIn : Vector (List Bool) 2 := Vector.replicate 2 []
  sched : List Flit := []
  /-- The core clock cycle in which the last flits of `sched` reached the port, with the order of each (R289). -/
  reached : Nat × List Nat := (0, [])
  ctrl : List Flit := []
  loose : List LooseQueue := []
  current : List Flit := []
  lastTag : BitVec 16 := 0xFFFF
  credSched : Nat := 0
  credLoose : Nat := 0
  lastHeader : Nat := 0
  -- link layer, receiving side
  rxNext : BitVec 12 := 0
  nakSent : Bool := false
  nakAt : Nat := 0
  sendNak : Bool := false
  rx : List Flit := []
  /-- When the TIME_SYNC flits of `rx` crossed the PHY, in 1/64 ns (R297). -/
  stamps : List Nat := []
  landing : Nat := 0
  looseBuf : Nat := 0
  retSched : Nat := 0
  retLoose : Nat := 0
  /-- Flits of loose messages of several flits that have arrived so far. -/
  parts : List Flit := []
  deriving DecidableEq, Repr

/-! ### Regions, leases, host functions (chapters 08, 09, 13) -/

/-- The scrubber of a physical cell (R199). -/
structure Scrub where
  next : Nat := 0
  lastRead : Option Nat := none
  asked : Option Nat := none
  /-- Corrected rows that wait to be written back. -/
  writeBack : List Nat := []
  deriving DecidableEq, Repr

/-- A physical region (R213, R215, R217, R223). `hbm` is keyed by 64-byte codeword of the region's logical offset. -/
structure Region where
  owner : Option Nat := none
  logical : Nat := 0
  clearing : Bool := false
  binds : Nat := 0
  chmap : BitVec 24 := 0xFAC688
  bankxor : Word := 0
  ue : Bool := false
  ce : Bool := false
  ceCount : Nat := 0
  ueCount : Nat := 0
  delayed : Nat := 0
  debt : Mem Nat := []
  uelog : BitVec 128 := 0
  hbm : Mem Codeword := []
  /-- FENCED of each block (Table 9.8), and the region's own fence. -/
  spares : Mem Nat := []
  fenced : Bool := false
  /-- Fences that wait for the region to leave its context: (position or none for the region, cause). -/
  pendingFences : List (Option PhysCell × Nat) := []
  thermal : Nat := 0
  /-- Leased rows of physical cells while no context owns them, keyed 1024 * (17 * block + position) + row. -/
  kept : Mem Row := []
  scrub : Mem Scrub := []
  scrubErr : Mem WordErr := []
  /-- Uncorrectable words that scrubbing has found outside a running context (R199): cell, row, word, dome count. -/
  scrubLog : List (Nat × Nat × Nat × Nat) := []
  hbmScrubAt : Mem Nat := []
  /-- Loose and scrub commands of the last 128 core clock cycles, by logical channel: cycle, bank, write (R170, R212). -/
  looseAt : Mem (List (Nat × Nat × Bool)) := []
  /-- Corrected scratchpad words of each cell since S0, and the cells whose count has reached CE_LIMIT (Table 9.2). -/
  ceCells : Mem Nat := []
  ceTold : List Nat := []
  /-- Scheduled HBM commands placed so far, by logical channel: cycle, bank, write. -/
  placed : Mem (List (Nat × Nat × Bool)) := []
  /-- Channels that must retrain before the region is offered again (Table 16.5). -/
  retrain : List Nat := []
  deriving DecidableEq, Repr

/-- The values of a region's HBM_ registers at the end of its context, which the region window keeps (R338). -/
structure RegionRegs where
  status : Word
  chmap : Word
  bankxor : Word
  ecc : Word
  delay : Word
  uelog : BitVec 128
  deriving DecidableEq, Repr

/-- A residency lease (Table 8.4). -/
structure Lease where
  session : Nat
  regions : List (Nat × Nat)
  spadBase : Nat
  spadRows : Nat
  hbmBase : Nat
  hbmLen : Nat
  damaged : Bool
  deriving DecidableEq, Repr

/-- A command of a function that is fetched and not finished (R340, R341). -/
structure Cmd where
  seq : Nat
  raw : Codeword
  mbox : Bool
  accepted : Bool
  acceptedAt : Nat
  /-- The core clock cycle of the acceptance, and its number among all acceptances of the module (Table 9.3). -/
  acceptClk : Nat := 0
  acceptNum : Nat := 0
  deriving DecidableEq, Repr

/-- An event that waits for room in a completion ring, and records in general (Table 13.6). -/
structure EventRec where
  code : Nat
  handle : Nat
  ctx : Nat
  dome : Nat
  error : Nat
  lease : Nat
  mask : Nat
  cc : Nat
  padded : Bool
  deriving DecidableEq, Repr

/-- The configuration space of a function, as far as Table 13.1 and the rules give it a meaning; reset values of PCI
Express (PRESUMED, log entry 73). -/
structure PcieCfg where
  busMaster : Bool := false
  /-- Power state D3hot. -/
  d3hot : Bool := false
  /-- Max Payload Size and Max Read Request Size in their PCI Express coding, 128 bytes times a power of two. -/
  maxPayload : BitVec 3 := 0
  maxRead : BitVec 3 := 2
  msixOn : Bool := false
  msixFnMask : Bool := false
  /-- Of a PF: VF Enable and NumVFs of SR-IOV. -/
  vfOn : Bool := false
  numVfs : BitVec 16 := 0
  /-- Of a PF: its VFs have been enabled since the reset. -/
  vfWas : Bool := false
  deriving DecidableEq, Repr

/-- A PCIe function (chapter 13). -/
structure Fn where
  wrIgnored : Bool := false
  cfgErr : Bool := false
  dmaErr : Bool := false
  evtOverflow : Bool := false
  cmdqBase : DWord := 0
  cmdqOn : Bool := false
  cmdqSize : Nat := 4
  cmdqTail : Nat := 0
  cmdqHead : Nat := 0
  cmdqOff : Bool := false
  fetchStop : Bool := false
  cplqBase : DWord := 0
  cplqOn : Bool := false
  cplqSize : Nat := 4
  cplqTail : Nat := 0
  cplqHead : Nat := 0
  cplqOff : Bool := false
  phase : Bool := true
  coalUs : Nat := 0
  coalN : Nat := 1
  intOn : Bool := false
  mboxCmd : Codeword := 0
  mboxRes : Course := 0
  handles : Mem Nat := []
  cmds : List Cmd := []
  /-- Records of finished commands that wait for room, with the command's number. -/
  records : List (Nat × Course) := []
  nextSeq : Nat := 0
  events : List EventRec := []
  unsignalled : Nat := 0
  firstUnsig : Nat := 0
  /-- The MSI-X table of Table 13.2: address, data and mask bit of each vector, and its pending bits (log entry 73). -/
  msixAddr : Vector DWord 2 := Vector.replicate 2 0
  msixData : Vector Word 2 := Vector.replicate 2 0
  msixMask : BitVec 2 := 3
  msixPend : BitVec 2 := 0
  maxContexts : Nat := 0
  maxRegions : Nat := 0
  cfg : PcieCfg := {}
  deriving DecidableEq, Repr

/-- What the module sends to the outside world, in the order of sending. -/
inductive Out where
  | flit (p : Nat) (f : Flit) (crc : Word)
  | inner (p lane : Nat) (block : BitVec 128) (parity : Byte)
  | symbols (p lane : Nat) (syms : List (BitVec 10))
  | record (f : FnRef) (addr : Nat) (r : Course)
  | hostWrite (n : Nat) (addr : Nat) (len : Nat) (data : Row)
  | hostRead (n : Nat) (addr : Nat) (len : Nat)
  | dumpHost (n : Nat) (addr : Nat) (bytes : List Byte)
  | msix (f : FnRef) (vector : Nat)
  | aer (f : FnRef)
  | mctp (path : ReqPath) (bytes : List Byte)
  | doe (host : Fin 2) (bytes : List Byte)
  | capability (p : Nat) (word : DWord) (crc : Word)
  | candidate (p : Nat) (mode : Nat)
  deriving DecidableEq, Repr

/-! ### Lantern and object dictionary (chapter 15) -/

/-- The persistent values of groups 0 to 7 (Table 15.4). -/
structure OdVals where
  startCount : Nat := 0
  h0Regions : Nat := 32
  h1Regions : Nat := 32
  envelope : Nat := 3400
  class1 : Int := 60
  class2 : Int := 75
  class3 : Int := 90
  holdC : Int := 105
  releaseC : Int := 95
  address : Word := 0
  expect : Mem Word := []
  mapRotate : Bool := true
  ceLimit : Nat := 1024
  cellFences : List Word := []
  regionFences : Word := 0
  regionCause : Mem Nat := []
  modeMask : Mem Byte := []
  retrainMs : Nat := 10
  timeMode : Nat := 0
  rootAddress : Word := 0
  quietCc : Nat := 4096
  summaryNs : Nat := 4096
  dumpMs : Nat := 100
  holdLimitMs : Nat := 1000
  deriving DecidableEq, Repr

/-- A record of the persistent log (Table 15.7) with its count of writes (R393). -/
structure LogRec where
  seq : Nat
  start : Nat
  dome : Nat
  code : Nat
  arg : Nat
  /-- The check word stored with the record (R393). -/
  crc : Word
  writes : Nat
  deriving DecidableEq, Repr

/-- A firmware slot: the bytes written to it. -/
structure FwSlot where
  bytes : Mem Byte := []
  deriving DecidableEq, Repr

/-- The attestation state of one requester (R399). -/
structure Attest where
  nonce : BitVec 256
  due : Nat
  report : Option (List Byte)
  deriving DecidableEq, Repr

structure Lantern where
  od : OdVals := {}
  /-- The module address in force: OD 0x4000.01 as it stood at the start. -/
  address : Word := 0
  copyA : OdVals := {}
  copyB : OdVals := {}
  seqA : Vector Word 8 := Vector.replicate 8 1
  seqB : Vector Word 8 := Vector.replicate 8 0
  /-- The check word of each copy over its group's values and its sequence number (R387); at reset that of the defaults. -/
  crcA : Vector Word 8 := #v[1366104114, 338916840, 4183707467, 1265854698, 2698457443, 2547608359, 4226438319, 1146051229]
  crcB : Vector Word 8 := #v[2351477386, 3380010832, 605808115, 2520171090, 2106760155, 1251787167, 649068055, 2567630885]
  wear : Vector Nat 8 := Vector.replicate 8 0
  defaults : BitVec 16 := 0
  log : Mem LogRec := []
  logNext : Nat := 1
  logSeq : Nat := 0
  logStopped : Bool := false
  restarting : Bool := false
  /-- A restart found no firmware to run: the boot ROM answers, as in recovery (R377, R395, R396). -/
  recovery : Bool := false
  restartAt : Nat := 0
  restarts : Nat := 0
  buffered : List FenceEvent := []
  lost : Nat := 0
  slotA : FwSlot := {}
  slotB : FwSlot := {}
  activeB : Bool := false
  /-- The inactive slot becomes active at the next start (R397). -/
  committed : Bool := false
  runningB : Bool := false
  fwVersion : Nat := 0
  runSv : Nat := 0
  fuses : Nat := 0
  fwStatus : Nat := 0
  eidH0 : Byte := 0
  eidH1 : Byte := 0
  eidI3c : Byte := 0
  eidLink : Byte := 0
  dynAddr : Option (BitVec 7) := none
  attest : Mem Attest := []
  /-- The packets of MCTP messages that port 15 has begun to bring (R378). -/
  inbox : List (List Byte) := []
  /-- Endpoint ID and tag of the last message over port 15, to which answers go (log entry 59). -/
  peerEid : Byte := 0
  peerTag : BitVec 3 := 0
  deriving DecidableEq, Repr

/-! ### Clocks, power, bring-up (chapter 16) -/

inductive Grade where
  | liquid | air
  deriving DecidableEq, Repr

inductive Stepping where
  | a1 | b0
  deriving DecidableEq, Repr

/-- Where bring-up stands: without power, waiting for stage `next`, in recovery, stopped by a fatal failure, or done. -/
inductive BringUp where
  | off
  | stage (next : Nat)
  | recovery
  | fatal
  | ready
  deriving DecidableEq, Repr

/-- A change of core clock that has been agreed: F, the clock, and the power envelope that comes into force with it
(R19, R43). -/
structure ClockChange where
  f : Nat
  khz : Nat
  envelope : Nat
  deriving DecidableEq, Repr

structure Clocks where
  on : Bool := false
  clk : Nat := 0
  /-- Nanoseconds that the core clock has run since S0, with their remainder in 1/kHz: the dome count stands before S10, and
  the timers of the ports, of the caps and of power samples do not. The model's own field. -/
  ns : Nat := 0
  nsAcc : Nat := 0
  dome : Nat := 0
  domeAcc : Nat := 0
  khz : Nat := 0
  groupKhz : Nat := 0
  /-- The power envelope in force, in W (R19). -/
  envelope : Nat := 3400
  proposed : Nat := 0
  /-- Changes that have been agreed and not yet made, in the order of their F. -/
  pendingF : List ClockChange := []
  /-- The measured and the thermal cap in kHz, and when their last steps were, in `ns` (R412, R413). -/
  measured : Nat := 0
  thermal : Nat := 0
  measuredAt : Option Nat := none
  thermalAt : Option Nat := none
  refState : Nat := 0
  refPort : Nat := 0
  refLost : Bool := false
  cdcTimeout : Bool := false
  stage : Nat := 0
  warm : Bool := false
  domeValid : Bool := false
  lateInput : Bool := false
  role : Nat := 0
  input : Option Nat := none
  offset : BitVec 24 := 0
  lastSync : Nat := 0
  /-- The exchange in progress: port and t1; `syncStart` is the dome count at which the last one began (R297). -/
  exchange : Option (Nat × Nat) := none
  syncStart : Nat := 0
  /-- The round trip that the last exchange measured, in 1/64 ns (R297). -/
  roundTrip : Nat := 0
  /-- Change of the dome count's rate in ppm while it is steered back (R298). -/
  steer : Int := 0
  /-- Under R296: clocks proposed to this root by module address, and ports on which proposals came (R301). -/
  proposals : Mem Nat := []
  below : List Nat := []
  deriving DecidableEq, Repr

structure Power where
  v54mv : Nat := 0
  v12mv : Nat := 0
  first : Byte := 0
  present : Bool := true
  p54 : Nat := 0
  p54avg10 : Nat := 0
  /-- The 100 µs averages of the last 10 ms, each with its time in `Clocks.ns` (P54_PEAK). -/
  peaks : List (Nat × Nat) := []
  v54High : Bool := false
  v12Range : Bool := false
  /-- Causes of a POWER hold in force: supply low, input power above 110 % of the ceiling. -/
  supplyLow : Bool := false
  overPower : Bool := false
  thermalHold : Bool := false
  /-- The sensor that brought THERMAL into force (Table 2.4). -/
  thermalSrc : Nat := 0
  sensors : Mem Int := []
  deriving DecidableEq, Repr

structure Bring where
  at_ : BringUp := .stage 0
  records : Mem Codeword := []
  startUs : Nat := 20000
  /-- A supply has left its range during S0 (Table 16.2). -/
  supplyLeft : Bool := false
  warm : Bool := false
  wasState : Nat := 0
  failedChannels : BitVec 256 := 0
  depth : Nat := 0
  pcieReady : Bool := false
  /-- Bit h: port H(h) uses REFCLK as a common clock; else it runs under SRIS (R427). -/
  common : BitVec 2 := 0
  h0 : PcieTrain := .held
  h1 : PcieTrain := .held
  deriving DecidableEq, Repr

/-! ### The module -/

/-- The end of a context: its number, tag, dome count, error code (0 of completion), the module's record of it (Table 14.7). -/
structure EndRec where
  ctx : Nat
  tag : BitVec 16
  dome : Nat
  code : Nat
  deriving DecidableEq, Repr

/-- The whole module. `cells` are keyed 16384 * context + logical cell; `free` counts the free values that steps have
used; `pending` is the queue of waiting commands. -/
structure State where
  grade : Grade := .liquid
  stepping : Stepping := .b0
  clock : Clocks := {}
  power : Power := {}
  bring : Bring := {}
  ports : Mem Port := []
  regions : Mem Region := []
  leases : Mem Lease := []
  sessions : Mem FnRef := []
  fns : Mem Fn := []
  ctxs : Mem Ctx := []
  cells : Mem Cell := []
  transit : List Loose := []
  plcMap : Mem (BitVec 192) := []
  plcInfo : Mem Word := []
  inService : Word := 0xFFFFFFFF
  /-- The HBM_ registers that the region windows of ended contexts show, keyed 32 * context + logical region (R338). -/
  windows : Mem RegionRegs := []
  plcRegions : Nat := 32
  lantern : Lantern := {}
  /-- The last 64 KILL_NOTICEs for tags of no context: tag, dome count, port of arrival (R366). -/
  oldKills : List (BitVec 16 × Nat × Nat) := []
  unrecoverable : Bool := false
  /-- Context ends, oldest first (Table 14.7). -/
  ended : List EndRec := []
  /-- Records of units on their way to the lantern (R223). -/
  reports : List FenceEvent := []
  out : List Out := []
  /-- PCIe tags in use by host reads; that of an orphaned read stays until its completion or the timeout (R364). -/
  hostReads : List HostTag := []
  /-- Commands accepted so far (the model's own field: it numbers acceptances, Table 9.3). -/
  accepts : Nat := 0
  free : Nat := 0
  pending : List Instr := []
  deriving DecidableEq, Repr

/-- Reasons for which the machine stops with a fault. No command of this block raises one: the only constructor names an
access to a unit that the module does not have, which the operand types rule out (safe). -/
inductive Fault where
  | noSuchUnit
  deriving DecidableEq, Repr

/-- Refusals. `notModelled` names a command that has no meaning yet (safe: the machine stops). -/
inductive Refusal where
  | notModelled (mnemonic : String)
  deriving DecidableEq, Repr

/-- The module at the start of stage S0 (R7): every register at its reset value, nothing loaded, no command waiting. -/
def State.reset : State := {}

end Sys2Proof.Machine
end

