-- ==== Sys2Proof/Machine/Ops.lean ====
section
/-!
DEFINITION. Sys2Proof/Machine/Ops.lean: the named operations over the state: contexts, cells and their traffic, the
issue of a slot (R55 to R58), results in flight (R63), and reads of scratchpad rows with their check bits (R187, R197,
R198) and hazard records (R49).
-/
namespace Sys2Proof.Machine

/-! ### Contexts and cells -/

def cellKey (c : CellRef) : Nat := c.ctx.val * 16384 + c.id.toNat

def State.ctx (s : State) (n : Nat) : Ctx := Mem.rd {} s.ctxs n
def State.setCtx (s : State) (n : Nat) (x : Ctx) : State := { s with ctxs := Mem.put s.ctxs n x }
def State.onCtx (s : State) (n : Nat) (f : Ctx → Ctx) : State := s.setCtx n (f (s.ctx n))
def State.cell? (s : State) (c : CellRef) : Option Cell := Mem.find s.cells (cellKey c)
def State.setCell (s : State) (c : CellRef) (x : Cell) : State := { s with cells := Mem.put s.cells (cellKey c) x }
/-- Change a cell that exists. -/
def State.onCell (s : State) (c : CellRef) (f : Cell → Cell) : State :=
  { s with cells := Mem.adjust f s.cells (cellKey c) }
def State.port (s : State) (p : Nat) : Port := Mem.rd {} s.ports p
def State.setPort (s : State) (p : Nat) (x : Port) : State := { s with ports := Mem.put s.ports p x }
def State.onPort (s : State) (p : Nat) (f : Port → Port) : State := s.setPort p (f (s.port p))
def State.region (s : State) (p : Nat) : Region := Mem.rd {} s.regions p
def State.setRegion (s : State) (p : Nat) (x : Region) : State := { s with regions := Mem.put s.regions p x }
def State.onRegion (s : State) (p : Nat) (f : Region → Region) : State := s.setRegion p (f (s.region p))
def fnKey (f : FnRef) : Nat := 16 * f.host.val + f.fn.val
def State.fn (s : State) (f : FnRef) : Fn := Mem.rd {} s.fns (fnKey f)
def State.setFn (s : State) (f : FnRef) (x : Fn) : State := { s with fns := Mem.put s.fns (fnKey f) x }
def State.onFn (s : State) (f : FnRef) (g : Fn → Fn) : State := s.setFn f (g (s.fn f))
/-- An event for a function: 256 of them wait at most (R351). -/
def State.addEvent (s : State) (f : FnRef) (e : EventRec) : State :=
  s.onFn f (fun q => if q.events.length < 256 then { q with events := q.events ++ [e] } else { q with evtOverflow := true })
def State.emitOut (s : State) (l : List Out) : State := { s with out := s.out ++ l }

/-- Speed, width and Flit Mode of a trained host port (R332). -/
def linkOf : PcieTrain → Nat × Nat × Nat
  | .trained speed width flit => (speed.toNat, width.toNat, b01 flit)
  | _ => (0, 0, 0)

def State.hostLink (s : State) (h : Fin 2) : Nat × Nat × Nat := linkOf (if h = 0 then s.bring.h0 else s.bring.h1)

/-- The cells of context `n`, with their logical numbers. -/
def State.cellsOf (s : State) (n : Nat) : List Cell :=
  (s.cells.filter (fun e => decide (e.1 / 16384 = n))).map (·.2)

/-- Change every cell of context `n`. -/
def State.onCells (s : State) (n : Nat) (f : Cell → Cell) : State :=
  { s with cells := s.cells.map (fun e => if e.1 / 16384 = n then (e.1, f e.2) else e) }

/-- Logical region, block and cell of a logical cell (Table 3.12). -/
def regionOf (id : CellId) : Nat := fld id 13 9
def blockOf (id : CellId) : Nat := fld id 8 4
def numberOf (id : CellId) : Nat := fld id 3 0
def cellIdOf (r b c : Nat) : CellId := BitVec.ofNat 14 (512 * r + 16 * b + c)

/-- A logical cell of a context that owns `k` regions (R204, Table 9.1). -/
def cellExists (k : Nat) (id : CellId) : Bool := decide (regionOf id < k) && decide (blockOf id < 24)

/-- The row-write latency by the relation of two logical cells (Table 2.2); 2 for the cell itself. -/
def relLatency (a b : CellId) : Nat :=
  if a = b then 2
  else if regionOf a ≠ regionOf b then 96
  else if blockOf a ≠ blockOf b then 24
  else 8

/-! ### Holds, as the cells see them (R36, R47) -/

def causeBit : HoldCause → Nat
  | .linkLate => 0 | .partner => 1 | .hbmLate => 2 | .refresh => 3 | .thermal => 4 | .power => 5 | .overrun => 6

/-- The only causes in force are OVERRUN. Once the root has accepted the release no cause is in force, and the free-running cells
stand until the hold ends, 32 cycles later (DESIGN CHOICE, log entry 98). -/
def overrunOnly (h : Hold) : Bool :=
  h.opened.any (fun e => decide (e.1 = .overrun)) && h.opened.all (fun e => decide (e.1 = .overrun))

/-- Whether a cell is stopped by a hold: every cell is, but a free-running one in an OVERRUN hold. -/
def cellFrozen (x : Ctx) (cell : Cell) : Bool := x.hold.held && !(overrunOnly x.hold && cell.ctl.free)

/-- The context executes: launched, not ended, and not stopped by a kill at K; free-running cells that an OVERRUN hold
leaves running stop at the kill's receipt (R360). -/
def executing (x : Ctx) : Bool :=
  decide (x.state = .running) ||
  (decide (x.state = .killing) && (match x.kill with
    | some k => !k.received && (decide (x.cc < k.k) || (x.hold.held && overrunOnly x.hold))
    | none => false))

/-- The context executes its schedule cycle `cc` now: no hold stops it, and the cycle has begun. -/
def running (s : State) (x : Ctx) : Bool := executing x && !s.unrecoverable && !x.hold.held && !x.fresh

/-- CTX_SCHED_CC: the next schedule cycle to execute, which is the one after a cycle that has begun; a context that has
completed keeps the value it ended with (Table 2.8, R349). -/
def schedCc (s : State) (x : Ctx) : Nat :=
  match x.finalCc with
  | some t => t.1
  | none => if running s x then x.cc + 1 else x.cc

/-! ### Flits and the loose queues of the ports (R278, R284, R291) -/

/-- A flit of a context: class, message type, route and hop count of the route, due cycle, ARG and payload. Sequence
numbers, acknowledgements and credits are the link layer's. -/
def ctxFlit (x : Ctx) (cls : BitVec 2) (mtype : BitVec 6) (route due : Nat) (arg : DWord) (payload : BitVec 2048) : Flit :=
  { cls := cls, mtype := mtype, seq := 0, ackseq := 0, nak := false, crclass := false, credit := 0, ctx := x.image.tag
    route := BitVec.ofNat 8 route
    hop := match Mem.find x.routes route with | some r => BitVec.ofNat 6 (r.hops - 1) | none => 0
    due := BitVec.ofNat 22 due, arg := arg, payload := payload }

/-- The first port of a route of the context. -/
def firstPort (x : Ctx) (route : Nat) : Option Nat :=
  match Mem.find x.routes route with
  | some r => r.ports.head?
  | none => none

/-- Add a message to the loose queue of its tag. -/
def enqueueLoose (p : Port) (tag : BitVec 16) (msg : List Flit) : Port :=
  if p.loose.any (fun q => decide (q.tag = tag)) then
    { p with loose := p.loose.map (fun q => if q.tag = tag then { q with msgs := q.msgs ++ [msg] } else q) }
  else { p with loose := p.loose ++ [{ tag := tag, msgs := [msg] }] }

/-- Send a loose message of context `n` on a route. -/
def State.sendLoose (s : State) (n route : Nat) (msg : List Flit) : State :=
  match firstPort (s.ctx n) route with
  | some p => s.onPort p (fun q => enqueueLoose q (s.ctx n).image.tag msg)
  | none => s

/-! ### What a cell sends into its context's traffic -/

/-- What a step of one cell adds to the traffic of its context and of the module. -/
structure Emit where
  lands : List Landing := []
  arrs : List Arrival := []
  bytes : List ByteLanding := []
  hreads : List HbmRead := []
  hwrites : List HbmWrite := []
  links : List LinkRow := []
  vacs : List VacArrival := []
  errs : List ErrRec := []
  loose : List Loose := []
  hazards : List HazRec := []
  /-- Loose messages for the links: route and flits. -/
  msgs : List (Nat × List Flit) := []
  /-- Words corrected in a cell's scratchpad, counted by the lantern (R197, R223). -/
  ces : List (CellId × Nat) := []
  /-- Arrivals at barriers (R236, R243). -/
  bars : List BarArr := []
  /-- Requests for holds (R35). -/
  holds : List (HoldCause × Nat) := []
  /-- Scratchpad rows read, for hazard watch (R49): schedule cycle, cell, row. -/
  reads : List (Nat × CellId × Nat) := []
  ids : Nat := 0

def Emit.and (a b : Emit) : Emit :=
  { lands := a.lands ++ b.lands, arrs := a.arrs ++ b.arrs, bytes := a.bytes ++ b.bytes, hreads := a.hreads ++ b.hreads,
    hwrites := a.hwrites ++ b.hwrites, links := a.links ++ b.links, vacs := a.vacs ++ b.vacs, errs := a.errs ++ b.errs,
    loose := a.loose ++ b.loose, hazards := a.hazards ++ b.hazards, msgs := a.msgs ++ b.msgs, ces := a.ces ++ b.ces, bars := a.bars ++ b.bars,
    holds := a.holds ++ b.holds, reads := a.reads ++ b.reads, ids := a.ids + b.ids }

/-- Add records to the hazard log: 16 of them are kept, all are counted (R49). -/
def addHazards (h : Hazards) (l : List HazRec) : Hazards :=
  if l.isEmpty then h else { h with total := satAdd 0xFFFF h.total l.length, log := (h.log ++ l).take 16 }

/-- Keep the reads that a row from a link can concern: a row of latency L was issued L cycles before its due cycle (R49). -/
def addReads (h : Hazards) (cc lat : Nat) (l : List (Nat × CellId × Nat)) : Hazards :=
  if l.isEmpty then h else { h with reads := h.reads.filter (fun e => decide (cc ≤ e.1 + lat)) ++ l }

/-! ### Requests to the dome network root (R35, R38, R359) -/

/-- Request a hold: a request that is on its way or in force is not sent again. -/
def requestHold (x : Ctx) (clk : Nat) (cause : HoldCause) (src : Nat) : Ctx :=
  let h := x.hold
  if h.reqs.any (fun r => decide (r.cause = cause) && decide (r.src = src)) || h.opened.contains (cause, src) then x
  else { x with hold := { h with reqs := h.reqs ++ [{ cause := cause, src := src, since := clk }] } }

/-- Report an error that ends the context (R359). -/
def requestKill (x : Ctx) (clk source : Nat) (e : ErrRec) : Ctx :=
  { x with kills := x.kills ++ [{ source := source, err := e, since := clk, sched := x.cc }] }

/-- A request of a hold has reached the root: its delay is fixed for the unit and the kind of request (R35). -/
def holdDue (clk : Nat) (r : HoldReq) : Bool :=
  decide (r.since + Config.rootDelay (2 ^ causeBit r.cause) r.src ≤ clk)

/-- A report of an error has reached the root: its delay is fixed for the unit and the kind of error (R359). -/
def killDue (clk : Nat) (r : KillReq) : Bool := decide (r.since + Config.rootDelay (256 + r.err.code) r.err.unit ≤ clk)

/-! ### Arrivals at barriers (R236, R238, R239, R243) -/

/-- Enter an arrival into its instance: the instances after it, and the error of a disagreement (Table 13.15). -/
def barArrive (bars : List BarInst) (cc : Nat) (a : BarArr) : List BarInst × Option Nat :=
  let same (i : BarInst) : Bool :=
    decide (i.b = a.b) && decide (i.rejoin = a.rejoin) && decide (i.scope = a.scope) && decide (i.unit = a.unit)
  match bars.find? same with
  | none =>
    (bars ++ [{ b := a.b, rejoin := a.rejoin, scope := a.scope, unit := a.unit, gen := 0, cur := [(a.cell, a.rsig)]
                nxt := [], curKey := some a.key, nxtKey := none, opened := cc, lastDone := none, due := []
                j := if a.rejoin then some a.j else none, checked := false, heard := [], heardNext := [], sent := false }],
      none)
  | some i =>
    let put (i' : BarInst) : List BarInst := bars.map (fun q => if same q then i' else q)
    if i.cur.any (fun e => decide (e.1 = a.cell)) then
      if i.nxtKey.any (fun k => decide (k ≠ a.key)) then (bars, some 0x0015)
      else (put { i with nxt := i.nxt ++ [(a.cell, a.rsig)], nxtKey := some a.key }, none)
    else if i.curKey.any (fun k => decide (k ≠ a.key)) then (bars, some 0x0015)
    else if a.rejoin && i.j.any (fun j => decide (j ≠ a.j)) then (bars, some 0x0014)
    else
      (put { i with cur := i.cur ++ [(a.cell, a.rsig)], curKey := some a.key
                    opened := if i.cur.isEmpty then cc else i.opened, j := if a.rejoin then some a.j else none }, none)

/-! ### Physical positions and the lantern's records (R197, R219, R223) -/

/-- The physical position of a logical cell (R219). -/
def State.physCell (s : State) (x : Ctx) (id : CellId) : PhysCell :=
  let p := x.regions.getD (regionOf id) 0
  let f := Mem.rd 0 (s.region p).spares (blockOf id)
  { region := Fin.ofNat 32 p, block := Fin.ofNat 24 (blockOf id)
    pos := Fin.ofNat 17 (if f = numberOf id + 1 then 16 else numberOf id) }

def physKey (p : PhysCell) : Nat := 17 * p.block.val + p.pos.val

/-- What an error tells the lantern (Table 9.2). -/
def State.fenceOf (s : State) (x : Ctx) (e : ErrRec) : Option FenceEvent :=
  if e.code = 0x0020 then
    (if e.unit = 7 then some (.residueComb (s.physCell x e.cell).region) else some (.residueCell (s.physCell x e.cell)))
  else if e.code = 0x0021 ∨ e.code = 0x0022 ∨ e.code = 0x0023 then some (.uncorrectable (s.physCell x e.cell))
  else none

/-- A physical cell whose count of corrected words has reached CE_LIMIT is reported, once (Table 9.2). -/
def State.tellCe (s : State) (p : PhysCell) : State :=
  let r := s.region p.region.val
  if s.lantern.od.ceLimit ≤ Mem.rd 0 r.ceCells (physKey p) ∧ !r.ceTold.contains (physKey p) then
    { s.setRegion p.region.val { r with ceTold := physKey p :: r.ceTold } with reports := s.reports ++ [.ceLimit p] }
  else s

/-- Count corrected scratchpad words of a physical cell (R197, Table 9.2). -/
def State.countCe (s : State) (p : PhysCell) (n : Nat) : State :=
  (s.onRegion p.region.val (fun r => { r with
    ceCells := Mem.wr 0 r.ceCells (physKey p) (Mem.rd 0 r.ceCells (physKey p) + n) })).tellCe p

/-- CE_LIMIT has changed: the cells whose counts it now reaches are reported (Table 9.2, R385). -/
def State.tellAllCe (s : State) : State :=
  (List.range 32).foldl (fun s p => (s.region p).ceCells.foldl (fun s e =>
    s.tellCe { region := Fin.ofNat 32 p, block := Fin.ofNat 24 (e.1 / 17), pos := Fin.ofNat 17 (e.1 % 17) }) s) s

/-- A record of the barrier unit that names a participant: in a free-running section with its course count (Tables 14.10,
14.11). -/
def State.barErr (s : State) (n code b : Nat) (id : CellId) : ErrRec :=
  let ctl := (s.cell? ⟨Fin.ofNat 32 n, id⟩).elim {} (·.ctl)
  { code := code, unit := 10, free := ctl.free, cell := id, detail := b, dome := s.clock.dome
    cc := if ctl.free then ctl.courseCtr else (s.ctx n).cc }

/-- Put what a cell sends into the traffic of context `n`; an error is a request for a kill (R359), and errors of
Table 9.2 are on their way to the lantern. -/
def State.emit (s : State) (n : Nat) (e : Emit) : State :=
  let x := s.ctx n
  let arr := e.bars.foldl (fun (acc : List BarInst × List ErrRec) a =>
    let r := barArrive acc.1 x.cc a
    match r.2 with
    | none => (r.1, acc.2)
    | some code => (r.1, acc.2 ++ [s.barErr n code a.b a.cell]))
    (x.bars, [])
  let errs := e.errs ++ arr.2
  let x := { x with
    landings := x.landings ++ e.lands, arrivals := x.arrivals ++ e.arrs, byteLands := x.byteLands ++ e.bytes,
    hreads := x.hreads ++ e.hreads, hwrites := x.hwrites ++ e.hwrites, linkRows := x.linkRows ++ e.links,
    vacs := x.vacs ++ e.vacs, nextId := x.nextId + e.ids, haz := addReads (addHazards x.haz e.hazards) x.cc (x.expects.foldl (fun m q => max m q.lat) 0) e.reads, bars := arr.1,
    kills := x.kills ++ errs.map (fun r => { source := 2, err := r, since := s.clock.clk, sched := x.cc }) }
  let x := e.holds.foldl (fun x h => requestHold x s.clock.clk h.1 h.2) x
  let s := { s.setCtx n x with transit := s.transit ++ e.loose, reports := s.reports ++ errs.filterMap (s.fenceOf x) }
  let s := e.ces.foldl (fun s c => s.countCe (s.physCell x c.1) c.2) s
  e.msgs.foldl (fun s m => s.sendLoose n m.1 m.2) s

/-- An error record of a cell (Table 14.10): the schedule cycle, or the course count in a free-running section. -/
def cellErr (x : Ctx) (cell : Cell) (dome code unit detail : Nat) : ErrRec :=
  { code := code, unit := unit, free := cell.ctl.free, cell := cell.id, detail := detail,
    cc := if cell.ctl.free then cell.ctl.courseCtr else x.cc, dome := dome }

/-! ### The issue of a slot (R55 to R58) -/

/-- What an instruction does when it issues: whether its state-dependent legality check or a check of its unit fails,
the scratchpad rows it reads at issue, the descriptor it claims, and the cell after it with what it sends. -/
structure SlotAct where
  illegal : Bool := false
  reason : Option Nat := none
  reads : List Nat := []
  desc : Option Nat := none
  cell : Cell
  emit : Emit := {}

def slotNumber : Slot → Nat
  | .S => 0 | .T => 1 | .V => 2 | .M0 => 3 | .M1 => 4 | .Q => 5

/-- The rank of a slot's scratchpad reads (Table 8.1). -/
def slotRank : Slot → Nat
  | .S => 1 | .T => 2 | .V => 3 | .M0 => 6 | .M1 => 6 | .Q => 4

/-- The log entry of a slot of the course that the cell executes (Table 3.4). -/
def slotLogOf (x : Ctx) (cell : Cell) (sl : Slot) (bits : DWord) (reason : Nat) : SlotLog :=
  { bits := bits, stamp := if cell.ctl.free then cell.ctl.courseCtr else x.cc, addr := cell.ctl.pc,
    slot := slotNumber sl, reason := reason, free := cell.ctl.free }

/-- Count a skip, and record it among the first four (R58). -/
def addSkip (ctl : Control) (r : SlotLog) : Control :=
  { ctl with skips := satInc 0x1FFFFFFF ctl.skips, log := if ctl.log.length < 4 then ctl.log ++ [r] else ctl.log }

def markIssued (cell : Cell) (sl : Slot) : Cell :=
  { cell with ctl := { cell.ctl with issued := sl :: cell.ctl.issued } }

/-- Replace a slot by its no-op and log it (R57, R58). -/
def skipSlot (x : Ctx) (cell : Cell) (sl : Slot) (bits : DWord) (reason : Nat) : Cell :=
  { cell with ctl := addSkip cell.ctl (slotLogOf x cell sl bits reason) }

def banks (rows : List Nat) : List Nat := rows.map (· % 8)

/-- The rows that AFR instructions in progress read in this cycle, at rank 3 (R315). -/
def afrReads (cell : Cell) : List Nat :=
  cell.vec.ops.flatMap (fun op => match op with
    | .afradd issued _ _ a b _ _ => if issued < cell.now then [a + (cell.now - issued), b + (cell.now - issued)] else []
    | .afrfin issued _ row _ _ _ _ _ _ _ _ _ => if issued < cell.now then [row + (cell.now - issued)] else []
    | _ => [])

/-- A slot's read loses a bank that a higher slot of the course has claimed; a read of rank 4 loses it to a continuing read of
an AFR instruction too (R56, R189, R315). -/
def bankConflict (cell : Cell) (rank : Nat) (rows : List Nat) : Bool :=
  (banks rows).any (fun b => cell.spad.claims.any (fun e => decide (e.1 = b) && decide (e.2 ≤ 4)) ||
    (decide (rank = 4) && (banks (afrReads cell)).contains b))

def claimBanks (cell : Cell) (rank : Nat) (rows : List Nat) : Cell :=
  { cell with spad := { cell.spad with claims := cell.spad.claims ++ (banks rows).map (fun b => (b, rank)) } }

def claimDesc (cell : Cell) (d : Option Nat) : Cell :=
  match d with
  | none => cell
  | some d => { cell with strm := { cell.strm with claims := d :: cell.strm.claims } }

/-- The descriptor is claimed by a higher slot of the course (R180). -/
def descConflict (cell : Cell) (d : Option Nat) : Bool :=
  match d with
  | none => false
  | some d => cell.strm.claims.contains d

/-- The cell can issue slot `sl` of its course in this cycle: it executes one, no hold stops it, and the slot has not
issued yet. -/
def canIssue (s : State) (x : Ctx) (cell : Cell) (sl : Slot) : Bool :=
  executing x && !s.unrecoverable && cell.ctl.live && !cellFrozen x cell && !cell.ctl.issued.contains sl

/-- The three stages of R56 on an instruction of slot `sl`, given what it does: the cell afterwards, and what it sends. -/
def issueStages (x : Ctx) (cell : Cell) (sl : Slot) (i : Instr) (act : SlotAct) : Cell × Emit :=
  let bits := (encodeSlot i).getD 0
  if !legal i || act.illegal then (skipSlot x cell sl bits 1, {})
  else match act.reason with
    | some r => (skipSlot x cell sl bits r, {})
    | none =>
      if bankConflict cell (slotRank sl) act.reads || descConflict cell act.desc then (skipSlot x cell sl bits 2, {})
      else (claimDesc (claimBanks act.cell (slotRank sl) act.reads) act.desc, act.emit)

/-- Issue instruction `i` in slot `sl` of cell `c`. Where the cell does not execute this slot now, nothing happens. -/
def issueSlot (s : State) (c : CellRef) (sl : Slot) (i : Instr) (body : Ctx → Cell → SlotAct) : State :=
  match s.cell? c with
  | none => s
  | some cell =>
    let x := s.ctx c.ctx.val
    if canIssue s x cell sl then
      let r := issueStages x cell sl i (body x cell)
      (s.setCell c (markIssued r.1 sl)).emit c.ctx.val r.2
    else s

/-! ### Results in flight -/

/-- A result of latency `lat` that lands at the end of cycle c + lat - 1 (R63). -/
def addRes (cell : Cell) (rank lat : Nat) (dst : ResDst) (v : Word) : Cell :=
  { cell with sc := { cell.sc with
      res := cell.sc.res ++ [{ due := cell.now + lat - 1, issued := cell.now, rank := rank, dst := dst, val := v }] } }

/-! ### Scratchpad reads (R185 to R189, R197, R198) -/

/-- The 64-bit words of a row in which the check bits find an error of one kind. -/
def errWords (sp : Scratchpad) (row : Nat) (e : WordErr) : List Nat :=
  (List.range 64).filter (fun w => decide (Mem.rd .good sp.errs (64 * row + w) = e))

/-- Count corrected words of a row (R197, Table 8.10). -/
def countCorrected (sp : Scratchpad) (row : Nat) (words : List Nat) : Scratchpad :=
  match words with
  | [] => sp
  | w :: _ =>
    let sp := { sp with ceCount := satAdd 0xFFFF sp.ceCount words.length }
    if sp.ce then sp else { sp with ce := true, firstRow := row, firstWord := w }

/-- The due cycle of the row of a running FILL that has not landed on `row` yet: row k lands at the end of c + 1 + k, and its
write was issued at c (R193): the MTC's own cycle is the issue of every row for the hazard watch (DESIGN CHOICE, log entry
100). -/
def fillDue (cell : Cell) (row : Nat) : Option Nat :=
  match cell.spad.mop with
  | some m => if !m.copy ∧ m.dst + m.read ≤ row ∧ row < m.dst + m.count ∧ m.issued < cell.now then some (m.issued + 1 + (row - m.dst)) else none
  | none => none

/-- Hazard records of kind 0 for a read of a row in this cycle: a write issued earlier has not landed. Rows from links are
looked at when they land, since their flits may come at any time before (R49, R51). -/
def readHazards (x : Ctx) (cell : Cell) (row : Nat) : List HazRec :=
  if x.haz.active && !cell.ctl.free then
    (x.landings.filter (fun l =>
      let t := if l.own then cell.now else x.cc
      decide (l.cell = cell.id) && decide (l.row = row) && decide (l.rank ≠ 3) && decide (l.issued < t) && decide (t ≤ l.due))).map
      (fun l => { event := x.cc, writeDue := if l.own then l.due + x.cc - cell.now else l.due, cell := cell.id
                  row := row, kind := 0 }) ++
    (fillDue cell row).toList.map (fun t => { event := x.cc, writeDue := t + x.cc - cell.now, cell := cell.id, row := row, kind := 0 })
  else []

/-- What hazard watch keeps of a read (R49). -/
def readNote (x : Ctx) (cell : Cell) (row : Nat) : List (Nat × CellId × Nat) :=
  if x.haz.active && !cell.ctl.free && !x.expects.isEmpty then [(x.cc, cell.id, row)] else []

/-- Read one row for a unit: the cell with its counts, the row unless a word of it is uncorrectable, and what the read
reports. -/
def readRow (x : Ctx) (cell : Cell) (dome row : Nat) : Cell × Option Row × Emit :=
  let fixed := errWords cell.spad row .correctable
  let cell' := { cell with spad := countCorrected cell.spad row fixed }
  let ces := if fixed.isEmpty then [] else [(cell.id, fixed.length)]
  let e : Emit := { hazards := readHazards x cell row, reads := readNote x cell row, ces := ces }
  match errWords cell.spad row .uncorrectable with
  | [] => (cell', some (Mem.rd 0 cell.spad.rows row), e)
  | w :: _ => (cell', none, { e with errs := [cellErr x cell dome 0x0023 5 (1024 * w + row)] })

/-- Write a row: its check bits are computed afresh (R187). -/
def writeRow (sp : Scratchpad) (row : Nat) (v : Row) : Scratchpad :=
  { sp with rows := Mem.wr 0 sp.rows row v, errs := sp.errs.filter (fun e => decide (e.1 / 64 ≠ row)) }

/-- The row number s[r] + off as an unsigned 32-bit sum (R119, R140, R247). -/
def rowNumber (base : Word) (off : Nat) : Nat := (base + BitVec.ofNat 32 off).toNat

end Sys2Proof.Machine
end

