-- ==== Sys2Proof/Machine/Operands.lean ====
section
/-!
DEFINITION. Sys2Proof/Machine/Operands.lean: the operand forms of the slot instructions: registers, data-memory
addresses, mask rows, tile rows and elements of rows.
-/
namespace Sys2Proof.Machine

/-- Read an s register; s0 reads as 0 (R62). -/
def sreg (cell : Cell) (r : BitVec 5) : Word := if r = 0 then 0 else cell.sc.s[r.toNat]

/-- Read an f register; only numbers 0 to 15 are legal (R66). -/
def freg (cell : Cell) (r : BitVec 5) : Word := cell.sc.f[r.toNat % 16]'(Nat.mod_lt _ (by decide))

/-- The data-memory word of an effective address (R65): bits [13:2]. -/
def dmemIndex (a : Word) : Nat := fld a 13 2

/-- Row `r` of mask register `m`, inverted on request; every bit of m0 reads as 1 (R128). -/
def maskRow (v : VecEngine) (m r : Nat) (inv : Bool) : Word :=
  let w : Word := if m = 0 then 0xFFFFFFFF#32 else Mem.rd 0 v.masks (32 * m + r)
  if inv then ~~~w else w

def tileKey (t r : Nat) : Nat := 32 * t + r % 32

/-- Row `r` of tile register `t`. -/
def tileRow (v : VecEngine) (t r : Nat) : TileRow := Mem.rd 0 v.tiles (tileKey t r)

/-- Lane `l` of a tile row. -/
def laneOf (x : TileRow) (l : Nat) : Word := x.extractLsb' (32 * l) 32

/-- A tile row from 32 lanes. -/
def packLanes (l : List Word) : TileRow :=
  BitVec.ofNat 1024 (l.foldr (fun w acc => acc <<< 32 + w.toNat) 0)

/-- A tile row computed lane by lane. -/
def mapLanes (f : Nat → Word) : TileRow := packLanes ((List.range 32).map f)

def lanesOf (x : TileRow) : List Word := (List.range 32).map (laneOf x)

/-- Elements packed into a scratchpad row (R84). -/
def packElems (width : Nat) (l : List Nat) : Row :=
  BitVec.ofNat 4096 (l.foldr (fun e acc => acc <<< width + e % 2 ^ width) 0)

end Sys2Proof.Machine
end

