-- ==== Sys2Proof/Machine/Flags.lean ====
section
/-!
DEFINITION. Sys2Proof/Machine/Flags.lean: the sticky flags of the scalar processor (Table 3.13): ADDR_WRAP, DIV0, CVT_SAT
and COUNT_CLAMP. The flags of the other units are set by the operations of those units.
-/
namespace Sys2Proof.Machine

/-- The address sets ADDR_WRAP: misaligned, or 16,384 or greater (R65). -/
def dmemWraps (a : Word) : Bool := decide (fld a 1 0 ≠ 0) || decide (a.toNat ≥ 16384)

/-- Set ADDR_WRAP where an address needs it (R65). -/
def noteWrap (cell : Cell) (a : Word) : Cell :=
  { cell with sc := { cell.sc with addrWrap := cell.sc.addrWrap || dmemWraps a } }

/-- Set DIV0 where the divisor is 0 (R69), at the issue (log entry 89). -/
def noteDiv0 (cell : Cell) (divisor : Word) : Cell :=
  { cell with sc := { cell.sc with div0 := cell.sc.div0 || decide (divisor = 0) } }

/-- Set CVT_SAT where a conversion saturated or met a NaN (R68). -/
def noteCvtSat (cell : Cell) (sat : Bool) : Cell :=
  { cell with sc := { cell.sc with cvtSat := cell.sc.cvtSat || sat } }

/-- Set COUNT_CLAMP where a loop count of a register is above 1,048,575 (R75). -/
def noteClamp (cell : Cell) (clamped : Bool) : Cell :=
  { cell with sc := { cell.sc with countClamp := cell.sc.countClamp || clamped } }

end Sys2Proof.Machine
end

