-- ==== Sys2Proof/Machine/Scalar.lean ====
section
/-!
DEFINITION. Sys2Proof/Machine/Scalar.lean: the arithmetic, memory and register instructions of the S slot (R61 to R69).
-/
namespace Sys2Proof.Machine

/-! ### Shared forms -/

/-- An instruction of latency `lat` whose result goes to s[rd]. -/
def issueS (s : State) (c : CellRef) (i : Instr) (rd : BitVec 5) (lat : Nat) (f : Cell → Word) : State :=
  issueSlot s c .S i (fun _ cell => { cell := addRes cell 0 lat (.s rd) (f cell) })

/-- An instruction of latency `lat` whose result goes to f[rd]. -/
def issueF (s : State) (c : CellRef) (i : Instr) (rd : BitVec 5) (lat : Nat) (f : Cell → Word) : State :=
  issueSlot s c .S i (fun _ cell => { cell := addRes cell 0 lat (.f rd) (f cell) })

def b32 (b : Bool) : Word := if b then 1 else 0

/-- The shift amount: bits [4:0] (R67). -/
def shamt (w : Word) : Nat := w.toNat % 32

/-- High 32 bits of the signed product. -/
def mulhS (a b : Word) : Word := BitVec.ofInt 32 ((a.toInt * b.toInt) / 4294967296)
/-- High 32 bits of the unsigned product. -/
def mulhU (a b : Word) : Word := BitVec.ofNat 32 ((a.toNat * b.toNat) / 4294967296)

/-- Signed quotient rounded toward zero; division by zero and the one overflow (R69). -/
def divS (a b : Word) : Word := if b = 0 then 0xFFFFFFFF else BitVec.ofInt 32 (Int.tdiv a.toInt b.toInt)
def divU (a b : Word) : Word := if b = 0 then 0xFFFFFFFF else BitVec.ofNat 32 (a.toNat / b.toNat)
/-- Remainder with the sign of the dividend (R69). -/
def remS (a b : Word) : Word := if b = 0 then a else BitVec.ofInt 32 (Int.tmod a.toInt b.toInt)
def remU (a b : Word) : Word := if b = 0 then a else BitVec.ofNat 32 (a.toNat % b.toNat)

/-- A divide: skipped with DIV_BUSY while the divider is busy, else it occupies the divider through c + 17 (R64), and
division by zero sets DIV0 (R69). -/
def issueDiv (s : State) (c : CellRef) (i : Instr) (rd ra rb : BitVec 5) (f : Word → Word → Word) : State :=
  issueSlot s c .S i (fun _ cell =>
    let r := addRes cell 0 18 (.s rd) (f (sreg cell ra) (sreg cell rb))
    { reason := if cell.now < cell.sc.divFree then some 7 else none
      cell := noteDiv0 { r with sc := { r.sc with divFree := cell.now + 18 } } (sreg cell rb) })

/-- A load: the word as stores that have landed left it; an uncorrectable word ends the context (R60, R65). -/
def issueLoad (s : State) (c : CellRef) (i : Instr) (dst : ResDst) (ra : BitVec 5) (imm : Word) : State :=
  issueSlot s c .S i (fun x cell =>
    let a := sreg cell ra + imm
    let idx := dmemIndex a
    let cell' := noteWrap cell a
    if Mem.rd .good cell.dmemErr (idx / 2) = .uncorrectable then
      { cell := cell', emit := { errs := [cellErr x cell s.clock.dome 0x0022 1 (4 * idx)] } }
    else { cell := addRes cell' 0 2 dst (Mem.rd 0 cell.dmem idx) })

/-- A store: it writes at the end of c + 1 (R65). -/
def issueStore (s : State) (c : CellRef) (i : Instr) (ra : BitVec 5) (imm : Word) (v : Cell → Word) : State :=
  issueSlot s c .S i (fun _ cell =>
    let a := sreg cell ra + imm
    let cell' := noteWrap cell a
    { cell := { cell' with sc := { cell'.sc with
        stores := cell'.sc.stores ++ [{ due := cell.now + 1, idx := dmemIndex a, val := v cell }] } } })

/-! ### The instructions -/

def execNop (c : CellRef) (sl : Slot) (s : State) : Host.Outcome State Fault Refusal :=
  .next (issueSlot s c sl (.nop c sl) (fun _ cell => { cell := cell }))

def execAdd (c : CellRef) (rd ra rb : BitVec 5) (s : State) : Host.Outcome State Fault Refusal :=
  .next (issueS s c (.add c rd ra rb) rd 1 (fun cell => sreg cell ra + sreg cell rb))

def execSub (c : CellRef) (rd ra rb : BitVec 5) (s : State) : Host.Outcome State Fault Refusal :=
  .next (issueS s c (.sub c rd ra rb) rd 1 (fun cell => sreg cell ra - sreg cell rb))

def execAnd (c : CellRef) (rd ra rb : BitVec 5) (s : State) : Host.Outcome State Fault Refusal :=
  .next (issueS s c (.and c rd ra rb) rd 1 (fun cell => sreg cell ra &&& sreg cell rb))

def execOr (c : CellRef) (rd ra rb : BitVec 5) (s : State) : Host.Outcome State Fault Refusal :=
  .next (issueS s c (.or c rd ra rb) rd 1 (fun cell => sreg cell ra ||| sreg cell rb))

def execXor (c : CellRef) (rd ra rb : BitVec 5) (s : State) : Host.Outcome State Fault Refusal :=
  .next (issueS s c (.xor c rd ra rb) rd 1 (fun cell => sreg cell ra ^^^ sreg cell rb))

def execSll (c : CellRef) (rd ra rb : BitVec 5) (s : State) : Host.Outcome State Fault Refusal :=
  .next (issueS s c (.sll c rd ra rb) rd 1 (fun cell => sreg cell ra <<< shamt (sreg cell rb)))

def execSrl (c : CellRef) (rd ra rb : BitVec 5) (s : State) : Host.Outcome State Fault Refusal :=
  .next (issueS s c (.srl c rd ra rb) rd 1 (fun cell => sreg cell ra >>> shamt (sreg cell rb)))

def execSra (c : CellRef) (rd ra rb : BitVec 5) (s : State) : Host.Outcome State Fault Refusal :=
  .next (issueS s c (.sra c rd ra rb) rd 1 (fun cell => (sreg cell ra).sshiftRight (shamt (sreg cell rb))))

def execSlt (c : CellRef) (rd ra rb : BitVec 5) (s : State) : Host.Outcome State Fault Refusal :=
  .next (issueS s c (.slt c rd ra rb) rd 1 (fun cell => b32 ((sreg cell ra).slt (sreg cell rb))))

def execSltu (c : CellRef) (rd ra rb : BitVec 5) (s : State) : Host.Outcome State Fault Refusal :=
  .next (issueS s c (.sltu c rd ra rb) rd 1 (fun cell => b32 ((sreg cell ra).ult (sreg cell rb))))

def execMin (c : CellRef) (rd ra rb : BitVec 5) (s : State) : Host.Outcome State Fault Refusal :=
  .next (issueS s c (.min c rd ra rb) rd 1 (fun cell => if (sreg cell rb).slt (sreg cell ra) then sreg cell rb else sreg cell ra))

def execMax (c : CellRef) (rd ra rb : BitVec 5) (s : State) : Host.Outcome State Fault Refusal :=
  .next (issueS s c (.max c rd ra rb) rd 1 (fun cell => if (sreg cell ra).slt (sreg cell rb) then sreg cell rb else sreg cell ra))

def execMinu (c : CellRef) (rd ra rb : BitVec 5) (s : State) : Host.Outcome State Fault Refusal :=
  .next (issueS s c (.minu c rd ra rb) rd 1 (fun cell => if (sreg cell rb).ult (sreg cell ra) then sreg cell rb else sreg cell ra))

def execMaxu (c : CellRef) (rd ra rb : BitVec 5) (s : State) : Host.Outcome State Fault Refusal :=
  .next (issueS s c (.maxu c rd ra rb) rd 1 (fun cell => if (sreg cell ra).ult (sreg cell rb) then sreg cell rb else sreg cell ra))

def execAddi (c : CellRef) (rd ra : BitVec 5) (imm : Word) (s : State) : Host.Outcome State Fault Refusal :=
  .next (issueS s c (.addi c rd ra imm) rd 1 (fun cell => sreg cell ra + imm))

def execAndi (c : CellRef) (rd ra : BitVec 5) (imm : Word) (s : State) : Host.Outcome State Fault Refusal :=
  .next (issueS s c (.andi c rd ra imm) rd 1 (fun cell => sreg cell ra &&& imm))

def execOri (c : CellRef) (rd ra : BitVec 5) (imm : Word) (s : State) : Host.Outcome State Fault Refusal :=
  .next (issueS s c (.ori c rd ra imm) rd 1 (fun cell => sreg cell ra ||| imm))

def execXori (c : CellRef) (rd ra : BitVec 5) (imm : Word) (s : State) : Host.Outcome State Fault Refusal :=
  .next (issueS s c (.xori c rd ra imm) rd 1 (fun cell => sreg cell ra ^^^ imm))

def execSlli (c : CellRef) (rd ra : BitVec 5) (imm : Word) (s : State) : Host.Outcome State Fault Refusal :=
  .next (issueS s c (.slli c rd ra imm) rd 1 (fun cell => sreg cell ra <<< shamt imm))

def execSrli (c : CellRef) (rd ra : BitVec 5) (imm : Word) (s : State) : Host.Outcome State Fault Refusal :=
  .next (issueS s c (.srli c rd ra imm) rd 1 (fun cell => sreg cell ra >>> shamt imm))

def execSrai (c : CellRef) (rd ra : BitVec 5) (imm : Word) (s : State) : Host.Outcome State Fault Refusal :=
  .next (issueS s c (.srai c rd ra imm) rd 1 (fun cell => (sreg cell ra).sshiftRight (shamt imm)))

def execSlti (c : CellRef) (rd ra : BitVec 5) (imm : Word) (s : State) : Host.Outcome State Fault Refusal :=
  .next (issueS s c (.slti c rd ra imm) rd 1 (fun cell => b32 ((sreg cell ra).slt imm)))

def execSltiu (c : CellRef) (rd ra : BitVec 5) (imm : Word) (s : State) : Host.Outcome State Fault Refusal :=
  .next (issueS s c (.sltiu c rd ra imm) rd 1 (fun cell => b32 ((sreg cell ra).ult imm)))

def execLi (c : CellRef) (rd ra : BitVec 5) (imm : Word) (s : State) : Host.Outcome State Fault Refusal :=
  .next (issueS s c (.li c rd ra imm) rd 1 (fun _ => imm))

def execMul (c : CellRef) (rd ra rb : BitVec 5) (s : State) : Host.Outcome State Fault Refusal :=
  .next (issueS s c (.mul c rd ra rb) rd 3 (fun cell => sreg cell ra * sreg cell rb))

def execMulh (c : CellRef) (rd ra rb : BitVec 5) (s : State) : Host.Outcome State Fault Refusal :=
  .next (issueS s c (.mulh c rd ra rb) rd 3 (fun cell => mulhS (sreg cell ra) (sreg cell rb)))

def execMulhu (c : CellRef) (rd ra rb : BitVec 5) (s : State) : Host.Outcome State Fault Refusal :=
  .next (issueS s c (.mulhu c rd ra rb) rd 3 (fun cell => mulhU (sreg cell ra) (sreg cell rb)))

def execDiv (c : CellRef) (rd ra rb : BitVec 5) (s : State) : Host.Outcome State Fault Refusal :=
  .next (issueDiv s c (.div c rd ra rb) rd ra rb divS)

def execDivu (c : CellRef) (rd ra rb : BitVec 5) (s : State) : Host.Outcome State Fault Refusal :=
  .next (issueDiv s c (.divu c rd ra rb) rd ra rb divU)

def execRem (c : CellRef) (rd ra rb : BitVec 5) (s : State) : Host.Outcome State Fault Refusal :=
  .next (issueDiv s c (.rem c rd ra rb) rd ra rb remS)

def execRemu (c : CellRef) (rd ra rb : BitVec 5) (s : State) : Host.Outcome State Fault Refusal :=
  .next (issueDiv s c (.remu c rd ra rb) rd ra rb remU)

def execFadd (c : CellRef) (rd ra rb : BitVec 5) (s : State) : Host.Outcome State Fault Refusal :=
  .next (issueF s c (.fadd c rd ra rb) rd 4 (fun cell => Machine.fadd (freg cell ra) (freg cell rb)))

def execFsub (c : CellRef) (rd ra rb : BitVec 5) (s : State) : Host.Outcome State Fault Refusal :=
  .next (issueF s c (.fsub c rd ra rb) rd 4 (fun cell => Machine.fsub (freg cell ra) (freg cell rb)))

def execFmul (c : CellRef) (rd ra rb : BitVec 5) (s : State) : Host.Outcome State Fault Refusal :=
  .next (issueF s c (.fmul c rd ra rb) rd 4 (fun cell => Machine.fmul (freg cell ra) (freg cell rb)))

def execFmin (c : CellRef) (rd ra rb : BitVec 5) (s : State) : Host.Outcome State Fault Refusal :=
  .next (issueF s c (.fmin c rd ra rb) rd 4 (fun cell => Machine.fmin (freg cell ra) (freg cell rb)))

def execFmax (c : CellRef) (rd ra rb : BitVec 5) (s : State) : Host.Outcome State Fault Refusal :=
  .next (issueF s c (.fmax c rd ra rb) rd 4 (fun cell => Machine.fmax (freg cell ra) (freg cell rb)))

def execFcvtsw (c : CellRef) (rd ra rb : BitVec 5) (s : State) : Host.Outcome State Fault Refusal :=
  .next (issueF s c (.fcvtsw c rd ra rb) rd 4 (fun cell => Machine.fcvtsw (sreg cell ra)))

/-- FCVTWS saturates and converts a NaN to 0, and sets CVT_SAT in both cases (R68). -/
def execFcvtws (c : CellRef) (rd ra rb : BitVec 5) (s : State) : Host.Outcome State Fault Refusal :=
  .next (issueSlot s c .S (.fcvtws c rd ra rb) (fun _ cell =>
    let v := Machine.fcvtws (freg cell ra)
    { cell := noteCvtSat (addRes cell 0 4 (.s rd) v.1) v.2 }))

def execFeq (c : CellRef) (rd ra rb : BitVec 5) (s : State) : Host.Outcome State Fault Refusal :=
  .next (issueS s c (.feq c rd ra rb) rd 2 (fun cell => b32 (Machine.feq (freg cell ra) (freg cell rb))))

def execFlt (c : CellRef) (rd ra rb : BitVec 5) (s : State) : Host.Outcome State Fault Refusal :=
  .next (issueS s c (.flt c rd ra rb) rd 2 (fun cell => b32 (Machine.flt (freg cell ra) (freg cell rb))))

def execFle (c : CellRef) (rd ra rb : BitVec 5) (s : State) : Host.Outcome State Fault Refusal :=
  .next (issueS s c (.fle c rd ra rb) rd 2 (fun cell => b32 (Machine.fle (freg cell ra) (freg cell rb))))

def execFmvsx (c : CellRef) (rd ra rb : BitVec 5) (s : State) : Host.Outcome State Fault Refusal :=
  .next (issueF s c (.fmvsx c rd ra rb) rd 1 (fun cell => sreg cell ra))

def execFmvxs (c : CellRef) (rd ra rb : BitVec 5) (s : State) : Host.Outcome State Fault Refusal :=
  .next (issueS s c (.fmvxs c rd ra rb) rd 1 (fun cell => freg cell ra))

def execFli (c : CellRef) (rd ra : BitVec 5) (imm : Word) (s : State) : Host.Outcome State Fault Refusal :=
  .next (issueF s c (.fli c rd ra imm) rd 1 (fun _ => imm))

def execLw (c : CellRef) (rd ra : BitVec 5) (imm : Word) (s : State) : Host.Outcome State Fault Refusal :=
  .next (issueLoad s c (.lw c rd ra imm) (.s rd) ra imm)

def execFlw (c : CellRef) (rd ra : BitVec 5) (imm : Word) (s : State) : Host.Outcome State Fault Refusal :=
  .next (issueLoad s c (.flw c rd ra imm) (.f rd) ra imm)

def execSw (c : CellRef) (rs ra : BitVec 5) (imm : Word) (s : State) : Host.Outcome State Fault Refusal :=
  .next (issueStore s c (.sw c rs ra imm) ra imm (fun cell => sreg cell rs))

def execFsw (c : CellRef) (rs ra : BitVec 5) (imm : Word) (s : State) : Host.Outcome State Fault Refusal :=
  .next (issueStore s c (.fsw c rs ra imm) ra imm (fun cell => freg cell rs))

/-- OVL reads a row at its issue cycle c; the group executes its new contents from c + 6 on (R61). -/
def execOvl (c : CellRef) (row : BitVec 10) (group : BitVec 7) (s : State) : Host.Outcome State Fault Refusal :=
  .next (issueSlot s c .S (.ovl c row group) (fun x cell =>
    let r := readRow x cell s.clock.dome row.toNat
    { reads := [row.toNat]
      cell := match r.2.1 with
        | none => r.1
        | some v => { r.1 with sc := { r.1.sc with
            overlays := r.1.sc.overlays ++ [{ due := cell.now + 5, group := group.toNat, row := v }] } }
      emit := r.2.2 }))

end Sys2Proof.Machine
end

