-- ==== Sys2Proof/Machine/Control.lean ====
section
/-!
DEFINITION. Sys2Proof/Machine/Control.lean: branches, loops and HALT (R70 to R79), the end of a course, and the landing
of scalar results, stores and overlays (R61, R63 to R65).
-/
namespace Sys2Proof.Machine

/-- A control instruction in a delay course is skipped with DELAY_CONTROL (R71). -/
def delayReason (cell : Cell) : Option Nat := if cell.ctl.delay = 0 then none else some 5

/-- A marked instruction enters a free-running section with the next course (R46, R72). -/
def enterFree (ctl : Control) (dd : Bool) : Control := { ctl with entering := ctl.entering || (dd && !ctl.free) }

/-- A branch: two delay courses follow it, then the target if it is taken (R70). -/
def issueBranch (s : State) (c : CellRef) (i : Instr) (dd : Bool) (taken : Cell → Bool)
    (target : Cell → BitVec 11) : State :=
  issueSlot s c .S i (fun _ cell =>
    { reason := delayReason cell
      cell := { cell with ctl := enterFree { cell.ctl with
        delay := 3, target := if taken cell then some (target cell) else none } dd } })

def execBeq (c : CellRef) (ra rb : BitVec 5) (dd : Bool) (target : BitVec 11) (s : State) :
    Host.Outcome State Fault Refusal :=
  .next (issueBranch s c (.beq c ra rb dd target) dd (fun cell => decide (sreg cell ra = sreg cell rb))
    (fun _ => target))

def execBne (c : CellRef) (ra rb : BitVec 5) (dd : Bool) (target : BitVec 11) (s : State) :
    Host.Outcome State Fault Refusal :=
  .next (issueBranch s c (.bne c ra rb dd target) dd (fun cell => decide (sreg cell ra ≠ sreg cell rb))
    (fun _ => target))

def execBlt (c : CellRef) (ra rb : BitVec 5) (dd : Bool) (target : BitVec 11) (s : State) :
    Host.Outcome State Fault Refusal :=
  .next (issueBranch s c (.blt c ra rb dd target) dd (fun cell => (sreg cell ra).slt (sreg cell rb))
    (fun _ => target))

def execBge (c : CellRef) (ra rb : BitVec 5) (dd : Bool) (target : BitVec 11) (s : State) :
    Host.Outcome State Fault Refusal :=
  .next (issueBranch s c (.bge c ra rb dd target) dd (fun cell => !(sreg cell ra).slt (sreg cell rb))
    (fun _ => target))

def execBltu (c : CellRef) (ra rb : BitVec 5) (dd : Bool) (target : BitVec 11) (s : State) :
    Host.Outcome State Fault Refusal :=
  .next (issueBranch s c (.bltu c ra rb dd target) dd (fun cell => (sreg cell ra).ult (sreg cell rb))
    (fun _ => target))

def execBgeu (c : CellRef) (ra rb : BitVec 5) (dd : Bool) (target : BitVec 11) (s : State) :
    Host.Outcome State Fault Refusal :=
  .next (issueBranch s c (.bgeu c ra rb dd target) dd (fun cell => !(sreg cell ra).ult (sreg cell rb))
    (fun _ => target))

def execJ (c : CellRef) (ra rb : BitVec 5) (dd : Bool) (target : BitVec 11) (s : State) :
    Host.Outcome State Fault Refusal :=
  .next (issueBranch s c (.j c ra rb dd target) false (fun _ => true) (fun _ => target))

/-- JAL also writes (address of JAL + 3) mod 2,048 to s[RA]. -/
def execJal (c : CellRef) (ra rb : BitVec 5) (dd : Bool) (target : BitVec 11) (s : State) :
    Host.Outcome State Fault Refusal :=
  .next (issueSlot s c .S (.jal c ra rb dd target) (fun _ cell =>
    { reason := delayReason cell
      cell := addRes { cell with ctl := { cell.ctl with delay := 3, target := some target } } 0 1 (.s ra)
        ((cell.ctl.pc + 3).setWidth 32) }))

/-- JR branches to bits [10:0] of s[RA]. -/
def execJr (c : CellRef) (ra rb : BitVec 5) (dd : Bool) (target : BitVec 11) (s : State) :
    Host.Outcome State Fault Refusal :=
  .next (issueBranch s c (.jr c ra rb dd target) dd (fun _ => true) (fun cell => (sreg cell ra).setWidth 11))

/-- The loop count (R75). -/
def loopCount (cell : Cell) (ra : BitVec 5) (reg : Bool) (count : BitVec 20) : Nat :=
  if reg then min (sreg cell ra).toNat 1048575 else count.toNat

/-- LOOP pushes its entry, or with count 0 skips its body (R75, R76, R79). -/
def execLoop (c : CellRef) (ra : BitVec 5) (reg dd : Bool) (count : BitVec 20) (last : BitVec 11) (s : State) :
    Host.Outcome State Fault Refusal :=
  .next (issueSlot s c .S (.loop c ra reg dd count last) (fun _ cell =>
    let n := loopCount cell ra reg count
    let ctl := enterFree cell.ctl dd
    let ctl :=
      if n = 0 then { ctl with zeroEnd := some last }
      else { ctl with loops := { first := cell.ctl.pc + 1, last := last, remaining := n } :: ctl.loops }
    { illegal := decide (last.toNat ≤ cell.ctl.pc.toNat)
      reason := match delayReason cell with
        | some r => some r
        | none => if cell.ctl.loops.length ≥ 4 then some 6 else none
      cell := noteClamp { cell with ctl := ctl } (reg && decide ((sreg cell ra).toNat > 1048575)) }))

/-- HALT: the cell issues no further course (R74). -/
def execHalt (c : CellRef) (s : State) : Host.Outcome State Fault Refusal :=
  .next (issueSlot s c .S (.halt c) (fun _ cell =>
    { reason := delayReason cell, cell := { cell with ctl := { cell.ctl with halting := true } } }))

/-! ### The end of a course (R59, R70, R72, R74, R76, R77) -/

/-- The sequential successor of address `p`, and the loop stack after it (R77). -/
def successor (p : BitVec 11) : List LoopEntry → List LoopEntry × BitVec 11
  | [] => ([], p + 1)
  | e :: es =>
    if p = e.last then
      if e.remaining > 1 then ({ e with remaining := e.remaining - 1 } :: es, e.first) else successor p es
    else (e :: es, p + 1)

/-- Entries popped before a branch target executes: those whose range does not contain it, from the top (R77). -/
def popOutside (t : BitVec 11) : List LoopEntry → List LoopEntry
  | [] => []
  | e :: es => if e.first.toNat ≤ t.toNat ∧ t.toNat ≤ e.last.toNat then e :: es else popOutside t es

/-- Where control goes after the course. -/
def nextAddress (ctl : Control) : Control :=
  if ctl.empties > 0 then { ctl with empties := ctl.empties - 1 }
  else match ctl.zeroEnd with
    | some e =>
      let r := successor e ctl.loops
      { ctl with pc := r.2, loops := r.1, empties := 2, zeroEnd := none }
    | none =>
      let r := successor ctl.pc ctl.loops
      if ctl.delay = 1 then
        match ctl.target with
        | some t => { ctl with pc := t, loops := popOutside t r.1, delay := 0, target := none }
        | none => { ctl with pc := r.2, loops := r.1, delay := 0 }
      else { ctl with pc := r.2, loops := r.1, delay := ctl.delay - 1 }

/-- The course count: it starts at 0 with the section and counts its courses (R72). -/
def countCourse (ctl : Control) : Control :=
  if ctl.entering then { ctl with free := true, entering := false, courseCtr := 0 }
  else if ctl.free then { ctl with courseCtr := satInc 0xFFFFFFFF ctl.courseCtr }
  else ctl

/-- The course of this cycle ends: nothing where the cell executed none, as after HALT (log entry 87). -/
def endCourse (ctl : Control) : Control :=
  if ctl.live then
    let c := countCourse (nextAddress ctl)
    { c with halted := c.halted || c.halting, live := false, issued := [] }
  else { ctl with issued := [] }

/-! ### Landings of the scalar processor -/

def landRes (sc : Scalar) (r : Res) : Scalar :=
  match r.dst with
  | .s d => if d = 0 then sc else { sc with s := sc.s.set d.toNat r.val }
  | .f d => { sc with f := sc.f.set (d.toNat % 16) r.val (Nat.mod_lt _ (by decide)) }

/-- Results due by now land, the later-issued last; of two issued in one cycle the higher slot's stands (R64). -/
def landResults (cell : Cell) : Cell :=
  let due := sortBy (fun r => 8 * r.issued + (7 - r.rank)) (cell.sc.res.filter (fun r => decide (r.due ≤ cell.now)))
  { cell with sc := due.foldl landRes { cell.sc with res := cell.sc.res.filter (fun r => !decide (r.due ≤ cell.now)) } }

/-- Stores due by now write data memory (R65). -/
def landStores (cell : Cell) : Cell :=
  let due := cell.sc.stores.filter (fun r => decide (r.due ≤ cell.now))
  let cell := { cell with sc := { cell.sc with stores := cell.sc.stores.filter (fun r => !decide (r.due ≤ cell.now)) } }
  due.foldl (fun cl st => { cl with dmem := Mem.wr 0 cl.dmem st.idx st.val }) cell

/-- Replace the 16 courses of a group (R61). -/
def overlayGroup (m : Mem Course) (group : Nat) (row : Row) : Mem Course :=
  (List.range 16).foldl (fun m j => Mem.wr 0 m (16 * group + j) (row.extractLsb' (256 * j) 256)) m

/-- Overlays land: the cycles that R61 names are the cell's clock cycles, waits included (log entry 88). -/
def landOverlays (cell : Cell) : Cell :=
  let due := cell.sc.overlays.filter (fun r => decide (r.due ≤ cell.now))
  let cell := { cell with sc := { cell.sc with
    overlays := cell.sc.overlays.filter (fun r => !decide (r.due ≤ cell.now)) } }
  due.foldl (fun cl o => { cl with
    imem := overlayGroup cl.imem o.group o.row
    imemErr := cl.imemErr.filter (fun e => decide (e.1 / 64 ≠ o.group)) }) cell

end Sys2Proof.Machine
end

