-- ==== Sys2Proof/Machine/Tensor.lean ====
section
/-!
DEFINITION. Sys2Proof/Machine/Tensor.lean: the tensor row (chapter 05) and the anchored accumulator (R88 to R96, R100,
R101): passes and their steps, loads, drains, clears, and what lands in the row at the end of a cycle.
-/
namespace Sys2Proof.Machine

/-! ### Step geometry (R104 to R108) -/

/-- Elements per lane of one step (Table 5.2). -/
def stepElems (code : Nat) : Nat :=
  match container code with
  | 16 => 4 | 8 => 16 | 4 => 32 | _ => 256

/-- 4-byte units of an operand read or a row read (Table 5.2). -/
def stepUnits (code : Nat) : Nat :=
  match container code with
  | 16 => 2 | 1 => 8 | _ => 4

/-- Weight units by which a weight address is rounded (R108). -/
def weightUnits (code : Nat) (transp : Bool) : Nat :=
  if transp then (if container code = 16 then 1 else 4) else stepUnits code

/-- The loop indices of step `n`, level 0 first (R111). -/
def loopIndices : List Nat → Nat → List Nat
  | [], _ => []
  | c :: cs, n => n % c :: loopIndices cs (n / c)

/-- base + sum of index * stride, modulo `m` (R111). -/
def loopAddress (base : Nat) (idx : List Nat) (strides : List Word) (m : Nat) : Nat :=
  (((List.zipWith (fun (i : Nat) (s : Word) => (i : Int) * s.toInt) idx strides).foldl (· + ·) (base : Int)) % m).toNat

/-- Operand address, weight address and bank of step `n`, before rounding. -/
def stepAddresses (d : PassDesc) (n : Nat) : Nat × Nat × Nat :=
  let idx := loopIndices (d.cnt.toList.map (·.toNat)) n
  (loopAddress (fld d.base 7 0) idx d.ostr.toList 256, loopAddress (fld d.base 12 8) idx d.wstr.toList 32,
    loopAddress (fld d.base 17 16) idx d.bstr.toList 4)

/-- The addresses of step `n` as rounded, and whether rounding changed one (R108). -/
def roundedStep (p : Pass) (n : Nat) : Nat × Nat × Nat × Bool :=
  let a := stepAddresses p.desc n
  let ou := stepUnits p.ofmt
  let wu := weightUnits p.wfmt p.transp
  let oa := a.1 / ou * ou
  let wa := a.2.1 / wu * wu
  (oa, wa, a.2.2, decide (oa ≠ a.1) || decide (wa ≠ a.2.1))

/-- Steps of a pass: the product of its six counts (R112). -/
def passSteps (d : PassDesc) : Nat := d.cnt.toList.foldl (fun acc c => acc * c.toNat) 1

/-- An element from a container: a 6-bit format uses bits [5:0] of a byte (R109). -/
def contained (code bits : Nat) : Nat := bits % 2 ^ widthOf code

/-- Operand element `k` of a step (R108). -/
def operandElem (t : Tensor) (code oa k : Nat) : Nat :=
  let row := if oa < 128 then t.ob[0] else t.ob[1]
  let w := container code
  contained code ((row.toNat >>> (32 * (oa % 128) + w * k)) % 2 ^ w)

/-- Slot row `r` of slot `slot` of the tile store. -/
def slotRow (t : Tensor) (slot r : Nat) : Nat := (Mem.rd 0 t.tiles (32 * slot + r)).toNat

/-- Weight element `k` of lane `i`: a row read (R106) or a column read (R107). -/
def weightElem (t : Tensor) (code wa : Nat) (transp : Bool) (i k : Nat) : Nat :=
  let w := container code
  if transp then
    if w = 16 then (slotRow t (2 * (wa / 16) + i / 16) (4 * (wa % 8) + k) >>> (16 * (i % 16))) % 65536
    else (slotRow t (wa / 8) (4 * (wa % 8) + k) >>> (8 * i)) % 256
  else contained code ((slotRow t (wa / 8) i >>> (32 * (wa % 8) + w * k)) % 2 ^ w)

/-- The scales of the operand block and of lane `i`'s weight block (R110). -/
def stepScales (t : Tensor) (code oa wa i : Nat) : Nat × Nat :=
  let buf := if oa < 128 then t.obScale[0] else t.obScale[1]
  let perByte := if container code = 4 then 2 else 1
  let ob := 4 * (oa % 128) * perByte / 32
  let q := 4 * (wa % 8) * perByte / 32
  let ss : Codeword := t.slotScale[wa / 8 % 4]'(Nat.mod_lt _ (by decide))
  ((buf.toNat >>> (8 * ob)) % 256, (ss.toNat >>> (8 * (2 * i + q))) % 256)

/-! ### Contributions (R88, R93, R115, R117) -/

/-- The value of one element pair in a mode (Table 5.3). -/
def pairValue (mode : Nat) (a w : FVal) : FVal :=
  match mode with
  | 0 => mulV a w
  | 1 => match addV a (negV w) with | .fin _ m e => .fin false m e | .inf _ => .inf false | .nan => .nan
  | 2 => match addV a (negV w) with | .fin _ m e => .fin false (m * m) (e + e) | .inf _ => .inf false | .nan => .nan
  | 6 => match addV a (negV w) with
    | .fin n m _ => .fin false (if m ≠ 0 ∧ !n then 1 else 0) 0 | .inf _ => .inf false | .nan => .nan
  | _ => addV a w

/-- A value as a contribution. -/
def contribOf : FVal → Contrib
  | .nan => { nan := true }
  | .inf n => { pinf := !n, ninf := n }
  | .fin n m e => { sum := if n then -(m : Int) else (m : Int), e := e }

/-- The exact sum of two parts of one block, with both parts' flags. -/
def Contrib.join (a b : Contrib) : Contrib :=
  let base := min a.e b.e
  { sum := a.sum * 2 ^ (a.e - base).toNat + b.sum * 2 ^ (b.e - base).toNat, e := base,
    nan := a.nan || b.nan, pinf := a.pinf || b.pinf, ninf := a.ninf || b.ninf }

def Contrib.special (c : Contrib) : Bool := c.nan || c.pinf || c.ninf

/-- Truncation to a multiple of 2^L toward minus infinity, in units of 2^L, and whether a part was lost (R90). -/
def truncTo (c : Contrib) (lsb : Int) : Int × Bool :=
  if lsb ≤ c.e then (c.sum * 2 ^ (c.e - lsb).toNat, false)
  else
    let d : Int := 2 ^ (lsb - c.e).toNat
    (c.sum / d, decide (c.sum % d ≠ 0))

/-- A finite contribution reaches 2^A in magnitude (R92). -/
def reachesAnchor (c : Contrib) (anchor : Int) : Bool :=
  if anchor ≤ c.e then decide (c.sum ≠ 0) else decide ((2 : Int) ^ (anchor - c.e).toNat ≤ c.sum.natAbs)

/-- The exponent of the accumulator's least significant bit (R89). -/
def lsbOf (cls : FmtClass) (anchor : Int) : Int :=
  match cls with
  | .fp8 => -32
  | .f16 => anchor - 135
  | .mx => anchor - 135
  | _ => 0

/-- The classes to which the anchor applies (R92). -/
def anchored (cls : FmtClass) : Bool := decide (cls = .f16) || decide (cls = .mx)

/-- The better of two candidates: smaller (or greater) value, then smaller index (R118). -/
def better (mode : Nat) (a b : Int × Word) : Int × Word :=
  if a.1 = b.1 then (if b.2.toNat < a.2.toNat then b else a)
  else if (if mode = 3 then b.1 < a.1 else a.1 < b.1) then b else a

def betterOpt (mode : Nat) (a : Option (Int × Word)) (b : Int × Word) : Option (Int × Word) :=
  match a with
  | none => some b
  | some a => some (better mode a b)

/-- Add one contribution to what a step brings one lane. The selection modes compare contributions as W holds them, modulo 2^160,
so that the lane depends on their multiset alone (R92, R94; log entry 85). -/
def LaneAdd.add (p : Pass) (acc : LaneAdd) (c : Contrib) (idx : Word) : LaneAdd :=
  let cls := classOf p.ofmt
  let acc := { acc with cnt := acc.cnt + 1 }
  if c.special then { acc with nan := acc.nan || c.nan, pinf := acc.pinf || c.pinf, ninf := acc.ninf || c.ninf }
  else
    let t := truncTo c (lsbOf cls p.anchor)
    let acc := { acc with
      loss := acc.loss || t.2, ovf := acc.ovf || (anchored cls && reachesAnchor c p.anchor) }
    if p.mode = 3 ∨ p.mode = 4 then { acc with best := betterOpt p.mode acc.best ((BitVec.ofInt 160 t.1).toInt, idx) }
    else { acc with sum := acc.sum + t.1 }

/-- The index of operand element `k` of a step (R118). -/
def elemIndex (t : Tensor) (code oa k : Nat) : Word :=
  let base := if oa < 128 then t.obidx[0] else t.obidx[1]
  base + BitVec.ofNat 32 (32 * (oa % 128) / container code + k)

/-- What a step of a class other than MX brings lane `i`. -/
def laneStep (p : Pass) (t : Tensor) (oa wa i : Nat) : LaneAdd :=
  (List.range (stepElems p.ofmt)).foldl (fun acc k =>
    let a := operandElem t p.ofmt oa k
    let w := weightElem t p.wfmt wa p.transp i k
    let c : Contrib :=
      if p.mode = 5 then { sum := if a = w then 0 else 1 }
      else contribOf (pairValue p.mode (elemVal p.ofmt a) (elemVal p.wfmt w))
    acc.add p c (elemIndex t p.ofmt oa k)) {}

/-- The dot product of a step of an MX pass in lane `i`, times its scales. -/
def mxPart (p : Pass) (t : Tensor) (oa wa i : Nat) : Contrib :=
  let sc := stepScales t p.ofmt oa wa i
  (List.range (stepElems p.ofmt)).foldl (fun acc k =>
    let a := scaleV sc.1 (elemVal p.ofmt (operandElem t p.ofmt oa k))
    let w := scaleV sc.2 (elemVal p.wfmt (weightElem t p.wfmt wa false i k))
    acc.join (contribOf (mulV a w))) {}

/-- A step is the first half of a block that the next step of its pass completes (R110). -/
def firstHalf (p : Pass) (n : Nat) : Bool :=
  let a := roundedStep p n
  let b := roundedStep p (n + 1)
  decide (container p.ofmt = 8) && decide (a.1 % 8 = 0) && decide (a.2.1 % 8 = 0) && decide (n + 1 < p.total) &&
    decide (b.2.2.1 = a.2.2.1) && decide (b.1 = a.1 + 4) && decide (b.2.1 = a.2.1 + 4)

/-- One step of the pass: the row after it. Its contributions are due three cycles later (R112); ALIGN is set at the step (log
entry 89). -/
def passStepOn (now : Nat) (t : Tensor) (p : Pass) : Tensor :=
  let n := p.done
  let r := roundedStep p n
  let cls := classOf p.ofmt
  let latch : Latch := { mode := p.mode, cls := cls, lsb := lsbOf cls p.anchor, fmt := p.ofmt }
  let t := { t with align := t.align || r.2.2.2 }
  let lanes := List.range 32
  if cls = .mx then
    let parts := lanes.map (fun i => mxPart p t r.1 r.2.1 i)
    let parts := match p.half with
      | some h => List.zipWith Contrib.join h parts
      | none => parts
    if p.half.isNone && firstHalf p n then { t with pass := some { p with done := n + 1, half := some parts } }
    else { t with
      pass := some { p with done := n + 1, half := none }
      adds := t.adds ++ [⟨now + 3, r.2.2.1, latch, parts.map (fun c => LaneAdd.add p {} c 0)⟩] }
  else { t with
    pass := some { p with done := n + 1 }
    adds := t.adds ++ [⟨now + 3, r.2.2.1, latch, lanes.map (fun i => laneStep p t r.1 r.2.1 i)⟩] }

/-! ### Banks -/

/-- The residue of a value (R100). -/
def residueOf (w : Int) : BitVec 12 := BitVec.ofNat 12 (w % 4095).toNat

/-- An accumulator agrees with its residue; one with OVER set is not checked (R101). -/
def laneSound (l : Lane) : Bool := l.ovf || decide (l.res = residueOf l.w.toInt)

/-- Add to an accumulator what one step brings it (R90 to R93, R100). In the selection modes a value that is kept keeps its
residue, and a new one comes with that of its contribution (R118). -/
def Lane.take (mode : Nat) (anch : Bool) (l : Lane) (a : LaneAdd) : Lane :=
  let cnt := l.cnt + a.cnt
  let l := { l with
    loss := l.loss || a.loss, nan := l.nan || a.nan, pinf := l.pinf || a.pinf, ninf := l.ninf || a.ninf, cnt := cnt,
    ovf := l.ovf || a.ovf || (anch && decide (cnt > 16777216)) }
  if mode = 3 ∨ mode = 4 then
    match a.best with
    | none => l
    | some b =>
      let v := (BitVec.ofInt 160 b.1).toInt
      if l.sel && decide (better mode (l.w.toInt, l.idx) (v, b.2) = (l.w.toInt, l.idx)) then l
      else { l with w := BitVec.ofInt 160 v, res := residueOf v, sel := true, idx := b.2 }
  else { l with
    w := l.w + BitVec.ofInt 160 a.sum
    res := BitVec.ofNat 12 ((l.res.toNat + (residueOf a.sum).toNat) % 4095) }

def laneAt (b : Bank) (i : Nat) : Lane := Mem.rd {} b.lanes i

/-- The banks' lanes with a change, every lane in turn. -/
def Bank.onLanes (b : Bank) (f : Nat → Lane → Lane) : Bank :=
  { b with lanes := (List.range 32).foldl (fun m i => Mem.wr {} m i (f i (laneAt b i))) b.lanes }

def Tensor.bank (t : Tensor) (i : Nat) : Bank := t.banks[i % 4]'(Nat.mod_lt _ (by decide))
def Tensor.setBank (t : Tensor) (i : Nat) (b : Bank) : Tensor :=
  { t with banks := t.banks.set (i % 4) b (Nat.mod_lt _ (by decide)) }

/-- Contributions reach their bank (R114). -/
def landAdd (t : Tensor) (a : StepAdd) : Tensor :=
  let b := t.bank a.bank
  let mixed := match b.latch with
    | none => false
    | some l => decide (l.mode ≠ a.latch.mode) || decide (l.cls ≠ a.latch.cls) || decide (l.lsb ≠ a.latch.lsb)
  if mixed then
    { t.setBank a.bank (b.onLanes (fun _ l => { l with ovf := true })) with mix := true, overAny := true }
  else
    let b := { b with latch := some (b.latch.getD a.latch) }
    let anch := anchored a.latch.cls
    let b' := b.onLanes (fun i l => Lane.take a.latch.mode anch l (a.lanes.getD i {}))
    let any (f : Lane → Bool) := (List.range 32).any (fun i => f (laneAt b' i))
    { t.setBank a.bank b' with
      lossAny := t.lossAny || a.lanes.any (·.loss)
      overAny := t.overAny || a.lanes.any (·.ovf) || any (fun l => anch && decide (l.cnt > 16777216)) }

/-- Write what a load carries into its destination (R119). -/
def landTensLoad (t : Tensor) (l : TensLoad) : Tensor :=
  match l.dst with
  | .tile slot half => { t with
      tiles := (List.range 16).foldl
        (fun m r => Mem.wr 0 m (32 * slot + 16 * half + r) (l.data.extractLsb' (256 * r) 256)) t.tiles }
  | .opbuf b => { t with ob := t.ob.set (b % 2) l.data (Nat.mod_lt _ (by decide)) }
  | .slotScale s => { t with slotScale := t.slotScale.set (s % 4) (l.data.setWidth 512) (Nat.mod_lt _ (by decide)) }
  | .opScale b => { t with obScale := t.obScale.set (b % 2) (l.data.setWidth 256) (Nat.mod_lt _ (by decide)) }

/-- The end of a cycle in the row: loads land, then clears, then contributions (R121, Table 5.8). -/
def landTensor (cell : Cell) : Cell :=
  let t := cell.tens
  let now := cell.now
  let t1 := (t.loads.filter (fun l => decide (l.due ≤ now))).foldl landTensLoad
    { t with loads := t.loads.filter (fun l => !decide (l.due ≤ now)) }
  let t2 := (t1.clears.filter (fun l => decide (l.1 ≤ now))).foldl (fun t l => t.setBank l.2 {})
    { t1 with clears := t1.clears.filter (fun l => !decide (l.1 ≤ now)) }
  let t3 := (t2.adds.filter (fun l => decide (l.due ≤ now))).foldl landAdd
    { t2 with adds := t2.adds.filter (fun l => !decide (l.due ≤ now)) }
  { cell with tens := t3 }

/-- Residue mismatches of the row's banks after the additions of a cycle (R101). -/
def tensorErrors (x : Ctx) (cell : Cell) (dome : Nat) : List ErrRec :=
  (List.range 4).flatMap (fun b =>
    ((List.range 32).filter (fun i => !laneSound (laneAt (cell.tens.bank b) i))).map
      (fun i => cellErr x cell dome 0x0020 2 (64 * b + i)))

/-! ### Drains (R95, R96, R120, R122) -/

/-- The exact value of an accumulator of exponent `lsb` as R95 delivers it. -/
def drainValue (nan pinf ninf ovf : Bool) (w lsb : Int) : FVal :=
  if nan || (pinf && ninf) then .nan
  else if pinf then .inf false
  else if ninf then .inf true
  else if ovf then .nan
  else if w = 0 then .fin false 0 0
  else .fin (decide (w < 0)) w.natAbs lsb

/-- What one lane drains: its 32 bits, and whether SPECIAL_ANY and DRAIN_SAT_ANY are set. With IDX the value is judged as FP32 (log
entry 90). -/
def drainLane (b : Bank) (dfmt : Nat) (idx : Bool) (i : Nat) : Word × Bool × Bool :=
  let l := laneAt b i
  let lsb := match b.latch with | some x => x.lsb | none => 0
  let v := drainValue l.nan l.pinf l.ninf l.ovf l.w.toInt lsb
  if idx then
    let bad := match encodeIeee fp32Fmt v with | n => decide (n / 2 ^ 23 % 256 = 255)
    (if bad || !l.sel then 0xFFFFFFFF else l.idx, false, false)
  else if dfmt = 0xE then
    if l.ovf then (0x80000000, false, true)
    else
      let r := cvtInt (-2147483648) 2147483647 (ofIntV l.w.toInt)
      (word r.1, false, r.2)
  else if dfmt = 0x1 then
    let n := encodeIeee bf16Fmt v
    (BitVec.ofNat 32 (n * 65536), decide (n / 128 % 256 = 255), false)
  else
    let n := encodeIeee fp32Fmt v
    (BitVec.ofNat 32 n, decide (n / 2 ^ 23 % 256 = 255), false)

/-- The state-dependent legality of a drain (R122). -/
def drainLegal (b : Bank) (dfmt : Nat) (idx : Bool) : Bool :=
  match b.latch with
  | none => true
  | some l =>
    if idx then decide (l.mode = 3) || decide (l.mode = 4)
    else decide (dfmt ≠ 0xE) || decide (l.cls = .int) || decide (l.cls = .bin)

/-! ### The instructions -/

/-- A row number of 640 or more is skipped with ROW_RANGE, code `code` of the unit (R119, R140, R247). -/
def rowRange (code n : Nat) : Option Nat := if n ≥ 640 then some code else none

/-- A load of the row: it reads its scratchpad row now and writes its destination at the end of c + 2 (R119). -/
def issueTensLoad (s : State) (c : CellRef) (i : Instr) (rs : BitVec 5) (rowoff : BitVec 10) (dst : LoadDst)
    (form : Row → Row) : State :=
  issueSlot s c .T i (fun x cell =>
    let n := rowNumber (sreg cell rs) rowoff.toNat
    let r := readRow x cell s.clock.dome n
    { reason := rowRange 9 n, reads := [n]
      cell := match r.2.1 with
        | none => r.1
        | some v => { r.1 with tens := { r.1.tens with
            loads := r.1.tens.loads ++ [{ due := cell.now + 2, dst := dst, data := form v }] } }
      emit := r.2.2 })

/-- 512 six-bit elements into 512 byte containers (R109). -/
def unpack6 (v : Row) : Row := packElems 8 ((List.range 512).map (fun k => (v.toNat >>> (6 * k)) % 64))

/-- The row is busy through the last step of its pass (R112). -/
def trowBusy (cell : Cell) : Bool :=
  match cell.tens.pass with
  | some p => decide (cell.now < p.start + p.total)
  | none => false

/-- TPASS latches its descriptor and starts a pass (R112). -/
def execTpass (c : CellRef) (mode : BitVec 3) (ofmt wfmt : BitVec 4) (transp : Bool) (desc : BitVec 2)
    (anchor : BitVec 10) (s : State) : Host.Outcome State Fault Refusal :=
  .next (issueSlot s c .T (.tpass c mode ofmt wfmt transp desc anchor) (fun _ cell =>
    let d := cell.tens.descs[desc.toNat]'(desc.isLt)
    let p : Pass := { desc := d, mode := mode.toNat, ofmt := ofmt.toNat, wfmt := wfmt.toNat, transp := transp,
                      anchor := anchor.toInt, start := cell.now, done := 0, total := passSteps d, half := none }
    { reason := if trowBusy cell then some 8 else none
      cell := { cell with tens := { cell.tens with pass := some p, passDesc := desc } } }))

/-- A step of the running pass, in its cycle (R112, R113). -/
def execPassStep (c : CellRef) (s : State) : Host.Outcome State Fault Refusal :=
  .next (match s.cell? c with
    | none => s
    | some cell =>
      let x := s.ctx c.ctx.val
      if executing x && !s.unrecoverable && !cellFrozen x cell then
        match cell.tens.pass with
        | none => s
        | some p =>
          if p.done < p.total ∧ p.start + p.done = cell.now then
            s.setCell c { cell with tens := passStepOn cell.now cell.tens p }
          else s
      else s)

def execWld (c : CellRef) (rs : BitVec 5) (rowoff : BitVec 10) (slot : BitVec 2) (half pack6 : Bool) (s : State) :
    Host.Outcome State Fault Refusal :=
  .next (issueTensLoad s c (.wld c rs rowoff slot half pack6) rs rowoff (.tile slot.toNat (b01 half))
    (fun v => if pack6 then unpack6 v else v))

def execOpld (c : CellRef) (rs : BitVec 5) (rowoff : BitVec 10) (buf pack6 : Bool) (s : State) :
    Host.Outcome State Fault Refusal :=
  .next (issueTensLoad s c (.opld c rs rowoff buf pack6) rs rowoff (.opbuf (b01 buf))
    (fun v => if pack6 then unpack6 v else v))

/-- SCLD copies bytes 64 * OFF to 64 * OFF + 63 of the row (R119). -/
def execScld (c : CellRef) (rs : BitVec 5) (rowoff : BitVec 10) (dst off : BitVec 3) (s : State) :
    Host.Outcome State Fault Refusal :=
  .next (issueTensLoad s c (.scld c rs rowoff dst off) rs rowoff
    (if dst.toNat < 4 then .slotScale dst.toNat else .opScale (dst.toNat - 4))
    (fun v => v >>> (512 * off.toNat)))

/-- TDRAIN writes a tile-register row at the end of d + 1; CLR clears the bank at the end of d (R120, R121). A lane whose
value disagrees with its residue is not drained, and the mismatch ends the context (R101). The flags are set at the issue (log
entry 89). -/
def execTdrain (c : CellRef) (bank : BitVec 2) (tr : BitVec 4) (trow : BitVec 5) (dfmt : BitVec 4) (idx clr : Bool)
    (s : State) : Host.Outcome State Fault Refusal :=
  .next (issueSlot s c .T (.tdrain c bank tr trow dfmt idx clr) (fun x cell =>
    let b := cell.tens.bank bank.toNat
    let rs := (List.range 32).map (fun i => drainLane b dfmt.toNat idx i)
    let bad := (List.range 32).filter (fun i => !laneSound (laneAt b i))
    let lanes : Word := bad.foldl (fun (m : Word) i => m &&& ~~~(1#32 <<< i)) 0xFFFFFFFF#32
    let t := { cell.tens with
      specialAny := cell.tens.specialAny || rs.any (fun r => r.2.1)
      drainSat := cell.tens.drainSat || rs.any (fun r => r.2.2)
      clears := if clr then cell.tens.clears ++ [(cell.now, bank.toNat)] else cell.tens.clears }
    { illegal := !drainLegal b dfmt.toNat idx
      cell := { cell with
        tens := t
        vec := { cell.vec with tileWrites := cell.vec.tileWrites ++
          [⟨cell.now + 1, cell.now, 2, tileKey tr.toNat trow.toNat, lanes, packLanes (rs.map (·.1))⟩] } }
      emit := { errs := bad.map (fun i => cellErr x cell s.clock.dome 0x0020 2 (64 * bank.toNat + i)) } }))

/-- TCLR clears the banks of its mask at the end of its cycle (R121). -/
def execTclr (c : CellRef) (mask : BitVec 4) (s : State) : Host.Outcome State Fault Refusal :=
  .next (issueSlot s c .T (.tclr c mask) (fun _ cell =>
    let bs := (List.range 4).filter (fun b => mask.getLsbD b)
    { cell := { cell with tens := { cell.tens with clears := cell.tens.clears ++ bs.map (fun b => (cell.now, b)) } } }))

/-! ### Registers (Tables 4.5, 5.10 to 5.15) -/

/-- SPECIAL, OVER and LOSS of a bank. -/
def bankFlags (b : Bank) : Nat :=
  let any (f : Lane → Bool) := (List.range 32).any (fun i => f (laneAt b i))
  4 * b01 (any (fun l => l.nan || l.pinf || l.ninf)) + 2 * b01 (any (·.ovf)) + b01 (any (·.loss))

/-- A bank's byte of TROW_BANKSTATE. -/
def bankState (b : Bank) : Nat :=
  match b.latch with
  | none => 0
  | some l => 128 + 16 * l.mode + l.fmt

/-- Read a TROW_ register by its CREG number. -/
def readTrow (cell : Cell) (n : Nat) : Word :=
  let t := cell.tens
  if n = 0x100 then
    packFields 32 [(11, 10, t.passDesc.toNat), (2, 2, b01 t.mix), (1, 1, b01 t.align), (0, 0, b01 (trowBusy cell))]
  else if n = 0x101 then
    packFields 32 [(19, 19, b01 t.drainSat), (18, 18, b01 t.specialAny), (17, 17, b01 t.overAny),
      (16, 16, b01 t.lossAny), (11, 9, bankFlags (t.bank 3)), (8, 6, bankFlags (t.bank 2)),
      (5, 3, bankFlags (t.bank 1)), (2, 0, bankFlags (t.bank 0))]
  else if n = 0x102 then t.obidx[0]
  else if n = 0x103 then t.obidx[1]
  else if n = 0x104 then
    packFields 32 [(31, 24, bankState (t.bank 3)), (23, 16, bankState (t.bank 2)), (15, 8, bankState (t.bank 1)),
      (7, 0, bankState (t.bank 0))]
  else if n < 0x110 then 0
  else
    let d := t.descs[(n - 0x110) / 0x20 % 4]'(Nat.mod_lt _ (by decide))
    let k := (n - 0x110) % 0x20
    if k = 0 then d.base
    else
      let l := (k - 1) / 4
      if h : l < 6 then
        match (k - 1) % 4 with
        | 0 => (d.cnt[l]).setWidth 32
        | 1 => d.ostr[l]
        | 2 => d.wstr[l]
        | _ => d.bstr[l]
      else 0

/-- Write a TROW_ register. -/
def writeTrow (t : Tensor) (n : Nat) (v : Word) : Tensor :=
  if n = 0x100 then { t with mix := t.mix && !bit v 2, align := t.align && !bit v 1 }
  else if n = 0x101 then { t with
    drainSat := t.drainSat && !bit v 19, specialAny := t.specialAny && !bit v 18
    overAny := t.overAny && !bit v 17, lossAny := t.lossAny && !bit v 16 }
  else if n = 0x102 then { t with obidx := t.obidx.set 0 v }
  else if n = 0x103 then { t with obidx := t.obidx.set 1 v }
  else if n < 0x110 then t
  else
    let p := (n - 0x110) / 0x20 % 4
    have hp : p < 4 := Nat.mod_lt _ (by decide)
    let d := t.descs[p]
    let k := (n - 0x110) % 0x20
    let l := (k - 1) / 4
    let d' :=
      if k = 0 then { d with base := v &&& 0x00031FFF#32 }
      else if h : l < 6 then
        match (k - 1) % 4 with
        | 0 => { d with cnt := d.cnt.set l (v.setWidth 16) }
        | 1 => { d with ostr := d.ostr.set l v }
        | 2 => { d with wstr := d.wstr.set l v }
        | _ => { d with bstr := d.bstr.set l v }
      else d
    { t with descs := t.descs.set p d' }

end Sys2Proof.Machine
end

