-- ==== Sys2Proof/Machine/Vector.lean ====
section
/-!
DEFINITION. Sys2Proof/Machine/Vector.lean: the vector engine (chapter 06): port claims, chains and their stages, loads,
stores, reductions, ExactSum and masks, the work of an instruction in each of its cycles, and what lands in the register
files at the end of a cycle. Aligned fixed reduction, which shares the ports, is in Machine/Reduce.lean.
-/
namespace Sys2Proof.Machine

/-! ### Reductions (R142, R143) -/

/-- One level of the tree: pairs are combined, an odd last element moves up. -/
def pairUp (node : Word → Word → Word) : List Word → List Word
  | a :: b :: l => node a b :: pairUp node l
  | l => l

/-- The tree of R142, for up to 32 elements. -/
def treeReduce (node : Word → Word → Word) (l : List Word) : Word :=
  let l1 := pairUp node (pairUp node (pairUp node l))
  (pairUp node (pairUp node l1)).headD 0

def minS (a b : Word) : Word := if b.slt a then b else a
def maxS (a b : Word) : Word := if a.slt b then b else a

/-- The value that stands for an excluded element (R142). -/
def identityOf (rop : Nat) : Word :=
  match rop with
  | 0 => 0x80000000 | 1 => 0xFF800000 | 2 => 0x7F800000 | 4 => 0x80000000 | 5 => 0x7FFFFFFF | _ => 0

/-- A reduction of elements with their inclusion, and whether CVT_SAT is set. -/
def reduceSeq (rop : Nat) (fb : Word) (v : List (Word × Bool)) : Word × Bool :=
  let w := v.map (fun e => if e.2 then e.1 else identityOf rop)
  match rop with
  | 0 => (treeReduce fadd w, false)
  | 1 => (treeReduce fmax w, false)
  | 2 => (treeReduce fmin w, false)
  | 3 =>
    let r := cvtInt (-2147483648) 2147483647 (ofIntV ((w.map (·.toInt)).foldl (· + ·) 0))
    (word r.1, r.2)
  | 4 => (treeReduce maxS w, false)
  | 5 => (treeReduce minS w, false)
  | 6 => (BitVec.ofNat 32 (v.filter (·.2)).length, false)
  | _ => (BitVec.ofNat 32 (v.filter (fun e => e.2 && flt fb e.1)).length, false)

/-- The exact sum of a SUM node and the residue that its adder forms from the two addends (R100, R143); none where an input is
infinite or a NaN. -/
def nodeSum (a b : Word) : Option (Int × BitVec 12) :=
  match fpv a, fpv b with
  | .fin n m e, .fin k p g =>
    let base := min e g
    let x := scaledInt n m e base
    let y := scaledInt k p g base
    some (x + y, BitVec.ofNat 12 (((residueOf x).toNat + (residueOf y).toNat) % 4095))
  | _, _ => none

/-- The sums of one level of the tree. -/
def pairSums : List Word → List (Int × BitVec 12)
  | a :: b :: l => (nodeSum a b).toList ++ pairSums l
  | _ => []

/-- The exact sums of all nodes of a SUM tree. -/
def treeSums (l : List Word) : List (Int × BitVec 12) :=
  let up := pairUp fadd
  pairSums l ++ pairSums (up l) ++ pairSums (up (up l)) ++ pairSums (up (up (up l))) ++ pairSums (up (up (up (up l))))

/-- The exact sums of a reduction, with their residues: of every SUM node, and of ISUM as a whole (R143; log entry 91). -/
def reduceSums (rop : Nat) (v : List (Word × Bool)) : List (Int × BitVec 12) :=
  let w := v.map (fun e => if e.2 then e.1 else identityOf rop)
  match rop with
  | 0 => treeSums w
  | 3 => [((w.map (·.toInt)).foldl (· + ·) 0, BitVec.ofNat 12 (w.foldl (fun acc e => (acc + (residueOf e.toInt).toNat) % 4095) 0))]
  | _ => []

/-- The sums of a reduction in flight to lane `lane` of a tile write, or to a scalar register. -/
def nodesOf (due issued : Nat) (key : Option Nat) (lane : Nat) (l : List (Int × BitVec 12)) : List NodeSum :=
  l.map (fun e => { due := due, issued := issued, key := key, lane := lane, sum := e.1, res := e.2 })

/-- The lanes of a row with their inclusion by a mask row. -/
def maskedLanes (x : TileRow) (m : Word) : List (Word × Bool) :=
  (List.range 32).map (fun l => (laneOf x l, m.getLsbD l))

/-- One value in lane `l`, 0 elsewhere. -/
def inLane (l : Nat) (v : Word) : TileRow := v.setWidth 1024 <<< (32 * l)

/-! ### Stages (R132 to R139, Tables 6.3 and 6.4) -/

def stgOp (w : Word) : Nat := fld w 31 26
def stgKind (w : Word) : Nat := fld w 25 23
def stgIdx (w : Word) : Nat := fld w 22 19
def stgRow (w : Word) : Nat := fld w 18 14
def stgFmt (w : Word) : Nat := fld w 6 3
def stgDst (w : Word) : Nat := fld w 9 7

def stgBinary (op : Nat) : Bool :=
  (decide (1 ≤ op) && decide (op ≤ 6)) || (decide (9 ≤ op) && decide (op ≤ 0xD)) ||
  (decide (0x10 ≤ op) && decide (op ≤ 0x16))

def stgUnary (op : Nat) : Bool :=
  decide (op = 7) || decide (op = 8) || decide (op = 0xE) || decide (op = 0x17) || decide (op = 0x18) ||
  decide (op = 0x20) || (decide (0x30 ≤ op) && decide (op ≤ 0x34))

def stgCompare (op : Nat) : Bool := decide (0xB ≤ op) && decide (op ≤ 0xD)

def readsTile (w : Word) : Bool := decide (1 ≤ stgKind w) && decide (stgKind w ≤ 3)

/-- The formats of CVT. -/
def cvtAccepts (f : Nat) : Bool :=
  decide (1 ≤ f) && decide (f ≤ 4) || decide (f = 0xA) || decide (f = 0xB) || decide (f = 0xC)

/-- Legality of one stage word (R136, Table 6.16). -/
def stageLegal (w : Word) : Bool :=
  let op := stgOp w
  (stgBinary op || stgUnary op) && decide (stgKind w ≤ 5) && decide (stgBinary op = decide (stgKind w ≠ 0)) &&
  decide (stgCompare op = decide (stgDst w ≠ 0)) &&
  (if op = 0xE then cvtAccepts (stgFmt w)
   else if op = 0x20 then decide (classOf (stgFmt w) = .mx) && !bit w 2
   else decide (stgFmt w = 0) && !bit w 2) &&
  (decide (stgKind w = 2) || decide (stgKind w = 3) || decide (stgRow w = 0)) && decide (fld w 1 0 = 0)

def chainStages (d : ChainDesc) : List Word := d.stg.toList.take (fld d.ctl 3 0)

def hasMxq (d : ChainDesc) : Bool := (chainStages d).any (fun w => decide (stgOp w = 0x20))

/-- Legality of a chain descriptor (R136). -/
def chainLegal (d : ChainDesc) : Bool :=
  let st := chainStages d
  decide (fld d.ctl 3 0 ≤ 8) && decide (fld d.ctl 31 24 = 0) && decide (fld d.ctl 8 4 = 0) && st.all stageLegal &&
  decide ((st.filter readsTile).length ≤ 2) && decide ((st.filter (fun w => decide (stgOp w = 0x20))).length ≤ 1) &&
  !(hasMxq d && decide (fld d.ctl 14 13 ≠ 0))

/-- Latency of a stage; `slow` selects TP-1 for the transcendental stages (R50). -/
def stgLat (slow : Bool) (w : Word) : Nat :=
  let op := stgOp w
  if op = 0x20 then 4 else if 0x30 ≤ op then (if slow then 6 else 5) else 2

/-- Entry offsets of the stages, from the row's read (R133). -/
def entryOffsets (slow : Bool) : Nat → List Word → List (Nat × Word)
  | _, [] => []
  | o, w :: ws => (o, w) :: entryOffsets slow (o + stgLat slow w) ws

/-- The latency of a whole chain (R133). -/
def chainLat (slow : Bool) (d : ChainDesc) : Nat := 1 + sumNat ((chainStages d).map (stgLat slow))

/-- One lane through an operation that is no compare, SEL or MXQ: the new value, CVT_SAT and CVT_OVF. -/
def stageLane (op fmt : Nat) (sat : Bool) (x b : Word) : Word × Bool × Bool :=
  match op with
  | 0x01 => (fadd x b, false, false)
  | 0x02 => (fsub x b, false, false)
  | 0x03 => (fsub b x, false, false)
  | 0x04 => (fmul x b, false, false)
  | 0x05 => (fmin x b, false, false)
  | 0x06 => (fmax x b, false, false)
  | 0x07 => (if isNan (fpv x) then nan32 else x &&& 0x7FFFFFFF#32, false, false)
  | 0x08 => (if isNan (fpv x) then nan32 else x ^^^ 0x80000000#32, false, false)
  | 0x09 => (b, false, false)
  | 0x0E =>
    let r := cvtElem fmt sat (fpv x)
    (toFp32 (elemVal fmt r.bits), r.sat, r.ovf)
  | 0x10 => (x + b, false, false)
  | 0x11 => (x - b, false, false)
  | 0x12 => (minS x b, false, false)
  | 0x13 => (maxS x b, false, false)
  | 0x14 => (x &&& b, false, false)
  | 0x15 => (x ||| b, false, false)
  | 0x16 => (x ^^^ b, false, false)
  | 0x17 => (fcvtsw x, false, false)
  | 0x18 =>
    let r := fcvtws x
    (r.1, r.2, false)
  | 0x30 => (fexp2 x, false, false)
  | 0x31 => (flog2 x, false, false)
  | 0x32 => (frsqrt x, false, false)
  | 0x33 => (frcp x, false, false)
  | 0x34 => (ftanh x, false, false)
  | _ => (x, false, false)

/-- The bit of a compare (Table 6.4). -/
def stageCmp (op : Nat) (x b : Word) : Bool :=
  match op with
  | 0x0B => flt b x
  | 0x0C => fle b x
  | _ => feq x b

/-- The operand of a stage in lane `l`, for row index `r` (Table 6.3); `f` is the latched f register. -/
def stageOperand (v : VecEngine) (w f : Word) (x : TileRow) (r l : Nat) : Word :=
  match stgKind w with
  | 1 => laneOf (tileRow v (stgIdx w) r) l
  | 2 => laneOf (tileRow v (stgIdx w) (stgRow w)) l
  | 3 => laneOf (tileRow v (stgIdx w) (stgRow w)) r
  | 4 => f
  | 5 => laneOf x l
  | _ => 0

/-- What a stage makes of a row: the new running value, the bits of a compare, an MX scale, and its flags. -/
structure StageOut where
  x : TileRow
  bits : Option Word := none
  scale : Option Nat := none
  sat : Bool := false
  ovf : Bool := false

/-- One stage on one row with row index `r` (R134, R135, R139). -/
def runStage (v : VecEngine) (w f : Word) (x : TileRow) (r : Nat) : StageOut :=
  let op := stgOp w
  let m := maskRow v (fld w 13 11) r (bit w 10)
  let b := stageOperand v w f x r
  if stgCompare op then
    { x := x
      bits := some (BitVec.ofNat 32
        ((List.range 32).foldl (fun acc l => acc + b01 (m.getLsbD l && stageCmp op (laneOf x l) (b l)) * 2 ^ l) 0)) }
  else if op = 0x0A then { x := mapLanes (fun l => if m.getLsbD l then laneOf x l else b l) }
  else if op = 0x20 then
    let q := mxBlock (stgFmt w) ((lanesOf x).map fpv)
    { x := mapLanes (fun l => if m.getLsbD l then toFp32 (elemVal (stgFmt w) (q.2.1.getD l 0)) else laneOf x l)
      scale := some q.1, sat := q.2.2 }
  else
    let rs := (List.range 32).map (fun l =>
      if m.getLsbD l then stageLane op (stgFmt w) (bit w 2) (laneOf x l) (b l) else (laneOf x l, false, false))
    { x := packLanes (rs.map (·.1)), sat := rs.any (·.2.1), ovf := rs.any (·.2.2) }

/-! ### Port claims (R130, Table 6.7) -/

/-- A claim falls in a cycle that an earlier instruction has claimed. -/
def portClash (v : VecEngine) (l : List (VPort × Nat)) : Bool := l.any (fun e => v.claims.contains e)

def portReason (cell : Cell) (l : List (VPort × Nat)) : Option Nat := if portClash cell.vec l then some 8 else none

def claimPorts (cell : Cell) (l : List (VPort × Nat)) : Cell :=
  { cell with vec := { cell.vec with claims := cell.vec.claims ++ l } }

/-- The first reason of a list of unit checks. -/
def firstReason : List (Option Nat) → Option Nat
  | [] => none
  | some r :: _ => some r
  | none :: l => firstReason l

/-- The claims of a chain of `n` rows issued at cycle `c`. -/
def chainClaims (slow : Bool) (d : ChainDesc) (c n : Nat) : List (VPort × Nat) :=
  let lam := chainLat slow d
  let entries := entryOffsets slow 1 (chainStages d)
  let tiles := (entries.filter (fun e => readsTile e.2)).map (·.1)
  let cmps := (entries.filter (fun e => stgCompare (stgOp e.2))).map (·.1)
  (List.range n).flatMap (fun k =>
    [(.rp0, c + k), (.wp0, c + k + lam - 1)] ++
    (if fld d.ctl 14 13 ≠ 0 ∨ hasMxq d then [(.wp1, c + k + lam + 6)] else []) ++
    ((tiles.take 1).map (fun o => (VPort.rp1, c + k + o))) ++
    (((tiles.drop 1).take 1).map (fun o => (VPort.rp2, c + k + o))) ++
    (cmps.map (fun o => (VPort.mw, c + k + o + 1))))

/-! ### The work of an instruction in one cycle -/

/-- What the work of one cycle adds; `keep` is the instruction as it continues. -/
structure VecStep where
  keep : Option VecOp := none
  tw : List TileWrite := []
  nodes : List NodeSum := []
  mw : List MaskWrite := []
  xa : List XAdd := []
  upd : List BktUpd := []
  lands : List Landing := []
  sat : Bool := false
  ovf : Bool := false

def VecStep.and (a b : VecStep) : VecStep :=
  { keep := b.keep, tw := a.tw ++ b.tw, nodes := a.nodes ++ b.nodes, mw := a.mw ++ b.mw, xa := a.xa ++ b.xa, upd := a.upd ++ b.upd,
    lands := a.lands ++ b.lands, sat := a.sat || b.sat, ovf := a.ovf || b.ovf }

/-- One row of a chain in the cycle that lies `o` after its read: the work, and its running value afterwards. -/
def chainRow (v : VecEngine) (now issued : Nat) (d : ChainDesc) (fregs : List Word) (slow : Bool)
    (src srow dst drow k o : Nat) (x : TileRow) : VecStep × TileRow :=
  let r := (srow + k) % 32
  let lam := chainLat slow d
  let x := if o = 0 then tileRow v src r else x
  let rdKey := tileKey (fld d.ctl 18 15) (fld d.ctl 23 19)
  let entered := ((entryOffsets slow 1 (chainStages d)).zip fregs).filter (fun e => decide (e.1.1 = o))
  let st : VecStep × TileRow := entered.foldl (fun acc e =>
    let out := runStage v e.1.2 e.2 acc.2 r
    let step : VecStep := {
      mw := match out.bits with
        | none => []
        | some b => [⟨now + 1, issued, 32 * stgDst e.1.2 + r, 0xFFFFFFFF, b⟩]
      tw := match out.scale with
        | none => []
        | some q => [⟨now - o + lam + 6, issued, 1, rdKey, 1#32 <<< r, inLane r (BitVec.ofNat 32 q)⟩]
      sat := out.sat, ovf := out.ovf }
    (acc.1.and step, out.x)) ({}, x)
  if o = lam - 1 then
    let m := maskRow v (fld d.ctl 11 9) r (bit d.ctl 12)
    let rop := fld d.ctl 14 13
    let all := (lanesOf st.2).map (fun w => (w, true))
    let red := reduceSeq (rop - 1) 0 all
    let step : VecStep := {
      nodes := if rop = 0 then [] else nodesOf (now + 7) issued (some rdKey) r (reduceSums (rop - 1) all)
      tw := [⟨now, issued, 0, tileKey dst (drow + k), m, st.2⟩] ++
        (if rop = 0 then [] else [⟨now + 7, issued, 1, rdKey, 1#32 <<< r, inLane r red.1⟩]) }
    (st.1.and step, st.2)
  else st

/-- The elements and tile rows of VLD and VST by format (Table 6.6). -/
def ldRows (fmt : Nat) : Nat :=
  match widthOf fmt with
  | 32 => 4 | 16 => 8 | 4 => 32 | _ => 16

/-- A lane of an integer format holds an INT32 (Table 6.6). -/
def intLane (fmt : Nat) : Bool := decide (classOf fmt = .int) || decide (fmt = 0xE)

/-- One element into its lane (R141). -/
def elemToLane (fmt bits : Nat) : Word :=
  if intLane fmt then
    match elemVal fmt bits with
    | .fin n m _ => word (if n then -(m : Int) else (m : Int))
    | _ => 0
  else toFp32 (elemVal fmt bits)

/-- One lane into an element (R141). -/
def laneToElem (fmt : Nat) (sat : Bool) (w : Word) : Cvt :=
  cvtElem fmt sat (if intLane fmt then ofIntV w.toInt else fpv w)

/-- The FP32 addends of one superaccumulator from masked lanes (R99, R146). -/
def xaddOf (due x : Nat) (l : List Word) : XAdd :=
  l.foldl (fun (a : XAdd) w =>
    match fpv w with
    | .nan => { a with nan := true, cnt := a.cnt + 1 }
    | .inf n => { a with pinf := a.pinf || !n, ninf := a.ninf || n, cnt := a.cnt + 1 }
    | .fin n m e => { a with sum := a.sum + scaledInt n m e (-149), cnt := a.cnt + 1 })
    { due := due, x := x, sum := 0, nan := false, pinf := false, ninf := false, ovf := false, cnt := 0 }

/-- A row write of the V slot to the cell's own scratchpad, at rank 5 (Tables 2.2 and 8.2). -/
def ownRow (cell : Cell) (log : SlotLog) (row issued due : Nat) (data : Row) (bucket : Option (Nat × Word)) : Landing :=
  { due := due, own := true, cell := cell.id, row := row, data := data, rank := 5, issued := issued, tie := 0,
    src := 0, course := some log, bucket := bucket, ovf := bucket.isSome }

/-- The element exponent of R310. -/
def elemExp (w : Word) : Int :=
  match fpv w with
  | .fin n m e => if m = 0 then -150 else floorLog2V (.fin n m e)
  | _ => -150

/-- The merge of one row of the exponent pass (R310). -/
def exponentMerge (l : List (Word × Bool)) : BktChange :=
  let vs := (l.filter (·.2)).map (·.1)
  let e := (vs.filter (fun w => isFin (fpv w))).foldl (fun acc w => max acc (elemExp w)) (-150)
  .merge e (vs.any (fun w => isNan (fpv w)))
    (vs.any (fun w => decide (fpv w = .inf false))) (vs.any (fun w => decide (fpv w = .inf true))) false

/-- A share value (R312): X, LOSS and OVER. -/
def shareValue (e lr : Int) (w : Word) (incl : Bool) : Int × Bool × Bool :=
  match fpv w with
  | .fin n m x =>
    if !incl then (0, false, false)
    else if reachesAnchor { sum := m, e := x } (e + 1) then (0, false, true)
    else
      let t := truncTo { sum := if n then -(m : Int) else m, e := x } lr
      (t.1, t.2, false)
  | _ => (0, false, false)

/-- A privileged share value: v * 2^149 exactly (R318). -/
def shareExact (w : Word) (incl : Bool) : Int :=
  match fpv w with
  | .fin n m x => if incl then scaledInt n m x (-149) else 0
  | _ => 0

/-- A group of 64 values of `w` bits each, as one number. -/
def packInts (w : Nat) (l : List Int) : Nat := l.foldr (fun v acc => acc <<< w + (BitVec.ofInt w v).toNat) 0

/-- Row `j` of a group. -/
def groupRow (n j : Nat) : Row := BitVec.ofNat 4096 (n >>> (4096 * j))

def bktPriv (desc : Word) : Bool := bit desc 15
def bktGuard (desc : Word) : Nat := fld desc 14 10
/-- The exponent of the shares' least significant bit. -/
def bktLr (desc : Word) (e : Int) : Int := e + bktGuard desc - 62

/-- The work of instruction `op` in the cell's present cycle (R133, R137, R141, R144, R146, R310, R312). Reads return
the state at the end of the last cycle (R129). -/
def vecAdvance (cell : Cell) (op : VecOp) : VecStep :=
  let v := cell.vec
  let now := cell.now
  match op with
  | .chain issued d fregs slow src srow nrows dst drow rows =>
    let t := now - issued
    let lam := chainLat slow d
    let go := (List.range nrows).filter (fun k => decide (k ≤ t) && decide (t - k ≤ lam - 1))
    let outs := go.map (fun k => (k, chainRow v now issued d fregs slow src srow dst drow k (t - k) (Mem.rd 0 rows k)))
    let st := (outs.map (·.2.1)).foldl VecStep.and {}
    let rows' := (outs.filter (fun e => decide (t - e.1 < lam - 1))).map (fun e => (e.1, e.2.2))
    { st with keep :=
        if t + 1 < nrows + lam - 1 then some (.chain issued d fregs slow src srow nrows dst drow rows') else none }
  | .store issued log fmt sat tr trow row got =>
    let j := now - issued
    let n := ldRows fmt
    let es := (lanesOf (tileRow v tr (trow + j))).map (laneToElem fmt sat)
    let got' := got ++ es.map (·.bits)
    let st : VecStep := { sat := es.any (·.sat), ovf := es.any (·.ovf) }
    if j + 1 < n then { st with keep := some (.store issued log fmt sat tr trow row got') }
    else { st with
      lands := [ownRow cell log row (issued + n) (issued + n + 2) (packElems (widthOf fmt) got') none] }
  | .red issued rop axis src srow nrows dst drow mask minv got =>
    let k := now - issued
    let r := (srow + k) % 32
    let x := tileRow v src r
    let m := maskRow v mask r minv
    let more := decide (k + 1 < nrows)
    if axis then
      let got' := got ++ [(x, m)]
      if more then { keep := some (.red issued rop axis src srow nrows dst drow mask minv got') }
      else
        let col (l : Nat) : List (Word × Bool) := got'.map (fun g => (laneOf g.1 l, g.2.getLsbD l))
        let rs := (List.range 32).map (fun l => reduceSeq rop 0 (col l))
        { nodes := (List.range 32).flatMap (fun l => nodesOf (now + 8) issued (some (tileKey dst drow)) l (reduceSums rop (col l)))
          tw := [⟨now + 8, issued, 1, tileKey dst drow, 0xFFFFFFFF, packLanes (rs.map (·.1))⟩], sat := rs.any (·.2) }
    else
      let q := reduceSeq rop 0 (maskedLanes x m)
      { keep := if more then some op else none, sat := q.2
        nodes := nodesOf (now + 7) issued (some (tileKey dst drow)) r (reduceSums rop (maskedLanes x m))
        tw := [⟨now + 7, issued, 1, tileKey dst drow, 1#32 <<< r, inLane r q.1⟩] }
  | .xacc issued axis src srow nrows mask minv =>
    let t := now - issued
    let keep := if t + 1 < 8 * nrows - 7 then some op else none
    if t % 8 = 0 then
      let r := (srow + t / 8) % 32
      let ls := maskedLanes (tileRow v src r) (maskRow v mask r minv)
      { keep := keep
        xa :=
          if axis then
            ((ls.zip (List.range 32)).filter (fun e => e.1.2)).map (fun e => xaddOf (now + 11) e.2 [e.1.1])
          else [xaddOf (now + 11) r ((ls.filter (·.2)).map (·.1))] }
    else { keep := keep }
  | .afrexp issued k src srow nrows mask minv =>
    let j := now - issued
    let r := (srow + j) % 32
    { keep := if j + 1 < nrows then some op else none
      upd := [⟨now + 2, k, exponentMerge (maskedLanes (tileRow v src r) (maskRow v mask r minv))⟩] }
  | .afrcvt issued log k src srow row mask minv desc e got =>
    let r := (srow + (now - issued)) % 32
    let got' := got ++ [(tileRow v src r, maskRow v mask r minv)]
    if now = issued then { keep := some (.afrcvt issued log k src srow row mask minv desc e got') }
    else
      let ls := got'.flatMap (fun g => maskedLanes g.1 g.2)
      if bktPriv desc then
        let g := packInts 320 (ls.map (fun w => shareExact w.1 w.2))
        { lands := (List.range 5).map (fun j =>
            ownRow cell log (row + j) (issued + 2 + j) (issued + 4 + j) (groupRow g j) (some (k, desc))) }
      else
        let xs := ls.map (fun w => shareValue e (bktLr desc e) w.1 w.2)
        { lands := [ownRow cell log row (issued + 2) (issued + 4) (groupRow (packInts 64 (xs.map (·.1))) 0)
            (some (k, desc))]
          upd := (if xs.any (·.2.1) then [⟨issued + 4, k, .loss⟩] else []) ++
            (if xs.any (·.2.2) then [⟨issued + 4, k, .merge (-150) false false false true⟩] else []) }
  | .afradd .. => { keep := some op }
  | .afrfin .. => { keep := some op }

/-- The cell with the work of one cycle of one instruction; CVT_SAT and CVT_OVF are set in that cycle (log entry 89). -/
def applyVec (cell : Cell) (st : VecStep) : Cell :=
  { cell with vec := { cell.vec with
      ops := cell.vec.ops ++ st.keep.toList
      tileWrites := cell.vec.tileWrites ++ st.tw
      nodes := cell.vec.nodes ++ st.nodes
      maskWrites := cell.vec.maskWrites ++ st.mw
      xadds := cell.vec.xadds ++ st.xa
      bktUpds := cell.vec.bktUpds ++ st.upd
      cvtSat := cell.vec.cvtSat || st.sat
      cvtOvf := cell.vec.cvtOvf || st.ovf } }

/-- An instruction starts: the work of its issue cycle. -/
def startVec (cell : Cell) (op : VecOp) : Cell × Emit :=
  let st := vecAdvance cell op
  (applyVec cell st, { lands := st.lands })

/-- The work of one cycle of every instruction in progress. -/
def vecCycle (cell : Cell) : Cell × Emit :=
  let ops := cell.vec.ops
  let start := { cell with vec := { cell.vec with
    ops := [], claims := cell.vec.claims.filter (fun e => decide (cell.now ≤ e.2)) } }
  ops.foldl (fun acc op =>
    let st := vecAdvance cell op
    (applyVec acc.1 st, acc.2.and { lands := st.lands })) (start, {})

/-! ### The instructions -/

def execVchain (c : CellRef) (chain : BitVec 3) (src : BitVec 4) (srow nrows : BitVec 5) (dst : BitVec 4)
    (drow : BitVec 5) (s : State) : Host.Outcome State Fault Refusal :=
  .next (issueSlot s c .V (.vchain c chain src srow nrows dst drow) (fun x cell =>
    let d := cell.vec.chains[chain.toNat]'(chain.isLt)
    let slow := !(decide (s.stepping = .b0) && !x.padded)
    let n := nrows.toNat + 1
    let claims := chainClaims slow d cell.now n
    let fregs := (chainStages d).map (fun w => if stgKind w = 4 then freg cell (BitVec.ofNat 5 (stgIdx w)) else 0)
    let r := startVec (claimPorts cell claims)
      (.chain cell.now d fregs slow src.toNat srow.toNat n dst.toNat drow.toNat [])
    { illegal := !chainLegal d, reason := portReason cell claims, cell := r.1, emit := r.2 }))

/-- VLD: tile row j lands at the end of c + 3 + j (R141). -/
def execVld (c : CellRef) (rs : BitVec 5) (rowoff : BitVec 10) (fmt tr : BitVec 4) (trow : BitVec 5) (sat : Bool)
    (s : State) : Host.Outcome State Fault Refusal :=
  .next (issueSlot s c .V (.vld c rs rowoff fmt tr trow sat) (fun x cell =>
    let n := rowNumber (sreg cell rs) rowoff.toNat
    let js := List.range (ldRows fmt.toNat)
    let claims := js.map (fun j => (VPort.wp0, cell.now + 3 + j))
    let r := readRow x (claimPorts cell claims) s.clock.dome n
    { reason := firstReason [rowRange 9 n, portReason cell claims]
      reads := [n]
      cell := match r.2.1 with
        | none => r.1
        | some v => applyVec r.1 { tw := js.map (fun j =>
            ⟨cell.now + 3 + j, cell.now, 0, tileKey tr.toNat (trow.toNat + j), 0xFFFFFFFF,
              mapLanes (fun l => elemToLane fmt.toNat (elemBits v fmt.toNat (32 * j + l)))⟩) }
      emit := r.2.2 }))

/-- VST: a row write with issue cycle c + N and due cycle c + N + 2 (R141). -/
def execVst (c : CellRef) (rs : BitVec 5) (rowoff : BitVec 10) (fmt tr : BitVec 4) (trow : BitVec 5) (sat : Bool)
    (s : State) : Host.Outcome State Fault Refusal :=
  .next (issueSlot s c .V (.vst c rs rowoff fmt tr trow sat) (fun x cell =>
    let n := rowNumber (sreg cell rs) rowoff.toNat
    let claims := (List.range (ldRows fmt.toNat)).map (fun j => (VPort.rp0, cell.now + j))
    let log := slotLogOf x cell .V ((encodeSlot (.vst c rs rowoff fmt tr trow sat)).getD 0) 3
    let r := startVec (claimPorts cell claims)
      (.store cell.now log fmt.toNat sat tr.toNat trow.toNat n [])
    { reason := firstReason [rowRange 9 n, portReason cell claims], cell := r.1, emit := r.2 }))

def execVred (c : CellRef) (rop : BitVec 3) (axis : Bool) (src : BitVec 4) (srow nrows : BitVec 5) (dst : BitVec 4)
    (drow : BitVec 5) (mask : BitVec 3) (minv : Bool) (s : State) : Host.Outcome State Fault Refusal :=
  .next (issueSlot s c .V (.vred c rop axis src srow nrows dst drow mask minv) (fun _ cell =>
    let n := nrows.toNat + 1
    let claims := (List.range n).map (fun k => (VPort.rp0, cell.now + k)) ++
      (if axis then [(VPort.wp1, cell.now + n + 7)] else (List.range n).map (fun k => (VPort.wp1, cell.now + k + 7)))
    let r := startVec (claimPorts cell claims)
      (.red cell.now rop.toNat axis src.toNat srow.toNat n dst.toNat drow.toNat mask.toNat minv [])
    { reason := portReason cell claims, cell := r.1, emit := r.2 }))

/-- VREDS delivers to a scalar register with latency 9 (R145). -/
def execVreds (c : CellRef) (rop : BitVec 3) (rd : BitVec 5) (src : BitVec 4) (srow : BitVec 5) (mask : BitVec 3)
    (minv : Bool) (fb : BitVec 4) (s : State) : Host.Outcome State Fault Refusal :=
  .next (issueSlot s c .V (.vreds c rop rd src srow mask minv fb) (fun _ cell =>
    let claims := [(VPort.rp0, cell.now)]
    let ls := maskedLanes (tileRow cell.vec src.toNat srow.toNat) (maskRow cell.vec mask.toNat srow.toNat minv)
    let q := reduceSeq rop.toNat (freg cell (fb.setWidth 5)) ls
    let cl := addRes (claimPorts cell claims) 2 9 (if rop.toNat ≤ 2 then .f rd else .s rd) q.1
    { reason := portReason cell claims, cell := applyVec cl { sat := q.2, nodes := nodesOf (cell.now + 8) cell.now none 0 (reduceSums rop.toNat ls) } }))

def execVxacc (c : CellRef) (axis : Bool) (src : BitVec 4) (srow nrows : BitVec 5) (mask : BitVec 3) (minv : Bool)
    (s : State) : Host.Outcome State Fault Refusal :=
  .next (issueSlot s c .V (.vxacc c axis src srow nrows mask minv) (fun _ cell =>
    let n := nrows.toNat + 1
    let claims := (List.range n).map (fun k => (VPort.rp0, cell.now + 8 * k))
    let r := startVec (claimPorts cell claims) (.xacc cell.now axis src.toNat srow.toNat n mask.toNat minv)
    { reason := firstReason [if cell.now < cell.vec.xFree then some 10 else none, portReason cell claims]
      cell := { r.1 with vec := { r.1.vec with xFree := cell.now + 8 * n } }
      emit := r.2 }))

def xaccAt (v : VecEngine) (x : Nat) : XAcc := Mem.rd {} v.x x

/-- A superaccumulator agrees with its residue; one with OVER set is not checked (R101). -/
def xaccSound (a : XAcc) : Bool := a.ovf || decide (a.res = residueOf a.w.toInt)

/-- The raw form (Table 6.8). -/
def rawForm (a : XAcc) : TileRow :=
  packLanes ((List.range 10).map (fun i => a.w.extractLsb' (32 * i) 32) ++
    [packFields 32 [(3, 3, b01 a.ovf), (2, 2, b01 a.ninf), (1, 1, b01 a.pinf), (0, 0, b01 a.nan)],
     BitVec.ofNat 32 a.cnt, BitVec.ofNat 32 (a.cnt / 4294967296)])

/-- VXDRAIN reads the state at the end of c - 1; its row lands at the end of c + 3 (R147). -/
def execVxdrain (c : CellRef) (raw : Bool) (dst : BitVec 4) (drow xsel : BitVec 5) (clr : Bool) (s : State) :
    Host.Outcome State Fault Refusal :=
  .next (issueSlot s c .V (.vxdrain c raw dst drow xsel clr) (fun x cell =>
    let claims := [(VPort.wp0, cell.now + 3)]
    let xs := if raw then [xsel.toNat] else List.range 32
    let bad := xs.filter (fun i => !xaccSound (xaccAt cell.vec i))
    let data := if raw then rawForm (xaccAt cell.vec xsel.toNat)
      else mapLanes (fun l =>
        let a := xaccAt cell.vec l
        toFp32 (drainValue a.nan a.pinf a.ninf a.ovf a.w.toInt (-149)))
    let lanes : Word :=
      if raw then (if bad.isEmpty then 0xFFFFFFFF#32 else 0)
      else bad.foldl (fun (m : Word) i => m &&& ~~~(1#32 <<< i)) 0xFFFFFFFF#32
    let cl := applyVec (claimPorts cell claims)
      { tw := [⟨cell.now + 3, cell.now, 0, tileKey dst.toNat drow.toNat, lanes, data⟩] }
    { reason := portReason cell claims
      cell := if clr then { cl with vec := { cl.vec with
          xclears := cl.vec.xclears ++ [(cell.now, if raw then some xsel.toNat else none)] } } else cl
      emit := { errs := bad.map (fun i => cellErr x cell s.clock.dome 0x0020 3 i) } }))

/-- A row that is no raw form (R148). -/
def rawMalformed (r : TileRow) : Bool :=
  ((List.range 32).drop 13).any (fun l => decide (laneOf r l ≠ 0)) || decide (fld (laneOf r 10) 31 4 ≠ 0) ||
    decide (fld (laneOf r 12) 31 11 ≠ 0)

/-- VXMERGE merges by the end of c + 3 (R148); RAWBAD is set at the issue (log entry 89). -/
def execVxmerge (c : CellRef) (src : BitVec 4) (srow xsel : BitVec 5) (s : State) : Host.Outcome State Fault Refusal :=
  .next (issueSlot s c .V (.vxmerge c src srow xsel) (fun _ cell =>
    let claims := [(VPort.rp0, cell.now)]
    let r := tileRow cell.vec src.toNat srow.toNat
    let cl := claimPorts cell claims
    let fl := laneOf r 10
    { reason := portReason cell claims
      cell := if rawMalformed r then { cl with vec := { cl.vec with rawBad := true } }
        else applyVec cl { xa := [{ due := cell.now + 3, x := xsel.toNat, sum := (r.setWidth 320).toInt, nan := bit fl 0,
                                    pinf := bit fl 1, ninf := bit fl 2, ovf := bit fl 3,
                                    cnt := (laneOf r 11).toNat + 4294967296 * (laneOf r 12).toNat }] } }))

def execVxclr (c : CellRef) (s : State) : Host.Outcome State Fault Refusal :=
  .next (issueSlot s c .V (.vxclr c) (fun _ cell =>
    { cell := { cell with vec := { cell.vec with xclears := cell.vec.xclears ++ [(cell.now, none)] } } }))

/-- All 32 rows of a mask register at the end of the issue cycle (R149). -/
def wholeMask (cell : Cell) (md : Nat) (f : Nat → Word) : VecStep :=
  { mw := (List.range 32).map (fun r => ⟨cell.now, cell.now, 32 * md + r, 0xFFFFFFFF, f r⟩) }

/-- Row r of VMSET (R149). -/
def vmsetRow (mode : Nat) (off : Int) (r : Nat) : Word :=
  match mode with
  | 0 => 0
  | 1 => 0xFFFFFFFF
  | _ => BitVec.ofNat 32 ((List.range 32).foldl (fun acc (l : Nat) => acc + b01 (decide (Int.ofNat l ≤ Int.ofNat r + off)) * 2 ^ l) 0)

def execVmset (c : CellRef) (md : BitVec 3) (mode : BitVec 2) (off : BitVec 7) (s : State) :
    Host.Outcome State Fault Refusal :=
  .next (issueSlot s c .V (.vmset c md mode off) (fun _ cell =>
    let claims := [(VPort.mw, cell.now)]
    { reason := portReason cell claims
      cell := applyVec (claimPorts cell claims) (wholeMask cell md.toNat (vmsetRow mode.toNat off.toInt)) }))

/-- Row r of VMOP (R149). -/
def vmopRow (fn : Nat) (a b : Word) : Word :=
  match fn with
  | 0 => a &&& b | 1 => a ||| b | 2 => a ^^^ b | _ => a &&& ~~~b

def execVmop (c : CellRef) (md ma mb : BitVec 3) (fn : BitVec 2) (s : State) : Host.Outcome State Fault Refusal :=
  .next (issueSlot s c .V (.vmop c md ma mb fn) (fun _ cell =>
    let claims := [(VPort.mw, cell.now)]
    { reason := portReason cell claims
      cell := applyVec (claimPorts cell claims) (wholeMask cell md.toNat (fun r =>
        vmopRow fn.toNat (maskRow cell.vec ma.toNat r false) (maskRow cell.vec mb.toNat r false))) }))

/-! ### Landings in the register files (R131, R147, R148) -/

/-- A word whose bits that `m` selects come from `b`. -/
def mergeBits (a b m : Word) : Word := (a &&& ~~~m) ||| (b &&& m)

/-- Two writes of a list meet in one element. -/
def anyClash {α : Type} (key : α → Nat) (lanes : α → Word) : List α → Bool
  | [] => false
  | a :: l => l.any (fun b => decide (key a = key b) && decide (lanes a &&& lanes b ≠ 0)) || anyClash key lanes l

def landTile (m : Mem TileRow) (w : TileWrite) : Mem TileRow :=
  let old := Mem.rd 0 m w.key
  Mem.wr 0 m w.key (mapLanes (fun l => if w.lanes.getLsbD l then laneOf w.data l else laneOf old l))

def landMask (m : Mem Word) (w : MaskWrite) : Mem Word :=
  if w.key < 32 then m else Mem.wr 0 m w.key (mergeBits (Mem.rd 0 m w.key) w.data w.bits)

/-- Additions to a superaccumulator: W modulo 2^320, its residue, flags and the saturating count (R99, R148). -/
def landXAdd (m : Mem XAcc) (a : XAdd) : Mem XAcc :=
  let o := Mem.rd {} m a.x
  let n := o.cnt + a.cnt
  Mem.wr {} m a.x
    { w := o.w + BitVec.ofInt 320 a.sum
      res := BitVec.ofNat 12 ((o.res.toNat + (residueOf a.sum).toNat) % 4095)
      nan := o.nan || a.nan, pinf := o.pinf || a.pinf, ninf := o.ninf || a.ninf
      ovf := o.ovf || a.ovf || decide (n > 4398046511104)
      cnt := if n > 8796093022207 then 8796093022207 else n }

/-- The end of a cycle in the register files: later-issued writes stand, of one course the T slot's, of one instruction
WP1's (R131); clears come before additions (R147). -/
def landVector (cell : Cell) : Cell :=
  let v := cell.vec
  let now := cell.now
  let tw := sortBy (fun w => 3 * w.issued + w.prio) (v.tileWrites.filter (fun w => decide (w.due ≤ now)))
  let mw := sortBy (fun w => w.issued) (v.maskWrites.filter (fun w => decide (w.due ≤ now)))
  let xs := (v.xclears.filter (fun e => decide (e.1 ≤ now))).foldl
    (fun m e => match e.2 with | none => [] | some i => Mem.del m i) v.x
  { cell with vec := { v with
      tiles := tw.foldl landTile v.tiles
      tileWrites := v.tileWrites.filter (fun w => !decide (w.due ≤ now))
      masks := mw.foldl landMask v.masks
      maskWrites := v.maskWrites.filter (fun w => !decide (w.due ≤ now))
      wclash := v.wclash || anyClash (·.key) (·.lanes) tw || anyClash (·.key) (·.bits) mw
      x := (v.xadds.filter (fun a => decide (a.due ≤ now))).foldl landXAdd xs
      xclears := v.xclears.filter (fun e => !decide (e.1 ≤ now))
      xadds := v.xadds.filter (fun a => !decide (a.due ≤ now)) } }

/-- An exact sum disagrees with its residue (R101). -/
def NodeSum.bad (n : NodeSum) : Bool := decide (n.res ≠ residueOf n.sum)

/-- The check of the sums whose results are delivered at the end of this cycle: a mismatching value is never delivered, and ends
the context (R101, R143). -/
def checkNodes (x : Ctx) (cell : Cell) (dome : Nat) : Cell × List ErrRec :=
  let v := cell.vec
  let due := v.nodes.filter (fun n => decide (n.due ≤ cell.now))
  let bad := due.filter NodeSum.bad
  let spoils (issued when_ : Nat) (key : Option Nat) (n : NodeSum) : Bool :=
    decide (n.issued = issued) && decide (n.due = when_) && decide (n.key = key)
  let tile (w : TileWrite) : TileWrite :=
    (bad.filter (spoils w.issued w.due (some w.key))).foldl (fun w n => { w with lanes := w.lanes &&& ~~~(1#32 <<< n.lane) }) w
  if due.isEmpty then (cell, [])
  else ({ cell with
      vec := { v with nodes := v.nodes.filter (fun n => !decide (n.due ≤ cell.now)), tileWrites := v.tileWrites.map tile }
      sc := { cell.sc with res := cell.sc.res.filter (fun r => !(decide (r.rank = 2) && bad.any (spoils r.issued r.due none))) } },
    bad.map (fun n => cellErr x cell dome 0x0020 3 n.lane))

/-- Residue mismatches of the superaccumulators after the additions of a cycle (R101). -/
def xaccErrors (x : Ctx) (cell : Cell) (dome : Nat) : List ErrRec :=
  (cell.vec.x.filter (fun e => !xaccSound e.2)).map (fun e => cellErr x cell dome 0x0020 3 e.1)

/-! ### Registers (Tables 6.14 to 6.16, 12.10, 12.11) -/

def bktStat (b : Bucket) : Word :=
  packFields 32 [(31, 30, b.state), (29, 29, b01 b.loss),
    (28, 20, if b.state = 0 then 0 else (BitVec.ofInt 9 b.e).toNat), (19, 19, b01 b.ovf), (18, 18, b01 b.nan),
    (17, 17, b01 b.pinf), (16, 16, b01 b.ninf), (15, 0, fld b.desc 31 16)]

def readVec (cell : Cell) (n : Nat) : Word :=
  let v := cell.vec
  if n = 0x200 then
    packFields 32 [(15, 15, b01 (v.x.any (fun e => e.2.ovf))),
      (14, 14, b01 (v.x.any (fun e => e.2.nan || e.2.pinf || e.2.ninf))), (13, 13, b01 (decide (cell.now < v.xFree))),
      (12, 12, b01 (v.claims.any (fun e => decide (cell.now ≤ e.2)))), (4, 4, b01 v.rawBad), (3, 3, b01 v.wclash),
      (2, 2, b01 v.cvtOvf), (1, 1, b01 v.cvtSat)]
  else if n < 0x290 then
    let d := v.chains[(n - 0x210) / 0x10 % 8]'(Nat.mod_lt _ (by decide))
    let k := (n - 0x210) % 0x10
    if k = 0 then d.ctl else d.stg[(k - 1) % 8]'(Nat.mod_lt _ (by decide))
  else
    let k := (n - 0x2A0) / 2 % 8
    have hk : k < 8 := Nat.mod_lt _ (by decide)
    if n % 2 = 0 then v.bktDesc[k] else bktStat v.bkts[k]

def writeVec (v : VecEngine) (n : Nat) (w : Word) : VecEngine :=
  if n = 0x200 then { v with
    rawBad := v.rawBad && !bit w 4, wclash := v.wclash && !bit w 3, cvtOvf := v.cvtOvf && !bit w 2
    cvtSat := v.cvtSat && !bit w 1 }
  else if n < 0x290 then
    let c := (n - 0x210) / 0x10 % 8
    have hc : c < 8 := Nat.mod_lt _ (by decide)
    let d := v.chains[c]
    let k := (n - 0x210) % 0x10
    let d' := if k = 0 then { d with ctl := w &&& 0x00FFFE0F#32 }
      else { d with stg := d.stg.set ((k - 1) % 8) (w &&& 0xFFFFFFFC#32) (Nat.mod_lt _ (by decide)) }
    { v with chains := v.chains.set c d' }
  else if n % 2 = 0 then
    { v with bktDesc := v.bktDesc.set ((n - 0x2A0) / 2 % 8) (w &&& 0xFFFFFE00#32) (Nat.mod_lt _ (by decide)) }
  else v

end Sys2Proof.Machine
end

