-- ==== Sys2Proof/Machine/Reduce.lean ====
section
/-!
DEFINITION. Sys2Proof/Machine/Reduce.lean: aligned fixed reduction and privileged buckets (R306 to R320, R323 to R327):
the AFR instructions, the reads that continue after the issue cycle, and the changes of bucket slots at the end of a
cycle.
-/
namespace Sys2Proof.Machine

def bktAt (cell : Cell) (k : BitVec 3) : Bucket := cell.vec.bkts[k.toNat]'(k.isLt)

/-- Buckets in flight in a context: the slots that are not IDLE (R307, R308). -/
def bktsInFlight (cells : List Cell) : Nat :=
  sumNat (cells.map (fun c => (c.vec.bkts.toList.filter (fun b => decide (b.state ≠ 0))).length))

/-- Slots that open at the end of this cycle. -/
def bktsOpening (cells : List Cell) : Nat :=
  sumNat (cells.map (fun c => (c.vec.bktUpds.filter (fun u => match u.change with | .opened _ => true | _ => false)).length))

/-- Skip with AFR_STATE unless `ok`. -/
def afrState (ok : Bool) : Option Nat := if ok then none else some 11

/-- A row number of 640 or more (R323). -/
def afrRange (rows : List Nat) : Option Nat := if rows.any (fun r => decide (r ≥ 640)) then some 9 else none

/-- The pair in whose slot cycle the context is, if it is in one (R285). -/
def slotCyclePair (cc : Nat) : Option Nat := if cc % 320 % 10 = 0 then some (cc % 320 / 10) else none

/-- The cell owns the pair of this slot cycle on the first port of the route (R286, R313). -/
def ownsPairNow (x : Ctx) (id : CellId) (route : Nat) : Bool :=
  match slotCyclePair x.cc, Mem.find x.routes route with
  | some p, some r =>
    match r.ports with
    | port :: _ =>
      let e := Mem.rd {} x.slots (32 * port + p)
      decide (e.kind = 1) && decide (e.cell = id) && decide (e.route = route)
    | [] => false
  | _, _ => false

def afrSlot (x : Ctx) (cell : Cell) (route : Nat) : Option Nat := if ownsPairNow x cell.id route then none else some 12

def freeRun (cell : Cell) : Option Nat := if cell.ctl.free then some 4 else none

def addUpd (cell : Cell) (u : List BktUpd) : Cell :=
  { cell with vec := { cell.vec with bktUpds := cell.vec.bktUpds ++ u } }

/-- The ARG of a REDUCE flit (Table 12.7). -/
def reduceArg (desc : Word) (k : BitVec 3) (data : Bool) (dest : CellId) (drow : Nat) (half ovf : Bool) : DWord :=
  packFields 64 [(63, 48, fld desc 31 16), (47, 45, k.toNat), (44, 44, b01 data), (43, 30, dest.toNat), (29, 20, drow),
    (19, 19, b01 half), (18, 18, b01 (bktPriv desc)), (17, 17, b01 ovf)]

/-- The payload of an EXP message (R324). -/
def expPayload (b : Bucket) : Row :=
  BitVec.ofNat 4096 ((BitVec.ofInt 16 b.e).toNat +
    65536 * (8 * b01 b.ovf + 4 * b01 b.nan + 2 * b01 b.pinf + b01 b.ninf))

/-! ### The instructions -/

/-- AFREXP opens an IDLE slot and reads rows for the exponent pass (R310). -/
def execAfrexp (c : CellRef) (k : BitVec 3) (src : BitVec 4) (srow nrows : BitVec 5) (mask : BitVec 3) (minv : Bool)
    (s : State) : Host.Outcome State Fault Refusal :=
  .next (issueSlot s c .V (.afrexp c k src srow nrows mask minv) (fun _ cell =>
    let b := bktAt cell k
    let desc := cell.vec.bktDesc[k.toNat]'(k.isLt)
    let idle := decide (b.state = 0)
    let guardOk := decide (1 ≤ bktGuard desc) && decide (bktGuard desc ≤ 18)
    let n := nrows.toNat + 1
    let claims := (List.range n).map (fun j => (VPort.rp0, cell.now + j))
    let cells := s.cellsOf c.ctx.val
    let full := idle && decide (bktsInFlight cells + bktsOpening cells ≥ 4096)
    let opened := if idle then addUpd (claimPorts cell claims) [⟨cell.now, k.toNat, .opened desc⟩]
      else claimPorts cell claims
    let r := startVec opened (.afrexp cell.now k.toNat src.toNat srow.toNat n mask.toNat minv)
    { reason := firstReason [afrState (decide (b.state = 1) || (idle && guardOk)), if full then some 13 else none,
        portReason cell claims]
      cell := r.1, emit := r.2 }))

/-- AFRXSEND sends E and flags as a REDUCE message of kind EXP (R311, R313). -/
def execAfrxsend (c : CellRef) (k : BitVec 3) (route : BitVec 8) (dest : CellId) (s : State) :
    Host.Outcome State Fault Refusal :=
  .next (issueSlot s c .V (.afrxsend c k route dest) (fun x cell =>
    let b := bktAt cell k
    { reason := firstReason [freeRun cell, afrState (decide (b.state = 1)), afrSlot x cell route.toNat]
      cell := cell
      emit := { links := [{ cycle := x.cc, route := route.toNat, cell := cell.id, mtype := 0x0A,
                            arg0 := reduceArg b.desc k false dest 0 false false,
                            arg1 := reduceArg b.desc k false dest 0 true false, data := expPayload b }] } }))

/-- AFRCVT converts 64 elements of a share (R312, R318). -/
def execAfrcvt (c : CellRef) (k : BitVec 3) (src : BitVec 4) (srow rs : BitVec 5) (rowoff : BitVec 10)
    (mask : BitVec 3) (minv : Bool) (s : State) : Host.Outcome State Fault Refusal :=
  .next (issueSlot s c .V (.afrcvt c k src srow rs rowoff mask minv) (fun x cell =>
    let b := bktAt cell k
    let row := rowNumber (sreg cell rs) rowoff.toNat
    let last := if bktPriv b.desc then row + 4 else row
    let claims := [(VPort.rp0, cell.now), (VPort.rp0, cell.now + 1)]
    let log := slotLogOf x cell .V ((encodeSlot (.afrcvt c k src srow rs rowoff mask minv)).getD 0) 3
    let cl := claimPorts cell claims
    let cl := if b.state = 1 then addUpd cl [⟨cell.now, k.toNat, .summing⟩] else cl
    let r := startVec cl (.afrcvt cell.now log k.toNat src.toNat srow.toNat row mask.toNat minv b.desc b.e [])
    { reason := firstReason [afrRange [last], afrState (decide (b.state ≠ 0)), portReason cell claims]
      cell := r.1, emit := r.2 }))

/-- AFRSEND sends a row as a REDUCE message of kind DATA (R313). -/
def execAfrsend (c : CellRef) (k : BitVec 3) (route : BitVec 8) (dest : CellId) (rs : BitVec 5) (rowoff drow : BitVec 10)
    (s : State) : Host.Outcome State Fault Refusal :=
  .next (issueSlot s c .V (.afrsend c k route dest rs rowoff drow) (fun x cell =>
    let b := bktAt cell k
    let row := rowNumber (sreg cell rs) rowoff.toNat
    let r := readRow x cell s.clock.dome row
    let send : Emit := match r.2.1 with
      | none => {}
      | some v => { links := [{ cycle := x.cc, route := route.toNat, cell := cell.id, mtype := 0x0A,
                                arg0 := reduceArg b.desc k true dest drow.toNat false b.ovf,
                                arg1 := reduceArg b.desc k true dest drow.toNat true b.ovf, data := v }] }
    { reason := firstReason [freeRun cell, afrRange [row], afrState (decide (b.state = 2)), afrSlot x cell route.toNat]
      reads := [row], cell := r.1, emit := r.2.2.and send }))

/-- The sum of two ordinary rows: 64 INT64 lanes, and whether a lane left the range (R314). -/
def addLanes64 (a b : Row) : Row × Bool :=
  let sums := (List.range 64).map (fun i =>
    (a.extractLsb' (64 * i) 64).toInt + (b.extractLsb' (64 * i) 64).toInt)
  (groupRow (packInts 64 sums) 0,
    sums.any (fun v => decide (v < -9223372036854775808) || decide (9223372036854775807 < v)))

/-- The residues that the 64 adders of an ordinary row carry; one that leaves the range sets OVER and is not checked (R100, R101,
R314). -/
def laneChecks (a b : Row) : List ResCheck :=
  (List.range 64).filterMap (fun i =>
    let x := (a.extractLsb' (64 * i) 64).toInt
    let y := (b.extractLsb' (64 * i) 64).toInt
    if x + y < -9223372036854775808 ∨ 9223372036854775807 < x + y then none
    else some { lane := i, pos := 64 * i, width := 64, signed := true
                res := BitVec.ofNat 12 (((residueOf x).toNat + (residueOf y).toNat) % 4095) })

/-- The elements of 320 bits in the first `n` rows of a group. -/
def groupValue (l : List Row) : Nat := l.foldr (fun r acc => acc * 2 ^ 4096 + r.toNat) 0

/-- Row `j` of the element-wise sum of two groups, from their rows 0 to j (R318): a carry never moves to a lower row. -/
def addGroupRow (a b : List Row) (j : Nat) : Row :=
  let x := groupValue a
  let y := groupValue b
  groupRow (packInts 320 ((List.range 64).map (fun i =>
    (((x >>> (320 * i)) % 2 ^ 320 + (y >>> (320 * i)) % 2 ^ 320 : Nat) : Int)))) j

/-- The residues that the adders of a privileged group carry for the part of each element that row `j` holds: of both addends'
parts, with the carry in and without the carry out (R100, R318). -/
def groupChecks (a b : List Row) (j : Nat) : List ResCheck :=
  let x := groupValue a
  let y := groupValue b
  (List.range 64).filterMap (fun i =>
    let lo := max (320 * i) (4096 * j)
    let hi := min (320 * i + 320) (4096 * j + 4096)
    if hi ≤ lo then none
    else
      let w := hi - lo
      let below := lo - 320 * i
      let part (v : Nat) : Nat := v / 2 ^ lo % 2 ^ w
      let low (v : Nat) : Nat := v / 2 ^ (320 * i) % 2 ^ below
      let carry := (low x + low y) / 2 ^ below
      let out := (part x + part y + carry) / 2 ^ w
      some { lane := i, pos := lo - 4096 * j, width := w, signed := false
             res := residueOf (((residueOf (part x)).toNat + (residueOf (part y)).toNat + carry : Nat) - (out * 2 ^ w : Nat) : Int) })

/-- AFRADD adds two rows, or two groups row by row (R314, R318). -/
def execAfradd (c : CellRef) (k : BitVec 3) (ra : BitVec 5) (aoff : BitVec 10) (rb : BitVec 5) (boff : BitVec 10)
    (rd : BitVec 5) (doff : BitVec 10) (s : State) : Host.Outcome State Fault Refusal :=
  .next (issueSlot s c .V (.afradd c k ra aoff rb boff rd doff) (fun x cell =>
    let slot := bktAt cell k
    let a := rowNumber (sreg cell ra) aoff.toNat
    let b := rowNumber (sreg cell rb) boff.toNat
    let d := rowNumber (sreg cell rd) doff.toNat
    let more := if bktPriv slot.desc then 4 else 0
    let log := slotLogOf x cell .V ((encodeSlot (.afradd c k ra aoff rb boff rd doff)).getD 0) 3
    let r1 := readRow x cell s.clock.dome a
    let r2 := readRow x r1.1 s.clock.dome b
    let e := r1.2.2.and r2.2.2
    let key := some (k.toNat, slot.desc)
    let done : Cell × Emit := match r1.2.1, r2.2.1 with
      | some va, some vb =>
        if bktPriv slot.desc then
          ({ r2.1 with vec := { r2.1.vec with
              ops := r2.1.vec.ops ++ [.afradd cell.now log k.toNat a b d [(va, vb)]] } },
            { lands := [{ ownRow cell log d (cell.now + 1) (cell.now + 3) (addGroupRow [va] [vb] 0) key with
                checks := groupChecks [va] [vb] 0 }] })
        else
          let q := addLanes64 va vb
          (if q.2 then addUpd r2.1 [⟨cell.now + 3, k.toNat, .merge (-150) false false false true⟩] else r2.1,
            { lands := [{ ownRow cell log d (cell.now + 1) (cell.now + 3) q.1 key with checks := laneChecks va vb }] })
      | _, _ => (r2.1, {})
    { reason := firstReason [afrRange [a + more, b + more, d + more], afrState (decide (slot.state = 2)),
        if a % 8 = b % 8 then some 14 else none]
      reads := [a, b], cell := done.1, emit := e.and done.2 }))

/-- A sum as AFRFIN delivers it (R316, R318), from latched flags; `sum * 2^lsb` is the lane's value. -/
def finLane (bf16 : Bool) (nan pinf ninf ovf : Bool) (sum lsb : Int) : Word :=
  let v := drainValue nan pinf ninf ovf sum lsb
  if bf16 then BitVec.ofNat 32 (encodeIeee bf16Fmt v * 65536) else toFp32 v

/-- The two tile rows of AFRFIN from 64 sums. -/
def finRows (issued due dst drow : Nat) (f : Nat → Word) : List TileWrite :=
  [⟨due, issued, 0, tileKey dst drow, 0xFFFFFFFF, mapLanes f⟩,
   ⟨due + 1, issued, 0, tileKey dst (drow + 1), 0xFFFFFFFF, mapLanes (fun l => f (32 + l))⟩]

/-- AFRFIN rounds a row or a group of sums into two tile rows (R316, R318). -/
def execAfrfin (c : CellRef) (k : BitVec 3) (rs : BitVec 5) (rowoff : BitVec 10) (dst : BitVec 4) (drow : BitVec 5)
    (s : State) : Host.Outcome State Fault Refusal :=
  .next (issueSlot s c .V (.afrfin c k rs rowoff dst drow) (fun x cell =>
    let b := bktAt cell k
    let priv := bktPriv b.desc
    let row := rowNumber (sreg cell rs) rowoff.toNat
    let claims := if priv then [(VPort.wp0, cell.now + 6), (VPort.wp0, cell.now + 7)]
      else [(VPort.wp0, cell.now + 3), (VPort.wp0, cell.now + 4)]
    let r := readRow x (claimPorts cell claims) s.clock.dome row
    { reason := firstReason [afrRange [if priv then row + 4 else row], afrState (decide (b.state = 2)),
        portReason cell claims]
      reads := [row]
      cell := match r.2.1 with
        | none => r.1
        | some v =>
          if priv then { r.1 with vec := { r.1.vec with ops := r.1.vec.ops ++
            [.afrfin cell.now k.toNat row dst.toNat drow.toNat b.desc b.e b.nan b.pinf b.ninf b.ovf [v]] } }
          else applyVec r.1 { tw := finRows cell.now (cell.now + 3) dst.toNat drow.toNat (fun i =>
            finLane (bit b.desc 9) b.nan b.pinf b.ninf b.ovf (v.extractLsb' (64 * i) 64).toInt (bktLr b.desc b.e)) }
      emit := r.2.2 }))

/-- AFREND closes a slot at the end of its cycle (R317). -/
def execAfrend (c : CellRef) (k : BitVec 3) (s : State) : Host.Outcome State Fault Refusal :=
  .next (issueSlot s c .V (.afrend c k) (fun _ cell =>
    { reason := afrState (decide ((bktAt cell k).state ≠ 0)), cell := addUpd cell [⟨cell.now, k.toNat, .closed⟩] }))

/-! ### Reads after the issue cycle (R315, R318) -/

/-- One such read, of rank 3: a request of the cycle's S, T or V slot or of an earlier AFR instruction takes the bank, or the row
is read (R189, R315; log entry 34). The result is the row, all zero where the read loses and none where a word of it is
uncorrectable (R198), whether it lost, and what it reports. -/
def afrRead (x : Ctx) (cell : Cell) (dome row : Nat) : Cell × Option Row × Bool × Emit :=
  if cell.spad.claims.any (fun e => decide (e.1 = row % 8) && decide (e.2 ≤ 3)) then (cell, some 0, true, {})
  else
    let r := readRow x (claimBanks cell 3 [row]) dome row
    (r.1, r.2.1, false, r.2.2)

/-- The slot's OVER is set at the end of this cycle where `lost`. -/
def overIf (cell : Cell) (k : Nat) (lost : Bool) : Cell :=
  if lost then addUpd cell [⟨cell.now, k, .merge (-150) false false false true⟩] else cell

/-- The continuing read of one instruction in this cycle. An instruction whose row is not delivered ends without a result
(R198). -/
def afrContinue (x : Ctx) (dome : Nat) (cell : Cell) (op : VecOp) : Cell × Emit :=
  let keep (cl : Cell) (o : VecOp) : Cell := { cl with vec := { cl.vec with ops := cl.vec.ops ++ [o] } }
  match op with
  | .afradd issued log k a b d got =>
    let j := cell.now - issued
    if issued < cell.now ∧ got.length ≤ j then
      let r1 := afrRead x cell dome (a + j)
      let r2 := afrRead x r1.1 dome (b + j)
      match r1.2.1, r2.2.1 with
      | some v1, some v2 =>
      let got' := got ++ [(v1, v2)]
      let row := { ownRow cell log (d + j) (cell.now + 1) (cell.now + 3)
        (addGroupRow (got'.map (·.1)) (got'.map (·.2)) j) (some (k, 0)) with
          checks := groupChecks (got'.map (·.1)) (got'.map (·.2)) j }
      let cl := overIf r2.1 k (r1.2.2.1 || r2.2.2.1)
      (if j < 4 then keep cl (.afradd issued log k a b d got') else cl,
        (r1.2.2.2.and r2.2.2.2).and { lands := [row] })
      | _, _ => (r2.1, r1.2.2.2.and r2.2.2.2)
    else (keep cell op, {})
  | .afrfin issued k row dst drow desc e nan pinf ninf ovf got =>
    let j := cell.now - issued
    if issued < cell.now ∧ got.length ≤ j then
      let r := afrRead x cell dome (row + j)
      match r.2.1 with
      | none => (r.1, r.2.2.2)
      | some v =>
      let got' := got ++ [v]
      let cl := overIf r.1 k r.2.2.1
      if j < 4 then (keep cl (.afrfin issued k row dst drow desc e nan pinf ninf ovf got'), r.2.2.2)
      else
        let g := groupValue got'
        (applyVec cl { tw := finRows issued (issued + 6) dst drow (fun i =>
          finLane (bit desc 9) nan pinf ninf ovf (BitVec.ofNat 320 (g >>> (320 * i))).toInt (-149)) }, r.2.2.2)
    else (keep cell op, {})
  | _ => (keep cell op, {})

/-- All continuing reads of a cell in this cycle, earlier instructions first. -/
def afrCycle (x : Ctx) (dome : Nat) (cell : Cell) : Cell × Emit :=
  cell.vec.ops.foldl (fun acc op =>
    let r := afrContinue x dome acc.1 op
    (r.1, acc.2.and r.2)) ({ cell with vec := { cell.vec with ops := [] } }, {})

/-! ### Changes of bucket slots -/

def changeBkt (b : Bucket) : BktChange → Bucket
  | .opened desc => { state := 1, desc := desc, e := -150 }
  | .summing => if b.state = 0 then b else { b with state := 2 }
  | .closed => {}
  | .merge e nan pinf ninf ovf =>
    if b.state = 0 then b
    else { b with e := max b.e e, nan := b.nan || nan, pinf := b.pinf || pinf, ninf := b.ninf || ninf
                  ovf := b.ovf || ovf }
  | .loss => if b.state = 0 then b else { b with loss := true }

/-- Changes due by the end of cycle `t` (R307, R309). -/
def landBuckets (t : Nat) (cell : Cell) : Cell :=
  let due := cell.vec.bktUpds.filter (fun u => decide (u.due ≤ t))
  { cell with vec := { cell.vec with
      bkts := due.foldl (fun v u =>
        v.set (u.k % 8) (changeBkt (v[u.k % 8]'(Nat.mod_lt _ (by decide))) u.change) (Nat.mod_lt _ (by decide)))
        cell.vec.bkts
      bktUpds := cell.vec.bktUpds.filter (fun u => !decide (u.due ≤ t)) } }

end Sys2Proof.Machine
end

