-- ==== Sys2Proof/Machine/Stream.lean ====
section
/-!
DEFINITION. Sys2Proof/Machine/Stream.lean: the stream movers (chapter 07): descriptors and their checks, planned beats,
the row pipe, index rows, re-arming, loose rows and completion signals.
-/
namespace Sys2Proof.Machine

/-! ### Descriptors (Tables 7.1, 7.11 to 7.17) -/

def dSkind (d : Desc) : Nat := fld d.ctl 31 29
def dDkind (d : Desc) : Nat := fld d.ctl 28 26
def dSize (d : Desc) : Nat := 64 * 2 ^ fld d.ctl 25 23
def dLoose (d : Desc) : Bool := bit d.ctl 22
def dPersist (d : Desc) : Bool := bit d.ctl 21
def dIdx (d : Desc) : Nat := fld d.ctl 20 19
def dPeer (d : Desc) : CellId := d.dpeer.setWidth 14
def dRoute (d : Desc) : Nat := fld d.dpeer 31 24
def dCounts (d : Desc) : List Nat :=
  [fld d.cnt01 15 0, fld d.cnt01 31 16, fld d.cnt23 15 0, fld d.cnt23 31 16, fld d.cnt45 15 0, fld d.cnt45 31 16]
def dBeats (d : Desc) : Nat := (dCounts d).foldl (· * ·) 1
def dPace (d : Desc) : Nat := fld d.aux 31 16
def dOutLim (d : Desc) : Nat := fld d.aux 15 10 + 1
def dIrow (d : Desc) : Nat := fld d.aux 9 0
def dEvery (d : Desc) : Nat := if fld d.sig 15 0 = 0 then dBeats d else fld d.sig 15 0
def dSigOut (d : Desc) : Option (BitVec 6) := if bit d.sig 31 then some (BitVec.ofNat 6 (fld d.sig 29 24)) else none
def dSigSrc (d : Desc) : Option (BitVec 6) := if bit d.sig 23 then some (BitVec.ofNat 6 (fld d.sig 21 16)) else none

/-- Rows of a beat (R160). -/
def beatRows (d : Desc) : Nat := max 1 (dSize d / 512)

/-- Bytes of one row of a beat. -/
def rowBytes (d : Desc) : Nat := min (dSize d) 512

/-- A side that lies in a scratchpad. -/
def isSpad (kind : Nat) : Bool := decide (kind = 1) || decide (kind = 2) || decide (kind = 3) || decide (kind = 5)

/-- Beats are packed into destination rows (R161). -/
def isPacked (d : Desc) : Bool := isSpad (dDkind d) && decide (dSize d < 512)

/-- The effective base in bytes (R157). -/
def effBase (kind : Nat) (base : Word) : Nat := if kind = 4 then 128 * base.toNat else base.toNat

/-- The kind pairs of Table 7.2; the last four are loose only. -/
def pairOk (sk dk : Nat) (loose : Bool) : Bool :=
  (decide (sk = 1) && decide (1 ≤ dk) && decide (dk ≤ 5)) || (decide (sk = 4) && decide (dk = 1)) ||
  (loose && ((decide (sk = 1) && decide (dk = 6)) || (decide (sk = 6) && (decide (dk = 1) || decide (dk = 4))) ||
    (decide (sk = 4) && decide (dk = 6))))

/-- The alignment of one side (R160). -/
def sideAligned (d : Desc) (kind : Nat) (base : Nat) (str : List Word) : Bool :=
  let u := if isSpad kind then min (dSize d) 512 else if kind = 4 then dSize d else 64
  decide (base % u = 0) && str.all (fun s => decide (s.toInt % u = 0))

/-- The packing rule (R161). -/
def packAligned (d : Desc) : Bool :=
  !isPacked d ||
  (decide (d.dbase.toNat % 512 = 0) && (dIdx d = 2 || decide (d.dstr[0].toNat = dSize d)) &&
    decide (fld d.cnt01 15 0 % (512 / dSize d) = 0) && (d.dstr.toList.drop 1).all (fun s => decide (s.toInt % 512 = 0)))

/-- The checks of R181 on a latched descriptor. A ROUTE that its kind does not use may name any route (DESIGN CHOICE, log entry
106). -/
def shapeOk (x : Ctx) (id : CellId) (d : Desc) : Bool :=
  let sk := dSkind d
  let dk := dDkind d
  let peer := dPeer d
  pairOk sk dk (dLoose d) && decide (fld d.ctl 25 23 ≤ 5) && decide (dIdx d ≠ 3) &&
  (dLoose d || (decide (dPace d ≠ 0) && decide (beatRows d ≤ dPace d))) &&
  (!dPersist d || (!dLoose d && decide (dBeats d ≠ 0))) &&
  sideAligned d sk (effBase sk d.sbase) d.sstr.toList && sideAligned d dk (effBase dk d.dbase) d.dstr.toList &&
  packAligned d && !(decide (dIdx d = 2) && isPacked d) &&
  (decide (dIdx d ≠ 1) || d.sstr.toList.all (fun s => decide (s = 0))) &&
  (decide (dIdx d ≠ 2) || d.dstr.toList.all (fun s => decide (s = 0))) &&
  (decide (dk ≠ 2) || (decide (peer ≠ id) && cellExists x.regions.length peer && decide (dRoute d = 0))) &&
  (decide (dk ≠ 5) || (decide (dRoute d ≠ 0) && (Mem.find x.routes (dRoute d)).isSome))

/-- A descriptor moves only within the cell's own scratchpad. -/
def ownPair (d : Desc) : Bool := decide (dSkind d = 1) && decide (dDkind d = 1)

/-! ### Addresses (R157, R162, R204, R205) -/

/-- Bytes of a region's logical HBM (R204). -/
def hbmBytes : Nat := 15999991808

def hbmRegion (a : Nat) : Nat := a / 2 ^ 34
def hbmOffset (a : Nat) : Nat := a % 2 ^ 34
/-- The logical channel of an address (R205). -/
def hbmChannel (a : Nat) : Nat := (a / 2048 % 8 + a / 131072 % 8) % 8
/-- The logical bank of an address (R205). -/
def hbmBank (a : Nat) : Nat := a / 16384 % 16

/-- An element lies in the context's logical HBM (R162, R204). -/
def hbmOk (x : Ctx) (a len : Nat) : Bool :=
  decide (hbmRegion a < x.regions.length) && decide (hbmOffset a + len ≤ hbmBytes)

/-- The address of a side as it is used (R157). -/
def sideAddr (kind : Nat) (a : Int) : Int :=
  if kind = 4 then a % 2 ^ 39 else if kind = 6 then a % 2 ^ 32 else a

/-- An element lies inside its endpoint (R162); `w` is the host window of a host side. -/
def sideOk (x : Ctx) (kind w : Nat) (a : Int) (len : Nat) : Bool :=
  if kind = 4 then hbmOk x a.toNat len
  else if kind = 6 then decide (a.toNat + len ≤ (Mem.rd (0, 0) x.hwin w).2)
  else decide (0 ≤ a) && decide (a + len ≤ 327680)

/-- The latency of a kind pair (Table 7.2), none for the host; `own` says that the HBM side lies in the cell's logical region.
-/
def pairLatency (x : Ctx) (id : CellId) (d : Desc) (own : Bool) : Nat :=
  if dSkind d = 6 ∨ dDkind d = 6 then 0
  else if dSkind d = 4 then (if own then 640 else 736)
  else match dDkind d with
    | 1 => 2
    | 2 => relLatency id (dPeer d)
    | 3 => 8
    | 4 => if own then 320 else 416
    | _ => match Mem.find x.routes (dRoute d) with | some r => r.lat | none => 0

/-- The latency of a scheduled row (R159); a loose one has none. -/
def rowLatency (x : Ctx) (id : CellId) (d : Desc) (own : Bool) : Nat := if dLoose d then 0 else pairLatency x id d own

/-- The cells in which a stream lands rows, or that its signals go to (R172). -/
def destCells (id : CellId) (d : Desc) : List CellId :=
  match dDkind d with
  | 2 => [dPeer d]
  | 3 => (List.range 16).map (fun k => cellIdOf (regionOf id) (blockOf id) k)
  | 5 => [dPeer d]
  | _ => [id]

/-! ### Planned beats (R157, R165, R176) -/

def offsetOf (idx : List Nat) (str : List Word) : Int :=
  (List.zipWith (fun (i : Nat) (s : Word) => (i : Int) * s.toInt) idx str).foldl (· + ·) 0

/-- The planned cycle of beat `n`. -/
def plannedBeat (st : Stream) (n : Nat) : Nat := st.issued + 4 + n * dPace st.desc

/-- The group of the beats of a run in which beat `i` lies, new. -/
def newGroup (st : Stream) (n i : Nat) : Group :=
  let total := dBeats st.desc
  let every := dEvery st.desc
  let g := i / every
  let size := min every (total - g * every)
  { run := n / total, g := g, left := size * beatRows st.desc
    lastPlanned := plannedBeat st (n - i + g * every + size - 1) + beatRows st.desc - 1 }

/-- Row `j` of beat `n`. -/
def beatRow (st : Stream) (n j : Nat) : ReadyRow :=
  let total := dBeats st.desc
  let idx := loopIndices (dCounts st.desc) (n % total)
  { beat := n, i := n % total, run := n / total, j := j
    planned := if dLoose st.desc then 0 else plannedBeat st n + j
    src := (st.sb : Int) + offsetOf idx st.desc.sstr.toList
    dst := (st.db : Int) + offsetOf idx st.desc.dstr.toList }

/-- Plan beat `nextBeat`: its rows, and its group where it is the group's first beat. -/
def planBeat (st : Stream) : Stream :=
  let n := st.nextBeat
  let total := dBeats st.desc
  let i := n % total
  { st with
    nextBeat := n + 1, run := n / total, ready := st.ready ++ (List.range (beatRows st.desc)).map (beatRow st n)
    groups := if i % dEvery st.desc = 0 then st.groups ++ [newGroup st n i] else st.groups }

/-- More beats are to come without a new run. -/
def beatsLeft (st : Stream) : Bool :=
  let total := dBeats st.desc
  decide (0 < total) && (decide (st.nextBeat = 0) || decide (st.nextBeat % total ≠ 0))

/-- A new run may begin (R176, R178). -/
def runsLeft (st : Stream) : Bool :=
  dPersist st.desc && !st.stopping && decide (0 < st.nextBeat) && decide (st.nextBeat % dBeats st.desc = 0)

/-! ### Signals of groups (R172, R173) -/

/-- Send the destination signal of a settled group that no row has carried. Where every row of the group is dropped, its due
cycle is the one that its last row would have had (DESIGN CHOICE, log entry 36). -/
def destSignal (cc : Nat) (id : CellId) (d : Desc) (g : Group) (n : Nat) : Emit :=
  match dSigOut d with
  | none => {}
  | some sig =>
    if dDkind d = 5 then
      if g.carried then {}
      else { vacs := [{ route := dRoute d, cell := id, after := max g.lastPlanned cc, dest := dPeer d, sig := sig,
                        bytes := g.bytes }] }
    else if dLoose d then
      { loose := (destCells id d).map (fun c => .signal n c sig g.bytes) }
    else
      { arrs := (destCells id d).map (fun c => (
          { due := max (if g.due = 0 then g.late else g.due) cc, own := false, cell := c, sig := sig, n := 1, bytes := g.bytes } : Arrival)) }

/-- The SIGNAL flit of a loose REMOTE group (Table 11.7). -/
def signalMsg (x : Ctx) (route : Nat) (dest : CellId) (sig : BitVec 6) (bytes : Nat) : Nat × List Flit :=
  (route, [ctxFlit x 3 0x04 route 0 (packFields 64 [(63, 32, bytes), (31, 18, dest.toNat), (5, 0, sig.toNat)]) 0])

/-- The source signal of a group: to the issuing cell, with byte count 0 (R173). -/
def srcSignal (cc : Nat) (id : CellId) (d : Desc) (g : Group) : Emit :=
  match dSigSrc d with
  | none => {}
  | some sig =>
    if dLoose d then { arrs := [{ due := 0, own := true, cell := id, sig := sig, n := 1, bytes := 0 }] }
    else { arrs := [{ due := max g.srcDue cc, own := false, cell := id, sig := sig, n := 1, bytes := 0 }] }

/-- What a group sends as it stands: its source signal once no row is left to issue and none waits for its data from HBM or
from the host, its destination signal once no row is open; the group that remains, if any (R172, R173). -/
def settleGroup (x : Ctx) (id : CellId) (d : Desc) (n : Nat) (g : Group) : Option Group × Emit :=
  if g.left = 0 then
    let e := if g.ssent || decide (g.unread ≠ 0) then ({} : Emit) else srcSignal x.cc id d g
    let g := { g with ssent := g.ssent || decide (g.unread = 0) }
    if g.opened = 0 then
      let out := if dLoose d && decide (dDkind d = 5) then
          match dSigOut d with
          | some sig => { msgs := [signalMsg x (dRoute d) (dPeer d) sig g.bytes] }
          | none => {}
        else destSignal x.cc id d g n
      (none, e.and out)
    else (some g, e)
  else (some g, {})

/-- Change one group of a stream and settle it. -/
def onGroup (x : Ctx) (id : CellId) (n : Nat) (st : Stream) (run g : Nat) (f : Group → Group) : Stream × Emit :=
  st.groups.foldl (fun acc a =>
    if a.run = run ∧ a.g = g then
      let r := settleGroup x id st.desc n (f a)
      ({ acc.1 with groups := acc.1.groups ++ r.1.toList }, acc.2.and r.2)
    else ({ acc.1 with groups := acc.1.groups ++ [a] }, acc.2)) ({ st with groups := [] }, {})

def groupOf (st : Stream) (r : ReadyRow) : Nat := r.i / dEvery st.desc

/-! ### Index rows (R163, R164) -/

/-- The index rows that a row of the stream still needs: those of the beats that have not been planned, and of the rows that
have not issued (R163, R166). -/
def keptBlocks (st : Stream) : List IdxBlock :=
  let total := max 1 (dBeats st.desc)
  let run := st.nextBeat / total
  let block := st.nextBeat % total / 128
  st.idx.filter (fun b => decide (run < b.run) || (decide (b.run = run) && decide (block ≤ b.block)) ||
    st.ready.any (fun r => decide (r.run = b.run) && decide (r.i / 128 = b.block)))

/-- A stream with one more index row. -/
def addBlock (st : Stream) (b : IdxBlock) : Stream := { st with idx := b :: keptBlocks st }

/-- The index of a row: its word, and the first cycle in which the row can issue; none while its index row is not read. -/
def indexOf (st : Stream) (r : ReadyRow) : Option (Word × Nat) :=
  if dIdx st.desc = 0 then some (0, r.planned)
  else
    match st.idx.find? (fun b => decide (b.run = r.run) && decide (b.block = r.i / 128)) with
    | some b => some (b.data.extractLsb' (32 * (r.i % 128)) 32, r.planned + b.delay)
    | none => none

/-- The addresses of a row with its index, and whether each side is null. -/
def rowSides (st : Stream) (r : ReadyRow) (w : Word) : Int × Bool × Int × Bool :=
  let off : Int := (w.toNat * dSize st.desc : Nat)
  let null := decide (w = 0xFFFFFFFF)
  if dIdx st.desc = 1 then (sideAddr (dSkind st.desc) (r.src + off), null, sideAddr (dDkind st.desc) r.dst, false)
  else if dIdx st.desc = 2 then (sideAddr (dSkind st.desc) r.src, false, sideAddr (dDkind st.desc) (r.dst + off), null)
  else (sideAddr (dSkind st.desc) r.src, false, sideAddr (dDkind st.desc) r.dst, false)

/-- The row is going to be dropped: its index word or its destination address says so (R162, R163). Of a row whose index row is
still to be read nothing is known. -/
def rowDropped (x : Ctx) (st : Stream) (r : ReadyRow) : Bool :=
  match (if dIdx st.desc = 2 then (indexOf st r).map (·.1) else some 0) with
  | none => false
  | some w =>
    let sides := rowSides st r w
    sides.2.2.2 || !sideOk x (dDkind st.desc) 0 sides.2.2.1 (dSize st.desc)

/-- The beats from `n` on, `k` of them, are all going to be dropped. -/
def beatsDropped (x : Ctx) (st : Stream) : Nat → Nat → Bool
  | 0, _ => true
  | k + 1, n => rowDropped x st (beatRow st n 0) && beatsDropped x st k (n + 1)

/-- No row of group `g` of a run follows that is not dropped: neither one that is ready, `but` apart, nor one of a beat that is
still to be planned (R162, R172). -/
def restDropped (x : Ctx) (st : Stream) (run g : Nat) (but : ReadyRow → Bool) : Bool :=
  let total := max 1 (dBeats st.desc)
  let stop := min ((g + 1) * dEvery st.desc) total
  let next := if st.nextBeat / total = run then st.nextBeat % total else if st.nextBeat / total < run then 0 else stop
  st.ready.all (fun r => but r || decide (r.run ≠ run) || decide (groupOf st r ≠ g) || rowDropped x st r) &&
    beatsDropped x st (stop - max next (g * dEvery st.desc)) (run * total + max next (g * dEvery st.desc))

/-- This row is the last one of its group that the link carries: no other one of it is open, or left and not dropped (R172). -/
def lastOfGroup (x : Ctx) (st : Stream) (r : ReadyRow) : Option Group :=
  st.groups.find? (fun a => decide (a.run = r.run) && decide (a.g = groupOf st r) && decide (a.opened = 0) &&
    (decide (a.left ≤ 1) || restDropped x st a.run a.g (fun q => decide (q = r))))

/-! ### Read access below the slots (R189) -/

/-- Some request of ranks up to `rank` holds the bank of a row in this cycle; a cell that has not begun the cycle reads nothing for
its AFR instructions. -/
def bankTaken (cell : Cell) (rank row : Nat) : Bool :=
  cell.spad.claims.any (fun e => decide (e.1 = row % 8) && decide (e.2 ≤ rank)) ||
    (cell.begun && (afrReads cell).any (fun r => decide (r % 8 = row % 8)))

/-- Bytes `off` to `off + n - 1` of a row, from bit 0 on. -/
def rowPart (v : Row) (off n : Nat) : Row := BitVec.ofNat 4096 ((v.toNat >>> (8 * off)) % 2 ^ (8 * n))

/-! ### The issue of one scheduled row (R159, R161, R162, R166 to R168) -/

/-- Landings of a row in its destination cells. `hbmTie` is the channel rank of a row from HBM. -/
def destLandings (id : CellId) (st : Stream) (dn row : Nat) (data : Row) (due issued bytes lid : Nat)
    (hbmTie : Option Nat) : List Landing :=
  let own := 16 * b01 st.mover + dn
  (destCells id st.desc).map (fun c => (
    { due := due, own := false, cell := c, row := row, data := data, issued := issued
      rank := match hbmTie with | some _ => 2 | none => if c = id then 6 else 4
      tie := match hbmTie with | some t => t | none => if c = id then own else id.toNat
      src := match hbmTie with | some t => t | none => if c = id then own else id.toNat
      sig := dSigOut st.desc, bytes := bytes, present := true, checked := false, id := lid } : Landing))

/-- The two flits of a REMOTE row (Table 11.7). -/
def rowArgs (dest : CellId) (row : Nat) (sig : Option (BitVec 6)) (arrive : Option Nat) : DWord × DWord :=
  let base (half : Nat) : List (Nat × Nat × Nat) :=
    [(31, 18, dest.toNat), (17, 8, row), (7, 7, half), (6, 6, b01 sig.isSome),
     (5, 0, match sig with | some k => k.toNat | none => 0)]
  (packFields 64 ((63, 63, b01 arrive.isSome) :: base 0), packFields 64 ((63, 32, arrive.getD 0) :: base 1))

/-- The two flits of a loose REMOTE row (Table 11.7). -/
def looseRowMsg (x : Ctx) (d : Desc) (row : Nat) (data : Row) : Nat × List Flit :=
  let a := rowArgs (dPeer d) row (dSigOut d) none
  (dRoute d, [ctxFlit x 3 0x03 (dRoute d) 0 (a.1.setWidth 32 |>.setWidth 64) (data.setWidth 2048),
    ctxFlit x 3 0x03 (dRoute d) 0 (a.2.setWidth 32 |>.setWidth 64) ((data >>> 2048).setWidth 2048)])

/-- Put an element into its destination row: the row of its group of 512 / ESIZE consecutive beats (R161). -/
def packElement (st : Stream) (r : ReadyRow) (dst : Int) (data : Row) (nextId cc due tie : Nat) (lost : Bool) :
    Stream × Nat × Nat :=
  let row := dst.toNat / 512
  let pos := 8 * (dst.toNat % 512)
  let gid := (r.run, groupOf st r)
  let bytes := dSize st.desc
  let part := r.i * dSize st.desc / 512
  match st.packs.find? (fun p => decide (p.run = r.run) && decide (p.part = part)) with
  | some p =>
    let p' := { p with
      data := p.data ||| (data <<< pos), got := p.got + 1, bytes := p.bytes + (if lost then 0 else bytes)
      due := max p.due due, issued := max p.issued cc, planned := max p.planned r.planned, tie := tie
      gids := p.gids ++ [gid], lost := p.lost || lost }
    ({ st with packs := st.packs.map (fun q => if q.id = p.id then p' else q) }, p.id, 0)
  | none =>
    let p : Pack := {
      id := nextId, run := r.run, part := part, row := row, data := data <<< pos, got := 1
      bytes := if lost then 0 else bytes, due := due, issued := cc, planned := r.planned, tie := tie, gids := [gid]
      lost := lost }
    ({ st with packs := st.packs ++ [p] }, nextId, 1)

/-- A pack is complete. -/
def packFull (st : Stream) (p : Pack) : Bool := decide (p.got ≥ 512 / dSize st.desc)

/-- Take a pack off its stream and settle its groups (R161, R172). -/
def closePack (x : Ctx) (id : CellId) (n : Nat) (st : Stream) (p : Pack) : Stream × Emit :=
  p.gids.foldl (fun acc gid =>
    let r := onGroup x id n acc.1 gid.1 gid.2 (fun g => { g with opened := g.opened - 1, due := max g.due p.due })
    (r.1, acc.2.and r.2)) ({ st with packs := st.packs.filter (fun q => decide (q.id ≠ p.id)) }, {})

/-- Close the packed rows that have lost an element and are complete: they never land (R161, R179; DESIGN CHOICE, log entry
105). -/
def dropLost (x : Ctx) (id : CellId) (n : Nat) (st : Stream) : Stream × Emit :=
  (st.packs.filter (fun p => packFull st p && p.lost)).foldl (fun acc p =>
    let r := closePack x id n acc.1 p
    (r.1, acc.2.and r.2)) (st, {})

/-- The number under which the landing of a loose packed row is acknowledged: that of an element of it (R170). -/
def packReply (id : CellId) (n dn : Nat) (st : Stream) (p : Pack) : Reply :=
  match st.outstanding.find? (fun o => decide (o.pack = some p.id)) with
  | some o => .loose n id dn o.row
  | none => .none

/-- Land a pack that is complete, or that a stop leaves incomplete, where its destination is on this module. -/
def landPack (x : Ctx) (id : CellId) (n dn : Nat) (st : Stream) (p : Pack) : Stream × Emit :=
  let r := closePack x id n st p
  let tie := if dSkind st.desc = 4 then some p.tie else none
  if p.lost then r
  else if dLoose st.desc then
    (r.1, r.2.and { loose := (destCells id st.desc).map (fun c =>
      .row n c { row := p.row, data := p.data, sig := dSigOut st.desc, bytes := p.bytes, reply := packReply id n dn st p }) })
  else (r.1, r.2.and { lands := destLandings id st dn p.row p.data p.due p.issued p.bytes p.id tie })

/-- Packs that can land now. -/
def landPacks (x : Ctx) (id : CellId) (n dn : Nat) (st : Stream) : Stream × Emit :=
  if dDkind st.desc = 5 ∧ !dLoose st.desc then dropLost x id n st
  else (st.packs.filter (packFull st)).foldl (fun acc p =>
    let r := if dDkind st.desc = 5 then
        let c := closePack x id n acc.1 p
        (c.1, c.2.and { msgs := [looseRowMsg x st.desc p.row p.data] })
      else landPack x id n dn acc.1 p
    (r.1, acc.2.and r.2)) (st, {})

/-- Issue a scheduled row (R166) whose index word is `w`; a read of the cell's own scratchpad has its bank. The last row of an
HBM write unit carries the unit's command cycle (R167); the rows of a unit that an SSTOP cuts short are written without one
(DESIGN CHOICE, log entry 107). -/
def issueRow (x : Ctx) (cell : Cell) (dome n dn : Nat) (st : Stream) (r : ReadyRow) (w : Word) : Cell × Stream × Emit :=
  let d := st.desc
  let cc := x.cc
  let size := dSize d
  let nb := rowBytes d
  let sides := rowSides st r w
  let src := sides.1
  let dst := sides.2.2.1
  let srcOk := !sides.2.1 && sideOk x (dSkind d) 0 src size
  let dstOk := !sides.2.2.2 && sideOk x (dDkind d) 0 dst size
  let range := (!sides.2.1 && !srcOk) || (!sides.2.2.2 && !dstOk)
  let hbmA : Nat := if dSkind d = 4 then src.toNat else dst.toNat
  let own := decide (hbmRegion hbmA = regionOf cell.id)
  let lat := rowLatency x cell.id d own
  let due := cc + lat
  let st := { st with ready := st.ready.filter (fun q => decide (q ≠ r)) }
  -- the source
  let rd : Cell × Option Row × Emit :=
    if dSkind d = 1 ∧ srcOk then
      let q := readRow x cell dome (src.toNat / 512 + r.j)
      (q.1, q.2.1.map (fun v => if size < 512 then rowPart v (src.toNat % 512) size else v), q.2.2)
    else (cell, some 0, {})
  let cell := { rd.1 with strm := { rd.1.strm with
    range := rd.1.strm.range || range, defer := rd.1.strm.defer || decide (r.planned < cc)
    st := if r.planned < cc then
        rd.1.strm.st.set (dn % 16) (let q := rd.1.strm.st[dn % 16]'(Nat.mod_lt _ (by decide));
          { q with deferred := satInc 255 q.deferred }) (Nat.mod_lt _ (by decide))
      else rd.1.strm.st } }
  let data := rd.2.1.getD 0
  let unit := Mem.find st.units r.beat
  let uid := unit.getD x.nextId
  let ids := if unit.isSome then 1 else 2
  let lid := x.nextId + 1
  let st := if dSkind d = 4 then
      { st with units := if r.j + 1 = beatRows d then Mem.del st.units r.beat else Mem.put st.units r.beat uid }
    else st
  let present := x.hreads.any (fun h => decide (h.id = uid) && h.present)
  let mkRead (landing pos : Nat) : List HbmRead :=
    if dSkind d = 4 ∧ srcOk then
      [{ id := uid, cell := cell.id, issued := cc, cmd := if r.j = 0 then some (due - 608) else none
         sample := due - 320, due := due, addr := src.toNat + 512 * r.j, len := nb, mover := st.mover, d := dn
         present := present, pos := pos, landing := landing }]
    else []
  let srcDue := if dSkind d = 4 then due - 320 else cc
  let account (g : Group) (opened : Nat) (bytes : Nat) (lands : Bool) : Group :=
    { g with left := g.left - 1, issued := g.issued + 1, bytes := g.bytes + bytes, due := if lands then max g.due due else g.due
             late := max g.late due, srcDue := max g.srcDue srcDue, opened := g.opened + opened }
  let gi := groupOf st r
  if !dstOk || rd.2.1.isNone then
    let q := onGroup x cell.id n st r.run gi (fun g => account g 0 0 false)
    (cell, q.1, (rd.2.2.and q.2).and { ids := ids })
  else if dDkind d = 4 then
    let q := onGroup x cell.id n st r.run gi (fun g => account g 0 nb true)
    (cell, q.1, (rd.2.2.and q.2).and { ids := ids, hwrites := [
      { cell := cell.id, issued := cc, cmd := if r.j + 1 = beatRows d then some (due - 288) else none, due := due
        addr := dst.toNat + 512 * r.j, len := nb, data := data, mover := st.mover, d := dn, sig := dSigOut d }] })
  else if isPacked d then
    let k := packElement st r dst data lid cc due (8 * hbmRegion hbmA + hbmChannel hbmA) false
    let q := onGroup x cell.id n k.1 r.run gi (fun g => account g 1 nb false)
    let p := landPacks x cell.id n dn q.1
    (cell, p.1, ((rd.2.2.and q.2).and p.2).and
      { ids := ids, hreads := mkRead k.2.1 (8 * (dst.toNat % 512)) })
  else if dDkind d = 5 then
    let arrive := match dSigOut d, lastOfGroup x st r with
      | some _, some g => some (g.bytes + nb)
      | _, _ => none
    let a := rowArgs (dPeer d) (dst.toNat / 512 + r.j) (dSigOut d) arrive
    let q := onGroup x cell.id n st r.run gi (fun g => { account g 0 nb true with carried := arrive.isSome })
    (cell, q.1, (rd.2.2.and q.2).and { ids := ids, links := [
      { cycle := cc, route := dRoute d, cell := cell.id, mtype := 0x02, arg0 := a.1, arg1 := a.2, data := data }] })
  else
    let q := onGroup x cell.id n st r.run gi (fun g => account g 0 nb true)
    let tie := if dSkind d = 4 then some (8 * hbmRegion hbmA + hbmChannel hbmA) else none
    (cell, q.1, (rd.2.2.and q.2).and
      { ids := ids, hreads := mkRead lid 0
        lands := destLandings cell.id st dn (dst.toNat / 512 + r.j) data due cc nb lid tie })

/-- The cell owns the pair of this slot cycle on the route, and has put no row into it yet (R168, R286). Rows of M0 come first
where both movers have one for the pair (DESIGN CHOICE, log entry 102). -/
def pairOpen (x : Ctx) (id : CellId) (route : Nat) : Bool :=
  ownsPairNow x id route &&
  !x.linkRows.any (fun l => decide (l.cycle = x.cc) && decide (l.cell = id) && decide (l.route = route))

/-- A REMOTE row of whole rows can issue only in a slot cycle of its pair (R168). -/
def slotReady (x : Ctx) (id : CellId) (d : Desc) : Bool :=
  !(decide (dDkind d = 5) && decide (512 ≤ dSize d)) || pairOpen x id (dRoute d)

/-- This schedule cycle lies in a free-running section of the cell: a rejoining cell leaves it at J (R179). -/
def inSection (x : Ctx) (cell : Cell) : Bool := cell.ctl.free && !cell.ctl.rejoining.any (fun e => decide (e.2 = x.cc))

/-- The place of a row in the order of R166: planned cycle, then descriptor. -/
def rowOrder (dn planned : Nat) : Nat := 16 * planned + dn

/-- The ready rows of mover `m`, in the order of R166, with descriptor and index word. In a free-running section only rows of
the own scratchpad issue (R179). -/
def readyRows (x : Ctx) (cell : Cell) (m : Bool) : List (Nat × ReadyRow × Word) :=
  sortBy (fun e => rowOrder e.1 e.2.1.planned)
    (cell.strm.streams.flatMap (fun e =>
      if e.2.mover = m ∧ !dLoose e.2.desc ∧ (ownPair e.2.desc ∨ !inSection x cell) ∧ slotReady x cell.id e.2.desc then
        e.2.ready.filterMap (fun r =>
          if r.planned ≤ x.cc then
            match indexOf e.2 r with
            | some (w, from_) => if from_ ≤ x.cc then some (e.1, r, w) else none
            | none => none
          else none)
      else []))

/-- The row of the cell's own scratchpad that a row of a stream reads, if it reads one. -/
def rowReads (x : Ctx) (st : Stream) (r : ReadyRow) (w : Word) : Option Nat :=
  let s := rowSides st r w
  if dSkind st.desc = 1 ∧ !s.2.1 ∧ sideOk x 1 0 s.1 (dSize st.desc) then some (s.1.toNat / 512 + r.j) else none

def setStream (cell : Cell) (dn : Nat) (st : Stream) : Cell :=
  { cell with strm := { cell.strm with streams := Mem.put cell.strm.streams dn st } }

def markPiped (cell : Cell) (m : Bool) : Cell :=
  { cell with strm := { cell.strm with piped := m :: cell.strm.piped } }

/-- The packed REMOTE rows of mover `m` that wait for a slot cycle of their pair, in the order of R166: descriptor, stream, row,
and whether the stream is idle already (R161). -/
def waitingPacks (cell : Cell) (m : Bool) : List (Nat × Stream × Pack × Bool) :=
  let full (dn : Nat) (st : Stream) (idle : Bool) : List (Nat × Stream × Pack × Bool) :=
    if st.mover = m ∧ dDkind st.desc = 5 ∧ isPacked st.desc ∧ !dLoose st.desc then
      ((st.packs.filter (packFull st)).take 1).map (fun p => (dn, st, p, idle))
    else []
  sortBy (fun e => rowOrder e.1 e.2.2.1.planned)
    (cell.strm.streams.flatMap (fun e => full e.1 e.2 false) ++ cell.strm.orphans.flatMap (fun e => full e.1 e.2 true))

/-- Put a stream back among the active or the idle ones. -/
def putStream (cell : Cell) (dn : Nat) (old new : Stream) (idle : Bool) : Cell :=
  if idle then { cell with strm := { cell.strm with
    orphans := cell.strm.orphans.map (fun e => if e.2 = old then (e.1, new) else e) } }
  else setStream cell dn new

/-- A packed REMOTE row leaves in a slot cycle of its pair (R161). It carries the arrival of one group whose last row it is; of
further groups that end in it the arrivals go in VACANT flits (DESIGN CHOICE, log entry 95). -/
def sendPack (x : Ctx) (n dn : Nat) (cell : Cell) (st : Stream) (p : Pack) : Cell × Stream × Emit :=
  let d := st.desc
  let ends := st.groups.find? (fun g => (decide (g.left = 0) || restDropped x st g.run g.g (fun _ => false)) &&
    decide ((p.gids.filter (fun e => decide (e.1 = g.run) && decide (e.2 = g.g))).length = g.opened) && decide (g.opened ≠ 0))
  let arrive := match dSigOut d, ends with | some _, some g => some g.bytes | _, _ => none
  let st' := match arrive, ends with
    | some _, some g => { st with groups := st.groups.map (fun a =>
        if a.run = g.run ∧ a.g = g.g then { a with carried := true } else a) }
    | _, _ => st
  let c := closePack x cell.id n st' p
  let a := rowArgs (dPeer d) p.row (dSigOut d) arrive
  let late := decide (p.planned < x.cc)
  let cell := { cell with strm := { cell.strm with
    defer := cell.strm.defer || late
    st := if late then cell.strm.st.set (dn % 16) (let q := cell.strm.st[dn % 16]'(Nat.mod_lt _ (by decide));
        { q with deferred := satInc 255 q.deferred }) (Nat.mod_lt _ (by decide)) else cell.strm.st } }
  (cell, c.1, c.2.and { links := [
    { cycle := x.cc, route := dRoute d, cell := cell.id, mtype := 0x02, arg0 := a.1, arg1 := a.2, data := p.data }] })

/-- Streams move rows in this cycle: the context executes and no hold is in force (R36, R47). -/
def streamsRun (s : State) (x : Ctx) : Bool := running s x

/-- A row can issue: it obtains its bank, and a row of the links does not meet an earlier packed row of its pair (R166, R168).
-/
def canRow (x : Ctx) (cell : Cell) (packs : List (Nat × Stream × Pack × Bool)) (e : Nat × ReadyRow × Word) : Bool :=
  match Mem.find cell.strm.streams e.1 with
  | none => false
  | some st =>
    (rowReads x st e.2.1 e.2.2).all (fun row => !bankTaken cell 6 row) &&
    !(decide (dDkind st.desc = 5) && !isPacked st.desc && packs.any (fun p =>
      decide (dRoute p.2.1.desc = dRoute st.desc) && decide (rowOrder p.1 p.2.2.1.planned < rowOrder e.1 e.2.1.planned)))

/-- The first ready row of mover `m` that can issue does (R166). -/
def pipeRow (s : State) (c : CellRef) (m : Bool) : State :=
  match s.cell? c with
  | none => s
  | some cell =>
    let x := s.ctx c.ctx.val
    match (readyRows x cell m).find? (canRow x cell (waitingPacks cell m)) with
    | none => s
    | some e =>
      match Mem.find cell.strm.streams e.1 with
      | none => s
      | some st =>
        let cl := match rowReads x st e.2.1 e.2.2 with
          | some row => claimBanks cell 6 [row]
          | none => cell
        let q := issueRow x (markPiped cl m) s.clock.dome c.ctx.val e.1 st e.2.1 e.2.2
        (s.setCell c (setStream q.1 e.1 q.2.1)).emit c.ctx.val q.2.2

/-- The first packed row of mover `m` on a route whose pair is open leaves; `fuel` bounds how many routes there are. -/
def leavePacks (s : State) (c : CellRef) (m : Bool) : Nat → State
  | 0 => s
  | fuel + 1 =>
    match s.cell? c with
    | none => s
    | some cell =>
      let x := s.ctx c.ctx.val
      match (waitingPacks cell m).find? (fun e => pairOpen x cell.id (dRoute e.2.1.desc)) with
      | none => s
      | some (dn, st, p, idle) =>
        let r := sendPack x c.ctx.val dn cell st p
        leavePacks ((s.setCell c (putStream r.1 dn st r.2.1 idle)).emit c.ctx.val r.2.2) c m fuel

/-- ROW_PIPE_ISSUE: a row issues, and packed rows of the links leave (R161, R166). -/
def rowPipe (s : State) (c : CellRef) (m : Bool) : State :=
  match s.cell? c with
  | none => s
  | some cell =>
    if !streamsRun s (s.ctx c.ctx.val) || cell.strm.piped.contains m then s else leavePacks (pipeRow s c m) c m 16

def execRowPipeIssue (c : CellRef) (m : Bool) (s : State) : Host.Outcome State Fault Refusal := .next (rowPipe s c m)

/-- A row that is not issued because the cell is in a free-running section (R179). -/
def loseRow (x : Ctx) (id : CellId) (n dn : Nat) (st : Stream) (r : ReadyRow) : Stream × Emit :=
  let d := st.desc
  let w := match indexOf st r with | some (w, _) => w | none => 0
  let sides := rowSides st r w
  let dstOk := !sides.2.2.2 && sideOk x (dDkind d) 0 sides.2.2.1 (dSize d)
  let hbmA : Nat := if dSkind d = 4 then sides.1.toNat else sides.2.2.1.toNat
  let due := r.planned + rowLatency x id d (decide (hbmRegion hbmA = regionOf id))
  let st := { st with ready := st.ready.filter (fun q => decide (q ≠ r)) }
  let bytes := if dstOk then rowBytes d else 0
  let packed := isPacked d && dstOk
  let k := if packed then (packElement st r sides.2.2.1 0 0 x.cc due 0 true).1 else st
  let q := onGroup x id n k r.run (groupOf st r) (fun g =>
    { g with left := g.left - 1, bytes := g.bytes + bytes, due := max g.due due, late := max g.late due, srcDue := max g.srcDue x.cc
             opened := g.opened + b01 packed })
  let p := landPacks x id n dn q.1
  (p.1, q.2.and p.2)

/-- Rows of descriptor `dn` are lost: LOST counts them (R179). -/
def countLost (cell : Cell) (dn k : Nat) : Cell :=
  if k = 0 then cell
  else { cell with strm := { cell.strm with
    lostAny := true
    st := cell.strm.st.set (dn % 16) (let w := cell.strm.st[dn % 16]'(Nat.mod_lt _ (by decide));
      { w with lost := satAdd 255 w.lost k }) (Nat.mod_lt _ (by decide)) } }

/-- The rows of a stream that a free-running section loses in this cycle: those that are ready in it, and at its first cycle
those that are waiting, deferred (R179). -/
def lostRows (x : Ctx) (cell : Cell) (st : Stream) : List ReadyRow :=
  if inSection x cell && !ownPair st.desc then
    st.ready.filter (fun r => decide (r.planned ≤ x.cc) &&
      (slotReady x cell.id st.desc && (indexOf st r).all (fun e => decide (e.2 ≤ x.cc)) ||
        (decide (r.planned < x.cc) && !cell.strm.section_)))
  else []

/-- Put stream `dn` into the cell, without the rows that it loses in this cycle. -/
def putLost (x : Ctx) (n dn : Nat) (cell : Cell) (st : Stream) : Cell × Emit :=
  let lost := lostRows x cell st
  let q := lost.foldl (fun a r =>
    let t := loseRow x cell.id n dn a.1 r
    (t.1, a.2.and t.2)) (st, ({} : Emit))
  (countLost (setStream cell dn q.1) dn lost.length, q.2)

/-- The packed REMOTE rows that are complete and wait when a section begins are lost (R161, R179). -/
def losePacks (x : Ctx) (n dn : Nat) (cell : Cell) (st : Stream) (idle : Bool) : Cell × Emit :=
  if inSection x cell && decide (dDkind st.desc = 5) && isPacked st.desc && !dLoose st.desc then
    let full := st.packs.filter (packFull st)
    if full.isEmpty then (cell, {})
    else
      let q := dropLost x cell.id n { st with packs := st.packs.map (fun p => if packFull st p then { p with lost := true } else p) }
      (countLost (putStream cell dn st q.1 idle) dn full.length, q.2)
  else (cell, {})

/-- STREAM_BOUNDARY: a new run takes the shadow's bases, if the shadow is full (R176, R177); a first row that is planned in a
free-running section may be lost at once (R179). Bases of a shadow are not checked for alignment: the row is that of the address
divided by 512 (DESIGN CHOICE, log entry 104). -/
def execStreamBoundary (c : CellRef) (d : BitVec 4) (s : State) : Host.Outcome State Fault Refusal :=
  .next (match s.cell? c with
    | none => s
    | some cell =>
      let x := s.ctx c.ctx.val
      match Mem.find cell.strm.streams d.toNat with
      | none => s
      | some st =>
        if streamsRun s x ∧ !dLoose st.desc ∧ runsLeft st ∧ x.cc = plannedBeat st st.nextBeat then
          let q := cell.strm.st[d.toNat]'(d.isLt)
          let b : Cell × Stream := match q.shadow with
            | some (sb, db) =>
              ({ cell with strm := { cell.strm with
                  st := cell.strm.st.set d.toNat { q with lastBases := some (sb, db) }
                  shadowSets := cell.strm.shadowSets ++ [(cell.now, d.toNat, none)] } },
                { st with sb := effBase (dSkind st.desc) sb, db := effBase (dDkind st.desc) db })
            | none => (cell, st)
          let r := putLost x c.ctx.val d.toNat b.1 (planBeat b.2)
          (s.setCell c r.1).emit c.ctx.val r.2
        else s)

/-- One index row that stream `dn` waits for, read if its bank is free of ranks 1 to 5; a row of 640 or more reads as all null
(R163, R164), and one with an uncorrectable word is not delivered (R198). -/
def readIndexRow (x : Ctx) (dome dn : Nat) (acc : Cell × Emit) (p : Nat × Nat × Nat) : Cell × Emit :=
  match Mem.find acc.1.strm.streams dn with
  | none => acc
  | some st =>
    let row := dIrow st.desc + p.2.1
    let add (v : Row) : Stream := addBlock { st with idxPending := st.idxPending.erase p } ⟨p.1, p.2.1, x.cc - p.2.2, v⟩
    if x.cc < p.2.2 then acc
    else if 640 ≤ row then
      let cl := setStream acc.1 dn (add (BitVec.allOnes 4096))
      ({ cl with strm := { cl.strm with range := true } }, acc.2)
    else if bankTaken acc.1 5 row then acc
    else
      let r := readRow x (claimBanks acc.1 5 [row]) dome row
      let st' := match r.2.1 with
        | some v => add v
        | none => { st with idxPending := st.idxPending.erase p }
      (setStream r.1 dn st', acc.2.and r.2.2)

/-- INDEX_ROW_READ: the index rows that a stream waits for, each in the first cycle its bank is free (R164). -/
def execIndexRowRead (c : CellRef) (d : BitVec 4) (s : State) : Host.Outcome State Fault Refusal :=
  .next (match s.cell? c with
    | none => s
    | some cell =>
      let x := s.ctx c.ctx.val
      match Mem.find cell.strm.streams d.toNat with
      | none => s
      | some st =>
        if !streamsRun s x then s
        else
          let r := st.idxPending.foldl (readIndexRow x s.clock.dome d.toNat) (cell, {})
          (s.setCell c r.1).emit c.ctx.val r.2)

/-! ### The instructions of the M slots (R177 to R181) -/

def mSlot (m : Bool) : Slot := if m then .M1 else .M0

/-- The window's descriptor with the bases of a start: SGO latches the shadow's bases where it is full (R165, R177). -/
def latchDesc (cell : Cell) (d : BitVec 4) (ra rb : BitVec 5) : Desc :=
  let r := cell.strm.descs[d.toNat]'(d.isLt)
  let q := cell.strm.st[d.toNat]'(d.isLt)
  let b := q.shadow.getD (r.sbase, r.dbase)
  { r with sbase := b.1 + sreg cell ra, dbase := b.2 + sreg cell rb }

/-- A scheduled descriptor other than OWN → OWN in a free-running section (R179). -/
def mFreeRun (cell : Cell) (d : Desc) : Option Nat := if cell.ctl.free && !dLoose d && !ownPair d then some 4 else none

/-- The signals of a run without beats (R174). The arrival of a loose REMOTE one is a SIGNAL message, sent at once (R172; DESIGN
CHOICE, log entry 103). -/
def emptyRun (x : Ctx) (id : CellId) (n : Nat) (d : Desc) : Emit :=
  let t := x.cc + 4
  let g : Group := { run := 0, g := 0, left := 0, lastPlanned := t, due := t + pairLatency x id d true, srcDue := t }
  let dest : Emit := match dSigOut d with
    | none => {}
    | some sig =>
      if dDkind d = 5 then
        (if dLoose d then { msgs := [signalMsg x (dRoute d) (dPeer d) sig 0] } else destSignal x.cc id d g n)
      else
        { arrs := ((if dDkind d = 3 then destCells id d else [id]).map (fun c => (
            { due := g.due, own := false, cell := c, sig := sig, n := 1, bytes := 0 } : Arrival))) }
  dest.and (match dSigSrc d with
    | none => {}
    | some sig => { arrs := [{ due := t, own := false, cell := id, sig := sig, n := 1, bytes := 0 }] })

/-- SGO starts a stream (R165, R175, R177, R181). -/
def execSgo (c : CellRef) (m : Bool) (d : BitVec 4) (ra rb : BitVec 5) (s : State) : Host.Outcome State Fault Refusal :=
  .next (issueSlot s c (mSlot m) (.sgo c m d ra rb) (fun x cell =>
    let l := latchDesc cell d ra rb
    let q := cell.strm.st[d.toNat]'(d.isLt)
    let st : Stream := { desc := l, mover := m, issued := x.cc, sb := effBase (dSkind l) l.sbase
                         db := effBase (dDkind l) l.dbase }
    let cl := setStream cell d.toNat st
    { reason := firstReason [mFreeRun cell l,
        if (Mem.find cell.strm.streams d.toNat).isSome && !cell.strm.started.contains d.toNat then some 8 else none,
        if shapeOk x cell.id l then none else some 9]
      desc := some d.toNat
      cell := { cl with strm := { cl.strm with
        st := cl.strm.st.set d.toNat { q with lastBases := some (l.sbase, l.dbase), mover := m }
        started := d.toNat :: cl.strm.started
        shadowSets := if q.shadow.isSome then cl.strm.shadowSets ++ [(cell.now, d.toNat, none)]
          else cl.strm.shadowSets } }
      emit := if dBeats l = 0 then emptyRun x cell.id c.ctx.val l else {} }))

/-- SARM fills the shadow at the end of its cycle (R177). -/
def execSarm (c : CellRef) (m : Bool) (d : BitVec 4) (ra rb : BitVec 5) (skeep dkeep : Bool) (s : State) :
    Host.Outcome State Fault Refusal :=
  .next (issueSlot s c (mSlot m) (.sarm c m d ra rb skeep dkeep) (fun _ cell =>
    let r := cell.strm.descs[d.toNat]'(d.isLt)
    let q := cell.strm.st[d.toNat]'(d.isLt)
    let kept := q.lastBases.getD (r.sbase, r.dbase)
    let w := (if skeep then kept.1 else sreg cell ra, if dkeep then kept.2 else sreg cell rb)
    { reason := firstReason [mFreeRun cell r, if q.shadow.isSome then some 10 else none]
      desc := some d.toNat
      cell := { cell with strm := { cell.strm with
        shadowSets := cell.strm.shadowSets ++ [(cell.now, d.toNat, some w)] } } }))

/-- SSTOP ends a persistent stream after its run, or the stream at the end of this cycle (R178). -/
def execSstop (c : CellRef) (m : Bool) (d : BitVec 4) (now : Bool) (s : State) : Host.Outcome State Fault Refusal :=
  .next (issueSlot s c (mSlot m) (.sstop c m d now) (fun _ cell =>
    { desc := some d.toNat
      cell := { cell with strm := { cell.strm with
        ends := cell.strm.ends ++ [(cell.now, d.toNat, now)] } } }))

/-! ### The end of a cycle (R175, R177, R178) -/

/-- Packed rows of a stopped stream land as they are, once no element that has issued is still to come (R161, R178). -/
def fillPacks (st : Stream) : Stream :=
  if st.outstanding.any (fun o => decide (o.stage = 0)) then st
  else { st with packs := st.packs.map (fun (p : Pack) => { p with got := max p.got (512 / dSize st.desc) }) }

/-- Discard what a stream has not issued; groups with issued rows send their signals for those rows (R161, R178). -/
def stopStream (x : Ctx) (id : CellId) (n dn : Nat) (st : Stream) : Stream × Emit :=
  let begun := (st.groups.filter (fun (g : Group) => decide (g.issued ≠ 0))).map (fun g => { g with left := 0 })
  let a := landPacks x id n dn (fillPacks { st with ready := [], idxPending := [], stopping := true, groups := begun })
  a.1.groups.foldl (fun acc g =>
    let r := onGroup x id n acc.1 g.run g.g (fun q => q)
    (r.1, acc.2.and r.2)) (a.1, a.2)

/-- Every beat is planned and issued, and nothing is outstanding (R175). -/
def streamDone (x : Ctx) (st : Stream) : Bool :=
  if dBeats st.desc = 0 then decide (st.issued + 4 ≤ x.cc)
  else !beatsLeft st && !(dPersist st.desc && !st.stopping) && st.ready.isEmpty && st.outstanding.isEmpty &&
    (dLoose st.desc || st.packs.isEmpty)

/-- Shadows are filled and emptied at the end of a cycle (R177). -/
def setShadows (cell : Cell) : Cell :=
  let v := cell.strm
  let due := v.shadowSets.filter (fun e => decide (e.1 ≤ cell.now))
  let ordered := due.filter (fun e => e.2.2.isNone) ++ due.filter (fun e => e.2.2.isSome)
  let st := ordered.foldl (fun (st : Vector DescState 16) e =>
    let q := st[e.2.1 % 16]'(Nat.mod_lt _ (by decide))
    st.set (e.2.1 % 16) { q with shadow := e.2.2, shadowRegs := e.2.2.getD q.shadowRegs } (Nat.mod_lt _ (by decide)))
    v.st
  { cell with strm := { v with st := st, shadowSets := v.shadowSets.filter (fun e => !decide (e.1 ≤ cell.now)) } }

/-- SSTOPs take effect: NOW = 1 ends any stream, NOW = 0 a persistent one after its run (R178). -/
def applyStops (x : Ctx) (n : Nat) (cell : Cell) : Cell × Emit :=
  let v := cell.strm
  let r := (v.ends.filter (fun e => decide (e.1 ≤ cell.now))).foldl (fun (acc : Movers × Emit) e =>
    match Mem.find acc.1.streams e.2.1 with
    | none => acc
    | some q =>
      if e.2.2 then
        let t := stopStream x cell.id n e.2.1 q
        let rest := !t.1.outstanding.isEmpty || !t.1.packs.isEmpty
        ({ acc.1 with
            streams := Mem.del acc.1.streams e.2.1
            orphans := if rest then acc.1.orphans ++ [(e.2.1, t.1)] else acc.1.orphans }, acc.2.and t.2)
      else if dPersist q.desc then ({ acc.1 with streams := Mem.put acc.1.streams e.2.1 { q with stopping := true } }, acc.2)
      else acc)
    ({ v with ends := v.ends.filter (fun e => !decide (e.1 ≤ cell.now)) }, {})
  ({ cell with strm := r.1 }, r.2)

/-- The changes of shadows and streams at the end of a cycle. -/
def endStreams (x : Ctx) (n : Nat) (cell : Cell) : Cell × Emit :=
  let r := applyStops x n (setShadows cell)
  let v := r.1.strm
  ({ r.1 with strm := { v with
      streams := v.streams.filter (fun e => !streamDone x e.2)
      orphans := v.orphans.filter (fun e => !(e.2.outstanding.isEmpty && e.2.packs.isEmpty)) } }, r.2)

/-! ### The start of a cycle (R164, R165, R179) -/

/-- Request the index row of a beat that is planned in three cycles (R164): the first beat of a run, and every 128th. A stream
that stops requests those of its run in progress (R178). -/
def askIndexRow (x : Ctx) (st : Stream) : Stream :=
  let total := dBeats st.desc
  let b := (x.cc + 3 - (st.issued + 4)) / max 1 (dPace st.desc)
  let i := b % max 1 total
  let more := decide (b < total) ||
    (dPersist st.desc && (!st.stopping || (decide (0 < st.nextBeat) && decide (b / max 1 total = (st.nextBeat - 1) / max 1 total))))
  if dIdx st.desc ≠ 0 ∧ total ≠ 0 ∧ st.issued + 1 ≤ x.cc ∧ plannedBeat st b = x.cc + 3 ∧ more ∧ i % 128 = 0 then
    { st with idxPending := st.idxPending ++ [(b / total, i / 128, x.cc)] }
  else st

/-- The beats of schedule cycle `x.cc` are planned, index rows due in three cycles are requested, and rows that a
free-running section loses are counted. A boundary's beat is planned by STREAM_BOUNDARY. -/
def startStreams (x : Ctx) (n : Nat) (cell : Cell) : Cell × Emit :=
  let r := cell.strm.streams.foldl (fun (acc : Cell × Emit) e =>
    let st := e.2
    if dLoose st.desc then acc
    else
      let st := if beatsLeft st ∧ plannedBeat st st.nextBeat ≤ x.cc then planBeat st else st
      let q := putLost x n e.1 acc.1 (askIndexRow x st)
      (q.1, acc.2.and q.2)) (cell, {})
  let r := (r.1.strm.streams.map (fun e => (e, false)) ++ r.1.strm.orphans.map (fun e => (e, true))).foldl
    (fun (acc : Cell × Emit) e =>
      let q := losePacks x n e.1.1 acc.1 e.1.2 e.2
      (q.1, acc.2.and q.2)) r
  ({ r.1 with strm := { r.1.strm with section_ := inSection x r.1 } }, r.2)

/-! ### Command cycles of an HBM channel (R32, R170, R206, R212) -/

/-- A cycle lies in the refresh window of a logical channel (R32). -/
def refreshWindow (k c : Nat) : Bool := decide (192 * k ≤ c % 1536) && decide (c % 1536 ≤ 192 * k + 127)

/-- The rules of R206 hold for a command at cycle `t` against one that is placed. -/
def commandFits (t bank : Nat) (write : Bool) (o : Nat × Nat × Bool) : Bool :=
  let d := if t ≤ o.1 then o.1 - t else t - o.1
  let first := if t ≤ o.1 then write else o.2.2
  let second := if t ≤ o.1 then o.2.2 else write
  decide ((if first && !second then 48 else 40) ≤ d) && (decide (o.2.1 ≠ bank) || decide (96 ≤ d))

/-- The scheduled commands of logical channel `k` of region `i` that are still to reach it (R167). -/
def comingCommands (x : Ctx) (i k : Nat) : List (Nat × Nat × Bool) :=
  let on (cmd : Option Nat) (a : Nat) (w : Bool) : List (Nat × Nat × Bool) :=
    match cmd with
    | some t => if x.cc ≤ t ∧ hbmRegion a = i ∧ hbmChannel a = k then [(t, hbmBank a, w)] else []
    | none => []
  x.hreads.flatMap (fun h => on h.cmd h.addr false) ++ x.hwrites.flatMap (fun h => on h.cmd h.addr true)

/-- The schedule and the loose traffic leave a command cycle of logical channel `k` of physical region `p` free now. While the
context is held its schedule uses none (R170, R207, R212; log entry 80). -/
def slotFree (s : State) (p k bank : Nat) (write : Bool) : Bool :=
  let r := s.region p
  (Mem.rd [] r.looseAt k).all (commandFits s.clock.clk bank write) &&
  (match r.owner with
  | none => true
  | some n =>
    let x := s.ctx n
    !running s x || (!refreshWindow k x.cc && (Mem.rd [] r.placed k ++ comingCommands x r.logical k).all (commandFits x.cc bank write)))

/-- A loose or a scrub command takes this command cycle. -/
def State.takeSlot (s : State) (p k bank : Nat) (write : Bool) : State :=
  s.onRegion p (fun r =>
    let recent := (Mem.rd [] r.looseAt k).filter (fun e => decide (s.clock.clk ≤ e.1 + 128))
    { r with looseAt := Mem.put r.looseAt k (recent ++ [(s.clock.clk, bank, write)]) })

/-! ### Loose streams (R170, R171) -/

/-- No scheduled row of the mover is ready, and its row pipe is idle. -/
def moverIdle (x : Ctx) (cell : Cell) (m : Bool) : Bool := (readyRows x cell m).isEmpty && !cell.strm.piped.contains m

/-- A stream with its next beat planned where no row waits. -/
def planLoose (st : Stream) : Stream := if st.ready.isEmpty && beatsLeft st then planBeat st else st

/-- A failed loose host access (R438, Table 14.11). -/
def hostDmaErr (x : Ctx) (cell : Cell) (dome : Nat) (write : Bool) (win dn : Nat) : ErrRec :=
  cellErr x cell dome 0x0040 4 (256 * b01 write + 16 * win + dn)

/-- The host window of a side of a descriptor. -/
def srcWin (d : Desc) : Nat := fld d.ctl 18 15
def dstWin (d : Desc) : Nat := fld d.dpeer 17 14

def hostAddr (x : Ctx) (w : Nat) (off : Int) : Nat := (Mem.rd (0, 0) x.hwin w).1 + off.toNat

/-- The row waits for data from HBM or from the host (R173). -/
def awaitsData (d : Desc) (o : LooseOut) : Bool := decide (dSkind d ≠ 1) && decide (0 ≤ o.src) && decide (o.stage = 0)

/-- Rows of a loose stream that are outstanding (R170). The elements of one packed row, which wait for one landing, count as one
row: OUTLIM 1 would else never let the row fill (DESIGN CHOICE, log entry 81). -/
def outCount (st : Stream) : Nat :=
  (st.outstanding.filter (fun o => decide (o.stage ≠ 3))).length +
  ((st.outstanding.filter (fun o => decide (o.stage = 3))).map (fun o => o.pack)).eraseDups.length

/-- A loose stream issues its next row in this cycle if the row finds its ports idle: no scheduled row of its mover is ready, no
loose stream of a lower descriptor goes first, and fewer than OUTLIM rows are outstanding (R170). -/
def looseTurn (s : State) (x : Ctx) (cell : Cell) (dn : Nat) (st : Stream) : Bool :=
  executing x && !s.unrecoverable && !cellFrozen x cell && dLoose st.desc && moverIdle x cell st.mover &&
  decide (outCount st < dOutLim st.desc) &&
  cell.strm.streams.all (fun e => decide (dn ≤ e.1) || !dLoose e.2.desc || decide (e.2.mover ≠ st.mover) ||
    (planLoose e.2).ready.isEmpty || decide (dOutLim e.2.desc ≤ outCount e.2))

/-- The index row that the next row of a loose stream needs is read in an idle read access, in a cycle before that of the row
(R163; log entry 12). -/
def looseIndexRow (s : State) (c : CellRef) (x : Ctx) (cell : Cell) (dn : Nat) (st : Stream) (r : ReadyRow) : State :=
  let row := dIrow st.desc + r.i / 128
  let add (v : Row) : Stream := addBlock st ⟨r.run, r.i / 128, 0, v⟩
  if 640 ≤ row then
    let cl := setStream cell dn (add (BitVec.allOnes 4096))
    s.setCell c { cl with strm := { cl.strm with range := true } }
  else if bankTaken cell 7 row then s
  else
    let q := readRow x (claimBanks cell 7 [row]) s.clock.dome row
    match q.2.1 with
    | some v => (s.setCell c (setStream q.1 dn (add v))).emit c.ctx.val q.2.2
    | none => (s.setCell c q.1).emit c.ctx.val q.2.2

/-- What a loose row uses of the HBM channels: address and write; one command for each unit (R167, R170). -/
def looseCommand (d : Desc) (r : ReadyRow) (src dst : Int) (srcOk dstOk : Bool) : Option (Nat × Bool) :=
  if dSkind d = 4 ∧ srcOk ∧ r.j = 0 then some (src.toNat, false)
  else if dDkind d = 4 ∧ dstOk ∧ r.j + 1 = beatRows d then some (dst.toNat, true)
  else none

/-- The lowest PCIe tag that no host read over port `h` has, of 14 bits in Flit Mode and of 10 otherwise (Table 13.1, R364;
log entry 92). -/
def State.freeTag (s : State) (h : Fin 2) : Option Nat :=
  (List.range (if (s.hostLink h).2.2 = 1 then 16384 else 1024)).find? (fun t =>
    !s.hostReads.any (fun r => decide (r.host = h) && decide (r.tag = t)))

/-- A host read of row `row` goes out over port `h`. -/
def State.takeTag (s : State) (h : Fin 2) (c : CellRef) (dn row : Nat) : State :=
  match s.freeTag h with
  | some t => { s with hostReads := s.hostReads ++ [{ host := h, tag := t, ctx := c.ctx, cell := c.id, d := dn, row := row }] }
  | none => s

/-- The completion of a host read has come, or can come no more (R364). -/
def State.dropHostTag (s : State) (c : CellRef) (dn row : Nat) : State :=
  { s with hostReads := s.hostReads.filter (fun h =>
      !(decide (h.ctx = c.ctx) && decide (h.cell = c.id) && decide (h.d = dn) && decide (h.row = row))) }

/-- The number of the next loose row of a cell: no row takes that of a host read that is still to be answered. -/
def rowNum (s : State) (c : CellRef) (next : Nat) : Nat :=
  (s.hostReads.filter (fun h => decide (h.ctx = c.ctx) && decide (h.cell = c.id))).foldl (fun m h => max m (h.row + 1)) next

/-- The next row of loose stream `dn`, with index word `w`, issues (R170). A row with an uncorrectable word is not delivered
(R198), and a host read waits for a tag (log entry 92). -/
def looseRow (s : State) (c : CellRef) (x : Ctx) (cell : Cell) (dn : Nat) (st : Stream) (r : ReadyRow) (w : Word) : State :=
  let n := c.ctx.val
  let d := st.desc
  let sides := rowSides st r w
  let srcOk := !sides.2.1 && sideOk x (dSkind d) (srcWin d) sides.1 (dSize d)
  let dstOk := !sides.2.2.2 && sideOk x (dDkind d) (dstWin d) sides.2.2.1 (dSize d)
  let row := sides.1.toNat / 512 + r.j
  let needs := decide (dSkind d = 1) && srcOk
  let cmd := looseCommand d r sides.1 sides.2.2.1 srcOk dstOk
  let channel (a : Nat) : Nat := x.regions.getD (hbmRegion a) 0
  let hostRead := decide (dSkind d = 6) && srcOk
  let hostWrite := decide (dDkind d = 6) && dstOk
  let stuck := (hostRead || hostWrite) && !(s.fn x.owner).cfg.busMaster
  if (needs && bankTaken cell 7 row) || (hostRead && !stuck && (s.freeTag x.owner.host).isNone) ||
      cmd.any (fun e => !slotFree s (channel e.1) (hbmChannel e.1) (hbmBank e.1) e.2) then s
  else
    let s := match cmd with
      | some e => s.takeSlot (channel e.1) (hbmChannel e.1) (hbmBank e.1) e.2
      | none => s
    let rd := if needs then readRow x (claimBanks cell 7 [row]) s.clock.dome row else (cell, some 0, {})
    if rd.2.1.isNone then
      let q := onGroup x cell.id n { st with ready := st.ready.tail } r.run (groupOf st r) (fun g =>
        { g with left := g.left - 1, issued := g.issued + 1 })
      (s.setCell c (markPiped (setStream rd.1 dn q.1) st.mover)).emit n (rd.2.2.and q.2)
    else
    let raw := rd.2.1.getD 0
    let data := if needs && decide (dSize d < 512) then rowPart raw (sides.1.toNat % 512) (dSize d) else raw
    let num := rowNum s c cell.strm.nextRow
    let range := (!sides.2.1 && !srcOk) || (!sides.2.2.2 && !dstOk)
    let gi := groupOf st r
    let nb := if dstOk then rowBytes d else 0
    let off := sides.1 + 512 * (r.j : Int)
    let outRow : LooseOut := {
      row := num, run := r.run, i := r.i, g := gi, src := if srcOk then off else -1
      dst := if dstOk then sides.2.2.1 + (if isPacked d then 0 else 512 * (r.j : Int)) else -1
      data := data, bytes := nb, stage := 0, need := (destCells cell.id d).length, stuck := stuck
      addr := if hostRead then hostAddr x (srcWin d) off
        else if hostWrite then hostAddr x (dstWin d) (sides.2.2.1 + 512 * (r.j : Int)) else 0 }
    let onPack := isPacked d && dstOk && decide (dSkind d = 1)
    let direct := decide (dSkind d = 1) && dstOk && !isPacked d && isSpad (dDkind d)
    let k : Stream × Option Nat := if onPack then
        let q := packElement { st with ready := st.ready.tail } r sides.2.2.1 data x.nextId 0 0 0 false
        (q.1, some q.2.1)
      else ({ st with ready := st.ready.tail }, none)
    let q := onGroup x cell.id n k.1 r.run gi (fun g =>
      { g with left := g.left - 1, issued := g.issued + 1, bytes := g.bytes + nb
               opened := g.opened + 1 + b01 onPack, unread := g.unread + b01 (awaitsData d outRow) })
    let st := { q.1 with outstanding := q.1.outstanding ++ [{ outRow with stage := if onPack then 3 else 0, pack := k.2 }] }
    let p := landPacks x cell.id n dn st
    let lr : LooseRow := { row := (outRow.dst / 512).toNat, data := data, sig := dSigOut d, bytes := nb
                           reply := .loose n cell.id dn num }
    let send : Emit :=
      if !direct then {}
      else if dDkind d = 5 then { msgs := [looseRowMsg x d lr.row data] }
      else { loose := (destCells cell.id d).map (fun dc => .row n dc lr) }
    let errs : Emit := if stuck then
        { errs := [hostDmaErr x cell s.clock.dome hostWrite (if hostWrite then dstWin d else srcWin d) dn] } else {}
    let cl := markPiped (setStream rd.1 dn p.1) st.mover
    let cl := { cl with strm := { cl.strm with nextRow := num + 1, range := cl.strm.range || range } }
    let s' := (s.setCell c cl).emit n ((((rd.2.2.and q.2).and p.2).and send).and (errs.and { ids := 1 }))
    if hostRead && !stuck then (s'.takeTag x.owner.host c dn num).emitOut [.hostRead n outRow.addr (rowBytes d)] else s'

/-- LOOSE_ROW_ISSUE: the next row of loose stream `dn` issues where the schedule leaves its ports idle (R170). -/
def looseIssue (s : State) (c : CellRef) (dn : Nat) : State :=
  match s.cell? c with
  | none => s
  | some cell =>
    let x := s.ctx c.ctx.val
    match Mem.find cell.strm.streams dn with
    | none => s
    | some st0 =>
      let st := planLoose st0
      if !looseTurn s x cell dn st then s
      else match st.ready with
        | [] => s
        | r :: _ =>
          match indexOf st r with
          | none => looseIndexRow s c x cell dn st r
          | some (w, _) => looseRow s c x cell dn st r w

def execLooseRowIssue (c : CellRef) (d : BitVec 4) (s : State) : Host.Outcome State Fault Refusal :=
  .next (looseIssue s c d.toNat)

/-- The data of a row has come (R173). -/
def dataCame (x : Ctx) (id : CellId) (n : Nat) (st : Stream) (o : LooseOut) : Stream × Emit :=
  onGroup x id n st o.run o.g (fun g => { g with unread := g.unread - b01 (awaitsData st.desc o) })

/-- An outstanding row is finished: its group is settled (R170, R172). -/
def finishLoose (x : Ctx) (id : CellId) (n : Nat) (st : Stream) (o : LooseOut) : Stream × Emit :=
  onGroup x id n { st with outstanding := st.outstanding.filter (fun q => decide (q.row ≠ o.row)) } o.run o.g
    (fun g => { g with opened := g.opened - 1 })

/-- Read 512 bytes or less of a context's logical HBM (R201, R204). -/
def hbmPeek (s : State) (x : Ctx) (a len : Nat) : Row :=
  let r := s.region (x.regions.getD (hbmRegion a) 0)
  let off := hbmOffset a
  let words := (List.range (len / 64)).map (fun k => (Mem.rd 0 r.hbm (off / 64 + k)).toNat)
  BitVec.ofNat 4096 (words.foldr (fun w acc => acc * 2 ^ 512 + w) 0)

/-- Write up to 512 bytes of a context's logical HBM. -/
def hbmPoke (s : State) (x : Ctx) (a len : Nat) (v : Row) : State :=
  s.onRegion (x.regions.getD (hbmRegion a) 0) (fun r =>
    let hbm := (List.range (len / 64)).foldl
      (fun m k => Mem.wr 0 m (hbmOffset a / 64 + k) (v.extractLsb' (512 * k) 512)) r.hbm
    { r with hbm := hbm })

/-- The stream, active or not, that has row `num` outstanding, and whether it is an orphan. -/
def findLoose (cell : Cell) (dn num : Nat) : Option (Stream × LooseOut × Bool) :=
  let has (st : Stream) : Option LooseOut := st.outstanding.find? (fun o => decide (o.row = num))
  match (Mem.find cell.strm.streams dn).bind (fun st => (has st).map (fun o => (st, o, false))) with
  | some r => some r
  | none => cell.strm.orphans.findSome? (fun e => if e.1 = dn then (has e.2).map (fun o => (e.2, o, true)) else none)

/-- Data for a loose row has come from the host or from HBM, to the scratchpad: whole rows wait for a write access,
packed elements join their row and stay outstanding until it has landed. -/
def looseArrive (x : Ctx) (cell : Cell) (n dn : Nat) (st : Stream) (o : LooseOut) (v : Row) : Stream × List LooseRow × Emit :=
  let d := st.desc
  if o.dst < 0 then
    let q := finishLoose x cell.id n st o
    (q.1, [], q.2)
  else if isPacked d then
    let rr : ReadyRow := { beat := 0, i := o.i, run := o.run, j := 0, planned := 0, src := 0, dst := 0 }
    let k := packElement st rr o.dst v x.nextId 0 0 0 false
    let opened := onGroup x cell.id n k.1 o.run o.g (fun g => { g with opened := g.opened + 1 })
    let st := { opened.1 with outstanding := opened.1.outstanding.map (fun q =>
      if q.row = o.row then { q with stage := 3, pack := some k.2.1 } else q) }
    let p := landPacks x cell.id n dn (if st.stopping then fillPacks st else st)
    (p.1, [], (opened.2.and p.2).and { ids := 1 })
  else
    ({ st with outstanding := st.outstanding.map (fun q => if q.row = o.row then { q with stage := 1, need := 1 } else q) },
      [{ row := (o.dst / 512).toNat, data := v, sig := dSigOut d, bytes := o.bytes, reply := .loose n cell.id dn o.row }],
      {})

/-- A cell acknowledges a loose row that has landed: a packed row with all its elements (R170). -/
def ackLoose (s : State) (n : Nat) (id : CellId) (dn row : Nat) : State :=
  let ack (a o : LooseOut) : LooseOut :=
    if o.row = row ∨ (o.pack.isSome ∧ o.pack = a.pack) then
      { o with need := o.need - 1, stage := if o.need ≤ 1 then 2 else o.stage } else o
  let f (cell : Cell) : Cell :=
    match findLoose cell dn row with
    | none => cell
    | some (st, a, orphan) => putStream cell dn st { st with outstanding := st.outstanding.map (ack a) } orphan
  { s with cells := Mem.adjust f s.cells (n * 16384 + id.toNat) }

/-! ### Registers (R184) -/

/-- Rows of descriptor `k` that are outstanding: those of its stream, and those of a stream that SSTOP has ended (R170, R178). -/
def outstandingRows (v : Movers) (k : Nat) : Nat :=
  min 127 ((match Mem.find v.streams k with | some t => outCount t | none => 0) +
    sumNat ((v.orphans.filter (fun e => decide (e.1 = k))).map (fun e => outCount e.2)))

def readStrm (cell : Cell) (n : Nat) : Word :=
  let v := cell.strm
  let d := v.descs[v.dsel.toNat]'(v.dsel.isLt)
  let q := v.st[v.dsel.toNat]'(v.dsel.isLt)
  let active (k : Nat) : Bool := (Mem.find v.streams k).isSome
  if n = 0x300 then
    packFields 32 [(31, 16, sumNat ((List.range 16).map (fun k => b01 (active k) * 2 ^ k))), (3, 3, b01 v.range),
      (2, 2, b01 v.lostAny), (1, 1, b01 v.defer)]
  else if n = 0x301 then v.dsel.setWidth 32
  else if n = 0x310 then d.ctl
  else if n = 0x311 then d.sbase
  else if n = 0x312 then d.dbase
  else if n = 0x313 then d.dpeer
  else if n = 0x314 then d.cnt01
  else if n = 0x315 then d.cnt23
  else if n = 0x316 then d.cnt45
  else if n < 0x31D then d.sstr[(n - 0x317) % 6]'(Nat.mod_lt _ (by decide))
  else if n < 0x323 then d.dstr[(n - 0x31D) % 6]'(Nat.mod_lt _ (by decide))
  else if n = 0x323 then d.sig
  else if n = 0x324 then d.aux
  else if n = 0x325 then q.shadowRegs.1
  else if n = 0x326 then q.shadowRegs.2
  else
    let k := (n - 0x340) % 16
    have hk : k < 16 := Nat.mod_lt _ (by decide)
    let w := v.st[k]
    let st := Mem.find v.streams k
    packFields 32 [(31, 31, b01 st.isSome), (30, 30, b01 w.mover), (29, 29, b01 w.shadow.isSome),
      (28, 28, match st with | some t => b01 t.stopping | none => 0),
      (27, 21, outstandingRows v k), (20, 13, w.deferred), (12, 5, w.lost)]

def writeStrm (v : Movers) (n : Nat) (w : Word) : Movers :=
  let k := v.dsel.toNat
  have hk : k < 16 := v.dsel.isLt
  let d := v.descs[k]
  let put (d : Desc) : Movers := { v with descs := v.descs.set k d }
  if n = 0x300 then { v with range := v.range && !bit w 3, lostAny := v.lostAny && !bit w 2, defer := v.defer && !bit w 1 }
  else if n = 0x301 then { v with dsel := w.setWidth 4 }
  else if n = 0x310 then put { d with ctl := w &&& 0xFFFF8000#32 }
  else if n = 0x311 then put { d with sbase := w }
  else if n = 0x312 then put { d with dbase := w }
  else if n = 0x313 then put { d with dpeer := w &&& 0xFF03FFFF#32 }
  else if n = 0x314 then put { d with cnt01 := w }
  else if n = 0x315 then put { d with cnt23 := w }
  else if n = 0x316 then put { d with cnt45 := w }
  else if n < 0x317 then v
  else if n < 0x31D then put { d with sstr := d.sstr.set ((n - 0x317) % 6) w (Nat.mod_lt _ (by decide)) }
  else if n < 0x323 then put { d with dstr := d.dstr.set ((n - 0x31D) % 6) w (Nat.mod_lt _ (by decide)) }
  else if n = 0x323 then put { d with sig := w &&& 0xBFBFFFFF#32 }
  else if n = 0x324 then put { d with aux := w }
  else v

end Sys2Proof.Machine
end

