-- ==== Sys2Proof/Machine/Cycle.lean ====
section
/-!
DEFINITION. Sys2Proof/Machine/Cycle.lean: the end of one cycle and the beginning of the next, for a cell and for a
context: the fetch of a course (R52 to R54, R60), HBM samples (R25, R26) and the placing of HBM commands (R206, R207).
-/
namespace Sys2Proof.Machine

/-- The cells of context `n`, as operands name them. -/
def State.cellRefs (s : State) (n : Nat) : List CellRef :=
  (s.cells.filter (fun e => decide (e.1 / 16384 = n))).map (fun e => ⟨Fin.ofNat 32 (e.1 / 16384), BitVec.ofNat 14 e.1⟩)

/-- A cell ends its cycle: buckets change, its course ends, and its claims lapse. -/
def closeCell (cell : Cell) : Cell :=
  let cl := landBuckets cell.now cell
  { cl with
    now := cl.now + 1, begun := false, ctl := endCourse cl.ctl, spad := { cl.spad with claims := [] }
    strm := { cl.strm with claims := [], started := [], piped := [] } }

/-- The uncorrectable 64-bit words of the course at an address, as it is executed in cycle `t` (R60, R61). -/
def badFetch (cell : Cell) (pc : BitVec 11) (t : Nat) : List Nat :=
  if cell.sc.overlays.any (fun o => decide (o.due < t) && decide (o.group = pc.toNat / 16)) then []
  else ((List.range 4).map (fun k => 4 * pc.toNat + k)).filter
    (fun w => decide (Mem.rd .good cell.imemErr w = .uncorrectable))

/-- The fetch stage finds the words `ws` uncorrectable; it reports the first, once (R60). -/
def reportFetch (x : Ctx) (dome : Nat) (cell : Cell) (ws : List Nat) : Cell × Emit :=
  match ws with
  | w :: _ =>
    if cell.ctl.reported then (cell, {})
    else ({ cell with ctl := { cell.ctl with reported := true } }, { errs := [cellErr x cell dome 0x0021 1 (8 * w)] })
  | [] => (cell, {})

/-- The address of the course after the one that begins with control `ctl`, none where the cell issues no course or an empty
one there: a HALT or a LOOP with count 0 that the course issues has its effect, and a LOOP that pushes its entry is followed by
the course after it (R70, R71, R74 to R77, R79). -/
def followAddress (c : CellRef) (cell : Cell) (ctl : Control) : Option (BitVec 11) :=
  let next := endCourse { ctl with live := true }
  let plain := if next.halted || decide (next.empties ≠ 0) then none else some next.pc
  if ctl.empties ≠ 0 ∨ ctl.delay ≠ 0 then plain
  else match decodeS c (courseS (Mem.rd 0 cell.imem ctl.pc.toNat)) with
    | some (.halt ..) => none
    | some (.loop d ra reg dd count last) =>
      if legal (.loop d ra reg dd count last) ∧ ctl.pc.toNat < last.toNat ∧ ctl.loops.length < 4 then
        if loopCount cell ra reg count = 0 then none else some (ctl.pc + 1)
      else plain
    | _ => plain

/-- The address of the course of the cell's next cycle but one, which the fetch stage fetches in this cycle (R59). -/
def fetchAddress (c : CellRef) (cell : Cell) : Option (BitVec 11) :=
  let one := endCourse cell.ctl
  if !cell.ctl.live || one.halted then none else followAddress c cell one

/-- The fetch stage at the end of a cycle (R59, R60). -/
def fetchAhead (x : Ctx) (dome : Nat) (c : CellRef) (cell : Cell) : Cell × Emit :=
  match fetchAddress c cell with
  | none => (cell, {})
  | some pc => reportFetch x dome cell (badFetch cell pc (cell.now + 2))

/-- The cell takes the course of this cycle: none while it is halted or waits; slots that decode to no instruction are
skipped as illegal at once, before the others (R54, R55, R57, R74, R234, R243; log entry 83 on the order in the slot log). The
fetch has found an uncorrectable word two courses before; the first two courses, which are fetched before cycle 0, report at cycle
0 (log entry 84). -/
def fetchCourse (x : Ctx) (dome : Nat) (c : CellRef) (cell : Cell) : Cell × Emit :=
  let ctl := { cell.ctl with live := false, issued := [] }
  if ctl.halted || ctl.waiting.isSome || ctl.rejoining.isSome then ({ cell with ctl := ctl }, {})
  else if ctl.empties > 0 then ({ cell with ctl := { ctl with live := true } }, {})
  else match badFetch cell cell.ctl.pc cell.now with
    | w :: l => reportFetch x dome { cell with ctl := ctl } (w :: l)
    | [] =>
      let start := { cell with ctl := { ctl with live := true } }
      ((decodeCourse c (Mem.rd 0 cell.imem cell.ctl.pc.toNat)).foldl (fun cl e =>
        match e.2.2 with
        | none => markIssued (skipSlot x cl e.1 e.2.1 1) e.1
        | some _ => cl) start, {})

/-- The fetch of the second course, at the first cycle of a context; a course that a HALT keeps from issuing is not fetched
(R59). -/
def fetchSecond (x : Ctx) (dome : Nat) (c : CellRef) (cell : Cell) : Cell × Emit :=
  if x.cc = 0 ∧ cell.ctl.live then
    match followAddress c cell cell.ctl with
    | some pc => reportFetch x dome cell (badFetch cell pc (cell.now + 1))
    | none => (cell, {})
  else (cell, {})

/-- A cell begins a cycle; `sched` says that the schedule cycle of its context begins too. -/
def openCell (s : State) (n : Nat) (sched : Bool) (c : CellRef) : State :=
  match s.cell? c with
  | none => s
  | some cell =>
    let x := s.ctx n
    let v := vecCycle cell
    let st := if sched then startStreams x n v.1 else (v.1, {})
    let f := fetchCourse x s.clock.dome c st.1
    let g := fetchSecond x s.clock.dome c f.1
    (s.setCell c { g.1 with begun := true }).emit n (v.2.and (st.2.and (f.2.and g.2)))

/-- In an OVERRUN hold the cells in free-running sections go on, in core clock cycles (R36, R47). -/
def openFree (s : State) (n : Nat) : State :=
  let x := s.ctx n
  if executing x && x.hold.held && overrunOnly x.hold && !s.unrecoverable then
    (s.cellRefs n).foldl (fun s c =>
      match s.cell? c with
      | some cell => if cell.ctl.free && !cell.begun then openCell s n false c else s
      | none => s) s
  else s

/-! ### HBM commands (R206, R207) -/

/-- The first cycle from `t` on at which the command fits. From 96 cycles after the last placed command on only the refresh
window of 128 cycles stands against it. -/
def placeAt (placed : List (Nat × Nat × Bool)) (k bank : Nat) (write : Bool) : Nat → Nat → Nat
  | 0, t => t
  | fuel + 1, t =>
    if !refreshWindow k t && placed.all (commandFits t bank write) then t else placeAt placed k bank write fuel (t + 1)

/-- An HBM command that reaches its channel: where it came from, and its address. -/
structure Command where
  order : Nat
  addr : Nat
  write : Bool
  deriving DecidableEq, Repr

/-- The commands with command cycle `x.cc`, in the order of R207. -/
def commandsNow (x : Ctx) : List Command :=
  let key (id : CellId) (m : Bool) (d : Nat) : Nat := 32 * id.toNat + 16 * b01 m + d
  sortBy (·.order)
    ((x.hreads.filter (fun h => decide (h.cmd = some x.cc))).map (fun h => (⟨key h.cell h.mover h.d, h.addr, false⟩ : Command)) ++
     (x.hwrites.filter (fun h => decide (h.cmd = some x.cc))).map (fun h => (⟨key h.cell h.mover h.d, h.addr, true⟩ : Command)))

/-- Place one command on its logical channel, counting a delay (R207). -/
def placeCommand (x : Ctx) (s : State) (q : Command) : State :=
  s.onRegion (x.regions.getD (hbmRegion q.addr) 0) (fun r =>
    let k := hbmChannel q.addr
    let old := (Mem.rd [] r.placed k).filter (fun e => decide (x.cc ≤ e.1 + 128))
    let t := placeAt old k (hbmBank q.addr) q.write (old.foldl (fun m e => max m e.1) x.cc + 256 - x.cc) x.cc
    { r with
      placed := Mem.put r.placed k (old ++ [(t, hbmBank q.addr, q.write)])
      delayed := if t = x.cc then r.delayed else satInc 0xFFFF r.delayed })

/-- Reads that sample in this cycle take their data (R25, R26). -/
def sampleReads (s : State) (x : Ctx) : Ctx :=
  { x with hreads := x.hreads.map (fun h => if h.sample = x.cc then { h with data := some (hbmPeek s x h.addr h.len) } else h) }

/-- A context begins schedule cycle `cc`. -/
def openCtx (s : State) (n : Nat) : State :=
  let s := s.onCtx n (fun x => sampleReads s { x with fresh := false })
  let x := s.ctx n
  let s := (commandsNow x).foldl (placeCommand x) s
  let s := (s.cellRefs n).foldl (fun s c => openCell s n true c) s
  s.onCtx n (fun x => { x with afrPeak := max x.afrPeak (bktsInFlight (s.cellsOf n)) })

end Sys2Proof.Machine
end

