-- ==== Sys2Proof/Machine/Hold.lean ====
section
/-!
DEFINITION. Sys2Proof/Machine/Hold.lean: holds (R35 to R42, R44, R45, R47), presence checks (R29) and
refresh debt (R33).
-/
namespace Sys2Proof.Machine

/-! ### Scheduled instances that a module expects (R285, R288) -/

/-- The instance of an expected pair that is due at `due`, if a slot cycle of the pair leads to it. -/
def expectedAt (e : Expect) (due : Nat) : Bool :=
  decide (e.lat ≤ due) && decide ((due - e.lat) % 320 = 10 * e.pair)

/-- The instance has arrived whole: both flits of its row, or its VACANT flit (R288). -/
def instanceWhole (i : Instance) : Bool := decide (i.mtype = 0x01) || (i.half0.isSome && i.half1.isSome)

/-- An expected instance due at `due` is in the landing buffer. -/
def instancePresent (x : Ctx) (e : Expect) (due : Nat) : Bool :=
  x.instances.any (fun i => decide (i.port = e.port) && decide (i.route = e.route) && decide (i.due = due) && instanceWhole i)

/-- The ports whose expected instances due at `due` are absent, with their routes. -/
def absentAt (x : Ctx) (due : Nat) : List Expect :=
  x.expects.filter (fun e => expectedAt e due && !instancePresent x e due)

/-- Cause and source of a hold for an absent instance (R39, R41, Table 2.4). -/
def linkCause (x : Ctx) (e : Expect) : HoldCause × Nat :=
  (if x.lagging.contains (256 * e.port + e.route) then .partner else .linkLate, e.port)

/-- SOURCE of a channel (Table 2.4). -/
def channelSource (addr : Nat) : Nat := 8 * hbmRegion addr + hbmChannel addr

/-- PRESENCE_CHECK: data due in 48 cycles that is absent requests a hold (R29). -/
def presence (s : State) (n : Nat) : State :=
  let x := s.ctx n
  if running s x then
    let link := (absentAt x (x.cc + 48)).map (linkCause x)
    let hbm := (x.hreads.filter (fun h => decide (h.due = x.cc + 48) && !h.present)).map
      (fun h => (HoldCause.hbmLate, channelSource h.addr))
    s.setCtx n ((link ++ hbm).foldl (fun x q => requestHold x s.clock.clk q.1 q.2) x)
  else s

def execPresenceCheck (n : Fin 32) (s : State) : Host.Outcome State Fault Refusal := .next (presence s n.val)

/-! ### Participants of barriers (Table 10.2, R237, R238) -/

/-- The logical cells of a scope, from the values of an arrival. -/
def participants (k : Nat) (scope unit cellmask regmask : Nat) : List CellId :=
  let cells (r b : Nat) : List CellId :=
    ((List.range 16).filter (fun c => decide (cellmask / 2 ^ c % 2 = 1))).map (fun c => cellIdOf r b c)
  let region (r : Nat) : List CellId := (List.range 24).flatMap (cells r)
  match scope with
  | 0 => [BitVec.ofNat 14 unit]
  | 1 => cells (unit / 32) (unit % 32)
  | 2 => region unit
  | 3 => ((List.range k).filter (fun r => decide (regmask / 2 ^ r % 2 = 1))).flatMap region
  | _ => (List.range k).flatMap region

/-- The scope unit that contains a cell. -/
def scopeUnit (scope : Nat) (id : CellId) : Nat :=
  match scope with
  | 0 => id.toNat
  | 1 => 32 * regionOf id + blockOf id
  | 2 => regionOf id
  | _ => 0

/-- The participants of the current generation of an instance. -/
def instCells (x : Ctx) (i : BarInst) : List CellId :=
  match i.curKey with
  | some (cm, rm, _) => participants x.regions.length i.scope i.unit cm rm
  | none => []

/-- A cell that counts as arrived because it has halted, or halts with its course (R74, R238, R240). -/
def haltedCell (s : State) (n : Nat) (id : CellId) : Bool :=
  match s.cell? ⟨Fin.ofNat 32 n, id⟩ with
  | some c => c.ctl.halted || c.ctl.halting
  | none => true

/-- Participants that have neither arrived nor halted. -/
def missing (s : State) (n : Nat) (i : BarInst) : List CellId :=
  (instCells (s.ctx n) i).filter (fun id => !i.cur.any (fun e => decide (e.1 = id)) && !haltedCell s n id)

/-- The lowest logical region among the participants (R244). -/
def lowestRegion (x : Ctx) (i : BarInst) : Nat := (instCells x i).foldl (fun m id => min m (regionOf id)) 31

/-! ### The root (R35, R37, R38, R42) -/

/-- The context is one that a hold can stop (R39, R44, R349): launched or armed, and not ended by a kill. -/
def holdable (x : Ctx) : Bool := decide (x.state = .armed) || decide (x.state = .running) || decide (x.state = .done)

/-- Cause mask (Table 2.4). -/
def causeMask (l : List (HoldCause × Nat)) : Byte :=
  l.foldl (fun m e => m ||| BitVec.ofNat 8 (2 ^ causeBit e.1)) 0

/-- The source of the lowest-numbered cause (Table 2.7). -/
def lowestSource (l : List (HoldCause × Nat)) : Nat :=
  match sortBy (fun e => causeBit e.1) l with
  | e :: _ => e.2
  | [] => 0

/-- The log entry of the hold in force takes the causes that have joined (Table 2.7). -/
def logCauses (h : Hold) : Hold :=
  if h.held then
    let i := (h.logNext + 15) % 16
    let e := Mem.rd ⟨0, 0, 0, 0, 0⟩ h.log i
    { h with log := Mem.put h.log i { e with causes := causeMask h.joined, src := lowestSource h.joined } }
  else h

/-- Accept one request: it begins a hold at H = A + 32, or H = 0 before cycle 0, or joins the one that is pending or in
force (R35, R38, R44). -/
def acceptHold (x : Ctx) (r : HoldReq) : Ctx :=
  let h := { x.hold with reqs := x.hold.reqs.erase r }
  if !holdable x then { x with hold := h }
  else if h.pending || h.held then
    { x with hold := logCauses { h with
        opened := if h.opened.contains (r.cause, r.src) then h.opened else h.opened ++ [(r.cause, r.src)]
        joined := h.joined ++ [(r.cause, r.src)], causes := causeMask (h.joined ++ [(r.cause, r.src)]), lastRelease := none } }
  else
    { x with hold := { h with
        pending := true, cycle := if x.state = .armed then 0 else x.cc + 32
        opened := [(r.cause, r.src)], joined := [(r.cause, r.src)], causes := causeMask [(r.cause, r.src)]
        lastRelease := none, limit := 0 } }

/-- HOLD_ACCEPT: the root accepts the first request of the context that has reached it (R35). -/
def execHoldAccept (n : Fin 32) (s : State) : Host.Outcome State Fault Refusal :=
  .next (s.onCtx n.val (fun x => match x.hold.reqs.find? (holdDue s.clock.clk) with | some r => acceptHold x r | none => x))

/-- Routes of the context that carry scheduled messages from this module (R286, R293). -/
def ownedRoutes (x : Ctx) : List Nat :=
  ((x.slots.filter (fun e => decide (e.2.kind = 1))).map (fun e => e.2.route)).eraseDups

/-- Send a control flit on a route of context `n` (R293, R294). -/
def State.sendControl (s : State) (n route : Nat) (mtype : BitVec 6) (payload : Nat) : State :=
  let x := s.ctx n
  match firstPort x route with
  | none => s
  | some p => s.onPort p (fun q =>
      { q with ctrl := q.ctrl ++ [ctxFlit x 1 mtype route 0 0 (BitVec.ofNat 2048 payload)] })

/-- The pending hold takes place in this cycle: its cycle H has come, and no kill has come before it (R35, R360). -/
def freezesNow (x : Ctx) : Bool :=
  x.hold.pending && decide (x.hold.cycle ≤ x.cc) &&
    (holdable x || (decide (x.state = .killing) && x.kill.any (·.duringHold)))

/-- HOLD_FREEZE: the cells stop before cycle H; the hold is counted and logged, and partners are told (R35, R41, R42). A
hold that comes at K of a kill has END at the kill's start, and nobody is told (Table 2.9). -/
def freeze (s : State) (n : Nat) : State :=
  let x := s.ctx n
  let h := x.hold
  let killed := if x.state = .killing then x.kill else none
  if freezesNow x then
    let dome := s.clock.dome
    let stop := match killed with | some k => k.startDome | none => 0
    let h' : Hold := { h with
      pending := false, held := true, start := dome, count := satInc 0xFFFFFFFF h.count, logNext := (h.logNext + 1) % 16
      log := Mem.put h.log h.logNext ⟨dome, stop, h.cycle, causeMask h.joined, lowestSource h.joined⟩ }
    let s := openFree (s.setCtx n { x with hold := h', fresh := true }) n
    if killed.isSome then s
    else (ownedRoutes x).foldl (fun s r => s.sendControl n r 0x11 (h.cycle % 2 ^ 64 + 2 ^ 64 * (dome % 2 ^ 64))) s
  else s

def execHoldFreeze (n : Fin 32) (s : State) : Host.Outcome State Fault Refusal := .next (freeze s n.val)

/-- The due cycles that presence checks have reached: those up to cycle `cc` + 48, once cycle `cc` has begun (R29). -/
def checkedTo (x : Ctx) : Nat := if x.fresh then x.cc + 47 else x.cc + 48

/-- A cause has not cleared: a port or a channel still lacks data that a presence check has missed (Table 2.4). -/
def stillLate (s : State) (n : Nat) (e : HoldCause × Nat) : Bool :=
  let x := s.ctx n
  match e.1 with
  | .linkLate | .partner =>
    (List.range (checkedTo x + 1 - x.cc)).any (fun k => (absentAt x (x.cc + k)).any (fun a => decide (a.port = e.2)))
  | .hbmLate => x.hreads.any (fun h => decide (h.due ≤ checkedTo x) && !h.present && decide (channelSource h.addr = e.2))
  | .refresh =>
    let r := s.region (x.regions.getD (e.2 / 8) 0)
    decide (Mem.rd 0 r.debt (fld r.chmap (3 * (e.2 % 8) + 2) (3 * (e.2 % 8))) ≠ 0)
  | .thermal => s.power.thermalHold || decide (s.clock.khz ≠ s.clock.groupKhz)
  | .power => s.power.supplyLow || s.power.overPower || decide (s.clock.khz ≠ s.clock.groupKhz)
  | .overrun => x.bars.any (fun i => i.rejoin && i.checked && decide (lowestRegion x i = e.2) && !(missing s n i).isEmpty)

/-- HOLD_RELEASE: causes that have cleared are released; with the last one of a hold in force, or of one that stops a
context before its launch edge, the root accepts the release (R37, R44, R47). A unit's release takes no time to the root:
the spec gives no number (DESIGN CHOICE, log entry 77). -/
def release (s : State) (n : Nat) : State :=
  let x := s.ctx n
  if !holdable x then s
  else
    let left := x.hold.opened.filter (stillLate s n)
    let h : Hold := { x.hold with opened := left }
    let h : Hold := if (h.held ∨ (h.pending ∧ x.state = .armed)) ∧ left.isEmpty ∧ h.lastRelease = none then
        { h with lastRelease := some s.clock.clk } else h
    s.setCtx n { x with hold := h }

def execHoldRelease (n : Fin 32) (s : State) : Host.Outcome State Fault Refusal := .next (release s n.val)

/-- A hold in force ends: END of its log entry is the dome count (Table 2.7). -/
def endHold (h : Hold) (dome : Nat) : Hold :=
  if h.held then
    let i := (h.logNext + 15) % 16
    let e := Mem.rd ⟨0, 0, 0, 0, 0⟩ h.log i
    { h with held := false, pending := false, opened := [], lastRelease := none, limit := 0
             log := Mem.put h.log i { e with stop := dome } }
  else { h with pending := false, opened := [], lastRelease := none }

/-- The hold of a context ends by release, and partners are told (R37, R41). -/
def resumeCtx (s : State) (n : Nat) : State :=
  let x := s.ctx n
  (ownedRoutes x).foldl (fun s r => s.sendControl n r 0x12 (s.clock.dome % 2 ^ 64))
    (s.setCtx n { x with hold := endHold x.hold s.clock.dome })

/-- A hold of the context ends in this cycle: the 32nd core clock cycle after the last release. A kill leaves it in force
(R37, Table 14.3). -/
def resumesNow (s : State) (x : Ctx) : Bool :=
  holdable x && x.hold.held && x.hold.opened.isEmpty && x.hold.lastRelease.any (fun t => decide (t + 32 ≤ s.clock.clk))

/-- HOLD_RESUME: at the 32nd core clock cycle after the last release the cells execute cycle H (R37). -/
def resumeHold (s : State) (n : Nat) : State :=
  let x := s.ctx n
  if resumesNow s x then
    let s := resumeCtx s n
    if x.state = .running then openCtx s n else s.onCtx n (fun x => { x with fresh := false })
  else s

def execHoldResume (n : Fin 32) (s : State) : Host.Outcome State Fault Refusal := .next (resumeHold s n.val)

/-- Destination cell and row of the landing that an HBM read belongs to. -/
def readTarget (s : State) (n : Nat) (x : Ctx) (h : HbmRead) : CellId × Nat :=
  match x.landings.find? (fun l => decide (l.id = h.landing)) with
  | some l => (l.cell, l.row)
  | none =>
    match s.cell? ⟨Fin.ofNat 32 n, h.cell⟩ with
    | none => (h.cell, 0)
    | some cell =>
      let packs := (cell.strm.streams.flatMap (fun e => e.2.packs)) ++ (cell.strm.orphans.flatMap (fun e => e.2.packs))
      match packs.find? (fun p => decide (p.id = h.landing)) with
      | some p => (h.cell, p.row)
      | none => (h.cell, 0)

/-- Destination cell and row of an absent scheduled message, from a half of it that has come (Table 11.7). -/
def linkTarget (x : Ctx) (e : Expect) (due : Nat) : Option (CellId × Nat) :=
  (x.instances.find? (fun i => decide (i.port = e.port) && decide (i.route = e.route) && decide (i.due = due))).bind (fun i =>
    ((i.half0.orElse (fun _ => i.half1)).filter (fun _ => decide (i.mtype ≠ 0x01))).map (fun a =>
      if i.mtype = 0x0A then (BitVec.ofNat 14 (fld a.1 43 30), fld a.1 29 20)
      else (BitVec.ofNat 14 (fld a.1 31 18), fld a.1 17 8)))

/-- A destination that no flit has named: free (Table 14.11 asks for one, and the module has not heard it; log entry 82). -/
def freeTarget (k : Nat) : CellId × Nat :=
  ((Config.freeValue k).setWidth 14, (Config.freeValue k).toNat / 2 ^ 14 % 1024)

/-- MISSED_LANDING for an HBM read: its destination and its due cycle (R30, Table 14.11). -/
def missedRead (s : State) (n : Nat) (x : Ctx) (h : HbmRead) : ErrRec :=
  let t := readTarget s n x h
  { code := 0x0010, unit := 8, free := false, cell := t.1, detail := 1024 * hbmChannel h.addr + t.2, cc := h.due
    dome := s.clock.dome }

/-- MISSED_LANDING for an instance that is absent; `k` counts the free values of this cycle (R30, Table 14.11). -/
def missedLink (s : State) (x : Ctx) (e : Expect) (due k : Nat) : ErrRec :=
  let t := (linkTarget x e due).getD (freeTarget (s.free + k))
  { code := 0x0010, unit := 9, free := false, cell := t.1, detail := 16384 + 1024 * e.port + t.2, cc := due
    dome := s.clock.dome }

/-- What a cause in force waits for: the first late participant of its rejoin barrier, or the first landing that its port or
channel lacks. A refresh debt keeps back none that a record could name: the destination is free (R369, Table 14.11; log entry
82). -/
def waitedFor (s : State) (n : Nat) (x : Ctx) (e : HoldCause × Nat) : Option ErrRec :=
  match e.1 with
  | .overrun =>
    (x.bars.find? (fun i => i.rejoin && i.checked && decide (lowestRegion x i = e.2) && !(missing s n i).isEmpty)).map
      (fun i => s.barErr n 0x0013 i.b ((missing s n i).headD 0))
  | .linkLate | .partner =>
    ((List.range (checkedTo x + 1 - x.cc)).flatMap (fun k =>
      ((absentAt x (x.cc + k)).filter (fun a => decide (a.port = e.2))).map (fun a => missedLink s x a (x.cc + k) 0))).head?
  | .hbmLate =>
    ((sortBy (·.due) (x.hreads.filter (fun h =>
      decide (h.due ≤ checkedTo x) && !h.present && decide (channelSource h.addr = e.2)))).map (missedRead s n x)).head?
  | .refresh =>
    let t := freeTarget s.free
    some { code := 0x0010, unit := 8, free := false, cell := t.1, detail := 1024 * (e.2 % 8) + t.2, cc := x.cc, dome := s.clock.dome }
  | _ => none

/-- HOLD_LIMIT: a hold that has lasted HOLD_LIMIT_MS, THERMAL and POWER left out, ends the context, with what the
lowest-numbered of its causes but OVERRUN waits for; with OVERRUN alone with the late participant (R369; log entry 82). -/
def holdLimit (s : State) (n : Nat) : State :=
  let x := s.ctx n
  let ms := s.lantern.od.holdLimitMs
  let paused := x.hold.opened.any (fun e => decide (e.1 = .thermal) || decide (e.1 = .power))
  let asked := x.kills.any (fun r => decide (r.source = 7))
  if x.state = .running ∧ x.hold.held ∧ ms ≠ 0 ∧ !paused ∧ !asked ∧ ms * 1000000 ≤ x.hold.limit then
    match (sortBy (fun e => causeBit e.1) x.hold.opened).filterMap (waitedFor s n x) with
    | e :: _ => { s.setCtx n (requestKill x s.clock.clk 7 e) with free := s.free + 1 }
    | [] => s
  else s

def execHoldLimit (n : Fin 32) (s : State) : Host.Outcome State Fault Refusal := .next (holdLimit s n.val)

/-- A cause of the whole module requests a hold of every context (R39, R44, R349). -/
def State.holdAll (s : State) (cause : HoldCause) (src : Nat) : State :=
  { s with ctxs := s.ctxs.map (fun e => if holdable e.2 then (e.1, requestHold e.2 s.clock.clk cause src) else e) }

/-! ### Refresh debt (R33) -/

/-- REFRESH_DEBT: below 0.8 GHz the debt of a channel reaches its limit, and the controller requests a hold (R33). The
channel is physical; the hold names the logical one (Table 2.4). -/
def execRefreshDebt (region : Fin 32) (ch : Fin 8) (s : State) : Host.Outcome State Fault Refusal :=
  .next (if s.clock.khz < 800000 then
      let r := s.region region.val
      let s := s.setRegion region.val { r with debt := Mem.wr 0 r.debt ch.val (Config.refreshLimit + 1) }
      match r.owner with
      | none => s
      | some n =>
        let k := ((List.range 8).find? (fun k => decide (fld r.chmap (3 * k + 2) (3 * k) = ch.val))).getD 0
        s.onCtx n (fun x => if holdable x then requestHold x s.clock.clk .refresh (8 * r.logical + k) else x)
    else s)

/-- REFRESH_DEBT_CLEARED: the debt of a channel falls to zero (R40); the root sees the cause cleared. -/
def execRefreshDebtCleared (region : Fin 32) (ch : Fin 8) (s : State) : Host.Outcome State Fault Refusal :=
  .next (s.onRegion region.val (fun r => { r with debt := Mem.wr 0 r.debt ch.val 0 }))

end Sys2Proof.Machine
end

