-- ==== Sys2Proof/Machine/Scratch.lean ====
section
/-!
DEFINITION. Sys2Proof/Machine/Scratch.lean: the scratchpad (chapter 08): the bank contest of landings (R190 to R192),
FILL and COPY (R193 to R196), loose rows (R171), and scrubbing (R199).
-/
namespace Sys2Proof.Machine

/-! ### FILL and COPY (R193 to R196) -/

/-- Rows `a` to `a + n - 1` and `b` to `b + n - 1` overlap. -/
def overlaps (a b n : Nat) : Bool := decide (0 < n) && decide (a < b + n) && decide (b < a + n)

/-- The cases in which a write to SPAD_MOP_GO is rejected (R194). -/
def mopRejected (sp : Scratchpad) (kind : Bool) (src dst count : Nat) : Bool :=
  sp.mop.isSome || decide (640 < count) || decide (640 < dst + count) ||
  (if kind then decide (640 < src + count) || overlaps src dst count else decide (src ≠ 0))

/-- A write to SPAD_MOP_GO at the end of this cycle (R193, R194). -/
def mopGo (cell : Cell) (kind : Bool) (src dst count : Nat) : Cell :=
  let sp := cell.spad
  { cell with spad :=
      if mopRejected sp kind src dst count then { sp with reject := true }
      else { sp with mop := some {
        copy := kind, src := src, dst := dst, count := count, const := sp.mopConst, sig := sp.mopSig
        issued := cell.now, read := 0, lastDue := cell.now + 1 } } }

/-- A write of a FILL or COPY to SPAD_MOP_GO. An MTC in flight with this value is the write's own. -/
def mopWrite (s : State) (c : CellRef) (kind : Bool) (src dst count : BitVec 10) : State :=
  match s.cell? c with
  | none => s
  | some cell =>
    let x := s.ctx c.ctx.val
    if executing x && !s.unrecoverable && !cellFrozen x cell then
      let v : Word := packFields 32 [(31, 31, b01 kind), (29, 20, src.toNat), (19, 10, dst.toNat), (9, 0, count.toNat)]
      let mine (w : CregWrite) : Bool := decide (w.creg = 0x504) && decide (w.val &&& 0xBFFFFFFF = v)
      s.setCell c (mopGo { cell with sc := { cell.sc with cregs := cell.sc.cregs.filter (fun w => !mine w) } }
        kind src.toNat dst.toNat count.toNat)
    else s

/-- FILL: rows of a constant (R193). -/
def execFill (c : CellRef) (src dst count : BitVec 10) (s : State) : Host.Outcome State Fault Refusal :=
  .next (mopWrite s c false src dst count)

/-- COPY: rows to rows (R193). -/
def execCopy (c : CellRef) (src dst count : BitVec 10) (s : State) : Host.Outcome State Fault Refusal :=
  .next (mopWrite s c true src dst count)

/-- The signal under whose number the rows of an operation land (R195, R230). -/
def mopSignal (m : Mop) : Option (BitVec 6) := if bit m.sig 7 then some (m.sig.setWidth 6) else none

/-- COPY_ROW_READ: the next source row, in the first cycle its bank is free of ranks 1 to 6 (R193); one read access a bank and
cycle (R186). -/
def execCopyRowRead (c : CellRef) (s : State) : Host.Outcome State Fault Refusal :=
  .next (match s.cell? c with
    | none => s
    | some cell =>
      let x := s.ctx c.ctx.val
      match cell.spad.mop with
      | none => s
      | some m =>
        let row := m.src + m.read
        if executing x && !s.unrecoverable && !cellFrozen x cell && m.copy && decide (m.read < m.count) &&
            decide (m.lastDue < cell.now + 2) && decide (m.issued < cell.now) && !bankTaken cell 7 row then
          let r := readRow x (claimBanks cell 7 [row]) s.clock.dome row
          let land : Emit := match r.2.1 with
            | none => {}
            | some v => { lands := [{ due := cell.now + 2, own := true, cell := cell.id, row := m.dst + m.read, data := v
                                      rank := 1, issued := cell.now, tie := 0, src := 0, sig := mopSignal m, bytes := 512 }] }
          let m := { m with read := m.read + 1, lastDue := cell.now + 2 }
          (s.setCell c { r.1 with spad := { r.1.spad with mop := some m } }).emit c.ctx.val (r.2.2.and land)
        else s)

/-- The cycle in which the last row of an operation lands; an operation without rows is complete at c + 1 (R195). -/
def mopLast (m : Mop) : Option Nat :=
  if m.copy then (if m.read = m.count then some m.lastDue else none)
  else if m.read = m.count then some (m.issued + max 1 m.count) else none

/-- MOP_COMPLETE: MOP_BUSY clears with the last landing, and the operation's signal arrives (R195). -/
def execMopComplete (c : CellRef) (s : State) : Host.Outcome State Fault Refusal :=
  .next (match s.cell? c with
    | none => s
    | some cell =>
      let x := s.ctx c.ctx.val
      match cell.spad.mop with
      | none => s
      | some m =>
        if executing x && !s.unrecoverable && !cellFrozen x cell && (mopLast m).any (fun t => decide (t ≤ cell.now)) then
          (s.setCell c { cell with spad := { cell.spad with mop := none } }).emit c.ctx.val
            { arrs := match mopSignal m with
                | none => []
                | some k => [{ due := cell.now, own := true, cell := cell.id, sig := k, n := 1, bytes := 512 * m.count }] }
        else s)

/-- The row that a running FILL lands in this cycle, at rank 1 (R193). -/
def fillRow (cell : Cell) : List Landing :=
  match cell.spad.mop with
  | none => []
  | some m =>
    if !m.copy ∧ m.read < m.count ∧ m.issued + 1 + m.read ≤ cell.now then
      [{ due := cell.now, own := true, cell := cell.id, row := m.dst + m.read
         data := BitVec.ofNat 4096 ((List.range 128).foldl (fun acc _ => acc * 2 ^ 32 + m.const.toNat) 0)
         rank := 1, issued := m.issued, tie := 0, src := 0, sig := mopSignal m, bytes := 512 }]
    else []

/-! ### The contest for write accesses (R190, R191) -/

/-- Landing `a` takes the write access before landing `b` of the same bank. -/
def beats (a b : Landing) : Bool :=
  decide (a.rank < b.rank) || (decide (a.rank = b.rank) && (decide (b.issued < a.issued) || (decide (a.issued = b.issued) &&
    (if a.rank = 5 then decide ((b.course.elim 0 (·.stamp)) < (a.course.elim 0 (·.stamp)))
     else decide (a.tie < b.tie)))))

/-- Landings of one bank, winner first; the earlier item stands where neither beats the other. -/
def insertLanding (a : Landing) : List Landing → List Landing
  | [] => [a]
  | b :: l => if beats a b then a :: b :: l else b :: insertLanding a l

/-- The landings of a cycle, each with the rank of the landing that it loses to, if it loses. -/
def contest (ls : List Landing) : List (Landing × Option Nat) :=
  (List.range 8).flatMap (fun b =>
    match (ls.filter (fun l => decide (l.row % 8 = b))).foldl (fun acc l => insertLanding l acc) [] with
    | [] => []
    | w :: rest => (w, none) :: rest.map (fun l => (l, some w.rank)))

/-! ### One landing -/

/-- A scheduled landing's issue and due cycles as schedule cycles. -/
def schedCycle (x : Ctx) (cell : Cell) (own : Bool) (t : Nat) : Nat := if own then t + x.cc - cell.now else t

/-- Hazard watch at a landing: a write issued later has landed on the row already (R49). -/
def landHazard (x : Ctx) (cell : Cell) (l : Landing) : Hazards :=
  let h := x.haz
  if h.active && !cell.ctl.free then
    let key := 1024 * cell.id.toNat + l.row
    let i := schedCycle x cell l.own l.issued
    let d := schedCycle x cell l.own l.due
    match Mem.find h.last key with
    | some (i', d') =>
      if i < i' then addHazards h [{ event := x.cc, writeDue := d', cell := cell.id, row := l.row, kind := 1 }]
      else { h with last := Mem.put h.last key (i, d) }
    | none => { h with last := Mem.put h.last key (i, d) }
  else h

/-- The data of a landing from HBM, once every part of it has been sampled and has come; other landings carry theirs. -/
def landingData (x : Ctx) (l : Landing) : Option Row :=
  if l.rank = 2 then
    let parts := x.hreads.filter (fun h => decide (h.landing = l.id))
    if parts.all (fun h => h.present && h.data.isSome) then
      some (parts.foldl (fun v h => v ||| (h.data.getD 0 <<< h.pos)) l.data)
    else none
  else some l.data

/-- The tag check of a REDUCE row at its landing (R313): the slot is OPEN or SUM, with the row's tag. -/
def tagFits (cell : Cell) (l : Landing) : Bool :=
  match l.bucket with
  | some (k, tag) =>
    let b := cell.vec.bkts[k % 8]'(Nat.mod_lt _ (by decide))
    decide (l.rank ≠ 3) || (decide (b.state ≠ 0) && decide (fld b.desc 31 16 = tag.toNat))
  | none => true

/-- What a lost landing leaves behind (R192, R315). -/
def loseLanding (cell : Cell) (l : Landing) (winner : Nat) : Cell :=
  let cell := { cell with spad := { cell.spad with loss := true } }
  match l.course with
  | some log =>
    let cl := { cell with ctl := addSkip cell.ctl { log with reason := 3 } }
    match l.bucket with
    | some (k, _) => overIf cl k true
    | none => cl
  | none =>
    { cell with spad := { cell.spad with
        lossCount := satInc 0xFFFF cell.spad.lossCount
        lossLog := if cell.spad.lossLog.length < 4 then
            cell.spad.lossLog ++ [{ due := l.due, row := l.row, rank := l.rank, winner := winner, src := l.src }]
          else cell.spad.lossLog } }

/-- A landing takes effect: the row is written, and its bytes land under its signal (R25, R230). -/
def takeLanding (cell : Cell) (l : Landing) (v : Row) : Cell × Emit :=
  let mop := cell.spad.mop.map (fun m => if l.rank = 1 ∧ !m.copy then { m with read := m.read + 1 } else m)
  ({ cell with spad := writeRow { cell.spad with mop := mop } l.row v },
   { bytes := match l.sig with | none => [] | some k => [{ due := 0, cell := cell.id, sig := k, bytes := l.bytes }] })

/-- Part of a row disagrees with the residue that its adder carries for it (R101). -/
def ResCheck.bad (k : ResCheck) (v : Row) : Bool :=
  let n := v.toNat / 2 ^ k.pos % 2 ^ k.width
  decide (k.res ≠ residueOf (if k.signed then (BitVec.ofNat k.width n).toInt else (n : Int)))

/-- One landing of this cycle: checked, then written or lost. A row of AFRADD that disagrees with its residues is not written
(R314). -/
def landOne (x : Ctx) (dome : Nat) (acc : Hazards × Cell × Emit) (e : Landing × Option Nat) : Hazards × Cell × Emit :=
  let l := e.1
  let cell := acc.2.1
  if !tagFits cell l then
    (acc.1, cell, acc.2.2.and { errs := [cellErr x cell dome 0x0018 3
      (match l.bucket with | some (k, tag) => 65536 * tag.toNat + k | none => 0)] })
  else if l.checks.any (fun k => k.bad l.data) then
    (acc.1, cell, acc.2.2.and { errs := (l.checks.filter (fun k => k.bad l.data)).map (fun k => cellErr x cell dome 0x0020 3 k.lane) })
  else
    let cell := match l.bucket with | some (k, _) => overIf cell k (l.ovf && decide (l.rank = 3)) | none => cell
    match e.2 with
    | some w => (acc.1, loseLanding cell l w, acc.2.2)
    | none =>
      match landingData x l with
      | none => acc
      | some v =>
        let r := takeLanding cell l v
        (landHazard { x with haz := acc.1 } cell l, r.1, acc.2.2.and r.2)

/-! ### Exponent messages (R311) -/

/-- An EXP message at the end of its due cycle: merged into an OPEN slot, or an error. -/
def mergeExp (x : Ctx) (dome : Nat) (acc : Cell × Emit) (m : ExpMsg) : Cell × Emit :=
  let cell := acc.1
  let b := cell.vec.bkts[m.k % 8]'(Nat.mod_lt _ (by decide))
  let sums := cell.vec.bktUpds.any (fun u => decide (u.k = m.k) && decide (u.due ≤ cell.now) && decide (u.change = .summing))
  let err (code : Nat) : Emit := { errs := [cellErr x cell dome code 3 (65536 * m.tag + m.k)] }
  if b.state = 0 ∨ fld b.desc 31 16 ≠ m.tag then (cell, acc.2.and (err 0x0018))
  else if b.state = 2 ∨ sums then (cell, acc.2.and (err 0x0019))
  else (addUpd cell [⟨cell.now, m.k, .merge m.e m.nan m.pinf m.ninf m.ovf⟩], acc.2)

/-! ### All landings of a cell in this cycle -/

/-- A landing of the cell is due: its own rows by its own cycles, the others by schedule cycles (R36, R48). -/
def landingDue (s : State) (x : Ctx) (cell : Cell) (l : Landing) : Bool :=
  decide (l.cell = cell.id) && (if l.own then decide (l.due ≤ cell.now) else running s x && decide (l.due ≤ x.cc))

/-- Hazard records of kind 0 that a row from a link brings with it: reads of its row since its issue (R49, R51). None is made
where the row lands while the cell is in a free-running section (DESIGN CHOICE, log entry 99). -/
def linkHazards (x : Ctx) (cell : Cell) (l : Landing) : List HazRec :=
  if x.haz.active ∧ !cell.ctl.free ∧ l.rank = 3 then
    (x.haz.reads.filter (fun e => decide (e.2 = (cell.id, l.row)) && decide (l.issued < e.1) && decide (e.1 ≤ l.due))).map
      (fun e => { event := e.1, writeDue := l.due, cell := cell.id, row := l.row, kind := 0 })
  else []

/-- Scrub write-backs of rows that have been written are abandoned (R199, Table 8.2). -/
def State.dropWriteBack (s : State) (x : Ctx) (id : CellId) (rows : List Nat) : State :=
  let p := s.physCell x id
  s.onRegion p.region.val (fun r => { r with
    scrub := Mem.adjust (fun q => { q with writeBack := q.writeBack.filter (fun w => !rows.contains w) }) r.scrub (physKey p) })

/-- TRANSFER_LANDING of a cell (R25, R31, R190 to R192, R311, R313). -/
def landCell (s : State) (c : CellRef) : State :=
  match s.cell? c with
  | none => s
  | some cell =>
    let x := s.ctx c.ctx.val
    if executing x && !s.unrecoverable && !cellFrozen x cell then
      let due := x.landings.filter (landingDue s x cell)
      let exps := if running s x then x.exps.filter (fun m => decide (m.cell = cell.id) && decide (m.due ≤ x.cc)) else []
      let held := contest (fillRow cell ++ due)
      let haz := addHazards x.haz (due.flatMap (linkHazards x cell))
      let r := held.foldl (landOne x s.clock.dome) (haz, cell, {})
      let q := exps.foldl (mergeExp x s.clock.dome) (r.2.1, r.2.2)
      let ids := due.map (·.id)
      let x := { x with
        haz := r.1, landings := x.landings.filter (fun l => !landingDue s x cell l)
        exps := x.exps.filter (fun m => !exps.contains m)
        hreads := x.hreads.filter (fun h => !ids.contains h.landing) }
      (((s.setCell c q.1).setCtx c.ctx.val x).dropWriteBack x cell.id
        ((held.filter (fun e => e.2.isNone)).map (fun e => e.1.row))).emit c.ctx.val q.2
    else s

/-! ### HBM writes, and data that never came (R25, R30, R207, R230, R288) -/

/-- Errors of data that is absent at its due cycle (R30, Table 14.11). -/
def missedNow (s : State) (n : Nat) (x : Ctx) : List ErrRec :=
  (x.hreads.filter (fun h => decide (h.due = x.cc) && !h.present)).map (missedRead s n x) ++
  (absentAt x x.cc).zipIdx.map (fun e => missedLink s x e.1 x.cc e.2)

/-- Flits of an instance that leave the landing buffer (R283, R288). -/
def instanceFlits (i : Instance) : Nat := if i.mtype = 0x01 then 1 else b01 i.half0.isSome + b01 i.half1.isSome

/-- Free landing-buffer flits of a port and return their credits (R283). -/
def State.freeLanding (s : State) (p k : Nat) : State :=
  s.onPort p (fun q => { q with landing := q.landing - k, retSched := q.retSched + k })

/-- TRANSFER_LANDING of a context's HBM writes; instances due now leave the landing buffers. -/
def landHbm (s : State) (n : Nat) : State :=
  let x := s.ctx n
  if running s x then
    let due := sortBy (·.due) (x.hwrites.filter (fun h => decide (h.due ≤ x.cc)))
    let gone := x.instances.filter (fun i => decide (i.due ≤ x.cc))
    let errs := missedNow s n x
    let s := { s with free := s.free + (absentAt x x.cc).length }
    let s := due.foldl (fun s h => hbmPoke s x h.addr h.len h.data) s
    let s := gone.foldl (fun s i => s.freeLanding i.port (instanceFlits i)) s
    let x := { x with
      hwrites := x.hwrites.filter (fun h => !decide (h.due ≤ x.cc))
      instances := x.instances.filter (fun i => !decide (i.due ≤ x.cc)) }
    (s.setCtx n x).emit n
      { errs := errs
        bytes := due.filterMap (fun h => h.sig.map (fun k => ({ due := 0, cell := h.cell, sig := k, bytes := h.len } : ByteLanding))) }
  else s

def execTransferLanding (t : LandTarget) (s : State) : Host.Outcome State Fault Refusal :=
  .next (match t with
    | .cell c => landCell s c
    | .hbm n => landHbm s n.val)

/-! ### Leases and regions (R200 to R202) -/

/-- The lease that a physical region belongs to. -/
def State.leaseOf (s : State) (p : Nat) : Option (Nat × Lease) :=
  s.leases.find? (fun e => e.2.regions.any (fun r => decide (r.1 = p)))

/-- A row of a region lies in its lease. -/
def State.leasedRow (s : State) (p row : Nat) : Bool :=
  match s.leaseOf p with
  | some (_, l) => decide (l.spadBase ≤ row) && decide (row < l.spadBase + l.spadRows)
  | none => false

/-- A codeword of a region lies in its lease. -/
def State.leasedByte (s : State) (p off : Nat) : Bool :=
  match s.leaseOf p with
  | some (_, l) => decide (l.hbmBase ≤ off) && decide (off < l.hbmBase + l.hbmLen)
  | none => false

/-! ### Loose rows and rank 8 (R171, R190, R251) -/

/-- The rows of accepted messages that wait for a write access: queue, table index, ring row and contents of the next
row of each, and the row's own place in the list of messages. -/
def messageRows (cell : Cell) : List (Nat × Bool × Nat × Row) :=
  (cell.sync.received.zipIdx).filterMap (fun e =>
    match e.1.accepted, e.1.rows with
    | true, v :: _ => some (e.2, e.1.q, e.1.ringRow, v)
    | _, _ => none)

def Sync.onQueue (v : Sync) (q : Bool) (f : Queue → Queue) : Sync :=
  { v with queues := v.queues.set (b01 q) (f (v.queues[b01 q]'(by cases q <;> decide))) (by cases q <;> decide) }

/-- Entries become visible once they and all before them are written (R251). -/
def showEntries : List QEntry → List QEntry
  | [] => []
  | e :: l =>
    if e.marker then e :: showEntries l
    else if e.left = 0 then { e with visible := true } :: showEntries l else e :: l

/-- Write the next row of the message at place `i` of the receive stage. -/
def writeMessageRow (cell : Cell) (i : Nat) (q : Bool) (row : Nat) (v : Row) : Cell :=
  let base := fld (cell.sync.queues[b01 q]'(by cases q <;> decide)).ring 9 0
  let done (m : StagedMsg) : StagedMsg := { m with rows := m.rows.tail, ringRow := m.ringRow + 1 }
  let received := (cell.sync.received.modify i done).filter (fun m => !(m.accepted && m.rows.isEmpty))
  let sync := Sync.onQueue { cell.sync with received := received } q (fun u =>
    { u with table := showEntries (u.table.map (fun e =>
        if !e.marker ∧ e.left ≠ 0 ∧ base + e.first ≤ row ∧ row < base + e.first + e.rows then { e with left := e.left - 1 }
        else e)) })
  { cell with sync := sync, spad := writeRow cell.spad row v }

/-- Banks whose write access scheduled landings take in this cycle (R190). -/
def landingBanks (s : State) (x : Ctx) (cell : Cell) : List Nat :=
  if cellFrozen x cell then [] else ((x.landings.filter (landingDue s x cell)) ++ fillRow cell).map (fun l => l.row % 8)

/-- A loose row takes effect: it is written, its bytes land under its signal, and it is acknowledged (R170, R230). -/
def landLooseRow (s : State) (c : CellRef) (cell : Cell) (r : LooseRow) : State :=
  let cell := { cell with spad := writeRow cell.spad r.row r.data }
  let s := (s.setCell c cell).emit c.ctx.val
    { bytes := match r.sig with | none => [] | some k => [{ due := 0, cell := cell.id, sig := k, bytes := r.bytes }] }
  match r.reply with
  | .loose n id d row => ackLoose s n id d row
  | _ => s

/-- The scrubber of a physical cell. -/
def State.scrub (s : State) (p : PhysCell) : Scrub := Mem.rd {} (s.region p.region.val).scrub (physKey p)
def State.setScrub (s : State) (p : PhysCell) (q : Scrub) : State :=
  s.onRegion p.region.val (fun r => { r with scrub := Mem.put r.scrub (physKey p) q })

/-- Loose traffic of a context moves: it does in an OVERRUN hold too (R234, R251, R266). -/
def looseRuns (s : State) (x : Ctx) : Bool := executing x && !s.unrecoverable && (!x.hold.held || overrunOnly x.hold)

/-- Scrub write-backs that find their bank's write access idle; they go on in a hold and without a context that runs (R190,
R199). `busy` are the banks in use. -/
def writeBacks (s : State) (c : CellRef) (x : Ctx) (busy : List Nat) : State :=
  match s.cell? c with
  | none => s
  | some cell =>
    let p := s.physCell x cell.id
    let rows := ((s.scrub p).writeBack.foldl (fun (acc : List Nat × List Nat) row =>
      if acc.2.contains (row % 8) then acc else (row :: acc.1, (row % 8) :: acc.2)) ([], busy)).1
    if rows.isEmpty then s
    else
      let errs := cell.spad.errs.filter (fun e => !rows.contains (e.1 / 64) || decide (e.2 = .uncorrectable))
      (s.setCell c { cell with spad := { cell.spad with errs := errs } }).dropWriteBack x cell.id rows

/-- LOOSE_LANDING: rows that have arrived loosely, then scrub write-backs, take one idle write access of a bank each
(R171, R190, R199). `busy` are the banks in use. -/
def looseLand (s : State) (c : CellRef) : State :=
  match s.cell? c with
  | none => s
  | some cell =>
    let x := s.ctx c.ctx.val
    if looseRuns s x then
      let busy := landingBanks s x cell
      -- loose rows, the oldest first
      let r := cell.sync.looseRows.foldl (fun (acc : State × List Nat × List LooseRow) l =>
        if acc.2.1.contains (l.row % 8) then (acc.1, acc.2.1, acc.2.2 ++ [l])
        else match acc.1.cell? c with
          | none => acc
          | some cl => (landLooseRow acc.1 c cl l, (l.row % 8) :: acc.2.1, acc.2.2)) (s, busy, [])
      let s := r.1.onCell c (fun cl => { cl with sync := { cl.sync with looseRows := r.2.2 } })
      match s.cell? c with
      | none => s
      | some cell =>
        let pick := (messageRows cell).foldl (fun (acc : List (Nat × Bool × Nat × Row) × List Nat) e =>
          if acc.2.contains (e.2.2.1 % 8) then acc else (e :: acc.1, (e.2.2.1 % 8) :: acc.2)) ([], r.2.1)
        let q := (pick.1.foldl (fun cl e => writeMessageRow cl e.1 e.2.1 e.2.2.1 e.2.2.2) cell, pick.2)
        let landed := cell.sync.looseRows.map (·.row)
        let waits := r.2.2.map (·.row)
        let rows := landed.filter (fun w => !waits.contains w) ++ pick.1.map (·.2.2.1)
        writeBacks ((s.setCell c q.1).dropWriteBack x cell.id rows) c x q.2
    else writeBacks s c x (if running s x then landingBanks s x cell else [])

def execLooseLanding (c : CellRef) (s : State) : Host.Outcome State Fault Refusal := .next (looseLand s c)

/-! ### Scrubbing (R199, R202) -/

/-- The logical cell that stands at a physical position of an owned region. -/
def State.logicalAt (s : State) (p : PhysCell) : Option CellRef :=
  let r := s.region p.region.val
  match r.owner with
  | none => none
  | some n =>
    let f := Mem.rd 0 r.spares p.block.val
    let number := if p.pos.val = 16 then (if 1 ≤ f ∧ f ≤ 16 then some (f - 1) else none)
      else if f = p.pos.val + 1 then none else some p.pos.val
    number.map (fun k => ⟨Fin.ofNat 32 n, cellIdOf r.logical p.block.val k⟩)

/-- A lease becomes DAMAGED, and its session's function is told (R202, Table 13.14). -/
def State.damageLease (s : State) (p : Nat) : State :=
  match s.leaseOf p with
  | none => s
  | some (k, l) =>
    if l.damaged then s
    else
      let s := { s with leases := Mem.put s.leases k { l with damaged := true } }
      match Mem.find s.sessions l.session with
      | none => s
      | some f => s.addEvent f
          { code := 4, handle := 0xFF, ctx := 0xFF, dome := s.clock.dome, error := 0, lease := k, mask := 0, cc := 0, padded := false }

/-- Uncorrectable words that the scrubber finds outside a running context: in a leased row they damage the lease, in any other
they are logged (R199, R202). -/
def State.scrubFound (s : State) (p : PhysCell) (row : Nat) (words : List Nat) : State :=
  if words.isEmpty then s
  else if s.leasedRow p.region.val row then s.damageLease p.region.val
  else s.onRegion p.region.val (fun r => { r with
    scrubLog := r.scrubLog ++ words.map (fun w => (physKey p, row, w, s.clock.dome)) })

/-- SCRUB_READ: the next row at rank 8, at most one in 16 cycles (R199). After the receipt of a kill the counts of the context's
cells stand (R362). -/
def scrubRead (s : State) (p : PhysCell) : State :=
  let sc := s.scrub p
  let clk := s.clock.clk
  if sc.lastRead.any (fun t => decide (clk < t + 16)) then s
  else
    let row := sc.next
    let next : Scrub := { sc with next := (row + 1) % 640, lastRead := some clk, asked := none }
    match (s.logicalAt p).bind (fun c => (s.cell? c).map (fun cell => (c, cell))) with
    | some (c, cell) =>
      let x := s.ctx c.ctx.val
      if bankTaken cell 7 row then s.setScrub p { sc with asked := some (sc.asked.getD clk) }
      else if executing x then
        let fixed := !(errWords cell.spad row .correctable).isEmpty
        let r := readRow { x with haz := { x.haz with active := false } } (claimBanks cell 8 [row]) s.clock.dome row
        ((s.setCell c r.1).emit c.ctx.val r.2.2).setScrub p
          { next with writeBack := if fixed then sc.writeBack ++ [row] else sc.writeBack }
      else
        let fixed := errWords cell.spad row .correctable
        let kept := x.state = .killing ∧ x.kill.any (·.received)
        let cl := if kept then cell else { cell with spad := countCorrected cell.spad row fixed }
        let s := (s.setCell c cl).setScrub p { next with writeBack := if fixed.isEmpty then sc.writeBack else sc.writeBack ++ [row] }
        let s := if fixed.isEmpty then s else s.countCe p fixed.length
        s.scrubFound p row (errWords cell.spad row .uncorrectable)
    | none =>
      let q := s.region p.region.val
      let key (w : Nat) : Nat := 65536 * physKey p + 64 * row + w
      let found (e : WordErr) : List Nat := (List.range 64).filter (fun w => decide (Mem.rd .good q.scrubErr (key w) = e))
      let errs := q.scrubErr.filter (fun e => !(found .correctable).any (fun w => decide (key w = e.1)))
      let s := (s.setRegion p.region.val { q with scrubErr := errs }).setScrub p next
      let s := if (found .correctable).isEmpty then s else s.countCe p (found .correctable).length
      s.scrubFound p row (found .uncorrectable)

def execScrubRead (p : PhysCell) (s : State) : Host.Outcome State Fault Refusal := .next (scrubRead s p)

/-- SCRUB_STARVE: a row that could not be read for 1,048,576 cycles is passed over (R199). -/
def execScrubStarve (p : PhysCell) (s : State) : Host.Outcome State Fault Refusal :=
  .next (let sc := s.scrub p
    if sc.asked.any (fun t => decide (t + 1048576 ≤ s.clock.clk)) then
      let s := s.setScrub p { sc with next := (sc.next + 1) % 640, asked := none }
      match s.logicalAt p with
      | none => s
      | some c => s.onCell c (fun cl => { cl with spad := { cl.spad with starve := true } })
    else s)

/-- CELL_MEMORY_SCRUB: a word of instruction or data memory is read and corrected (R60). -/
def execCellMemoryScrub (c : CellRef) (dataMemory : Bool) (word : BitVec 13) (s : State) :
    Host.Outcome State Fault Refusal :=
  .next (match s.cell? c with
    | none => s
    | some cell =>
      let x := s.ctx c.ctx.val
      if executing x && !s.unrecoverable then
        let w := if dataMemory then word.toNat % 2048 else word.toNat
        match Mem.rd .good (if dataMemory then cell.dmemErr else cell.imemErr) w with
        | .good => s
        | .correctable =>
          s.setCell c (if dataMemory then { cell with dmemErr := Mem.wr .good cell.dmemErr w .good }
            else { cell with imemErr := Mem.wr .good cell.imemErr w .good })
        | .uncorrectable =>
          s.emit c.ctx.val { errs := [cellErr x cell s.clock.dome (if dataMemory then 0x0022 else 0x0021) 1 (8 * w)] }
      else s)

end Sys2Proof.Machine
end

