-- ==== Sys2Proof/Machine/Hbm.lean ====
section
/-!
DEFINITION. Sys2Proof/Machine/Hbm.lean: HBM read data and its error codes (R210 to R212), loose rows that finish (R170), the
HBM scrubber, and the clearing of a region (R213).
-/
namespace Sys2Proof.Machine

/-- Corrected codewords of a region (R211, Table 8.20). -/
def State.hbmCorrected (s : State) (p n : Nat) : State :=
  if n = 0 then s else s.onRegion p (fun r => { r with ce := true, ceCount := satAdd 0xFFFF r.ceCount n })

/-- The physical channel of logical channel `k` (R208, Table 8.18). -/
def physChannel (r : Region) (k : Nat) : Nat := fld r.chmap (3 * k + 2) (3 * k)

/-- The physical bank of an offset (R208, Table 8.19). -/
def physBank (r : Region) (off : Nat) : Nat := hbmBank off ^^^ fld r.bankxor (4 * hbmChannel off + 3) (4 * hbmChannel off)

/-- HBM_UELOG for an uncorrectable codeword at an offset (Table 8.22). -/
def ueRecord (r : Region) (dome off : Nat) : BitVec 128 :=
  packFields 128 [(127, 64, dome),
    (63, 25, match r.owner with | some _ => r.logical * 2 ^ 34 + off | none => off),
    (24, 22, physChannel r (hbmChannel off)), (21, 18, physBank r off), (17, 13, r.owner.getD 0),
    (12, 12, b01 r.owner.isNone), (0, 0, 1)]

/-- An uncorrectable codeword at offset `off` of physical region `p` (R202, R212): it is counted and logged, and ends the
context that owns the region, or damages the lease that it lies in. -/
def State.hbmUncorrectable (s : State) (p off : Nat) : State :=
  let r := s.region p
  let dome := s.clock.dome
  let s := s.setRegion p { r with
    ue := true, ueCount := satInc 0xFFFF r.ueCount, uelog := if r.ue then r.uelog else ueRecord r dome off }
  let s := if r.ueCount = 1 then { s with reports := s.reports ++ [.secondHbmUe (Fin.ofNat 32 p)] } else s
  match r.owner with
  | some n =>
    let x := s.ctx n
    if executing x then
      s.emit n { errs := [{ code := 0x0024, unit := 8, free := false, cell := 0, detail := r.logical * 2 ^ 34 + off
                            cc := x.cc, dome := dome }] }
    else if s.leasedByte p off then s.damageLease p else s
  | none => if s.leasedByte p off then s.damageLease p else s

/-- Bytes in the landing buffer of the logical HBM channel of an address: data that has come and is not due yet (R28). -/
def channelHeld (x : Ctx) (addr : Nat) : Nat :=
  sumNat ((x.hreads.filter (fun h => h.present && decide (hbmRegion h.addr = hbmRegion addr) &&
    decide (hbmChannel h.addr = hbmChannel addr))).map (·.len))

/-- The landing buffer of a logical HBM channel (R28). -/
def channelBuffer : Nat := 40960

/-- HBM_READ_DATA: the data of one unit comes into its channel's landing buffer, after correction (R28, R210 to R212). Where
the buffer has no room the data stays behind it, and the command has no effect. -/
def execHbmReadData (n : Fin 32) (id : Nat) (ecc : Ecc) (s : State) : Host.Outcome State Fault Refusal :=
  .next (let x := s.ctx n.val
    match x.hreads.find? (fun h => decide (h.id = id)) with
    | none => s
    | some h =>
      let p := x.regions.getD (hbmRegion h.addr) 0
      let more := sumNat ((x.hreads.filter (fun q => decide (q.id = id))).map (·.len))
      let arrive (s : State) : State := s.onCtx n.val (fun x => { x with
        hreads := x.hreads.map (fun q => if q.id = id then { q with present := true } else q) })
      if h.present || decide (channelBuffer < channelHeld x h.addr + more) then s
      else match ecc with
      | .good => arrive s
      | .corrected k => arrive (s.hbmCorrected p k)
      | .bad u => s.hbmUncorrectable p (hbmOffset h.addr / 2048 * 2048 + 64 * (u % 32)))

/-! ### Loose rows that finish (R170, R171, R212, R438) -/

/-- Every element of a packed REMOTE row that leaves ceases to be outstanding with it (R170, R172). -/
def finishPack (x : Ctx) (id : CellId) (n : Nat) (st : Stream) (pack : Option Nat) : Stream × Emit :=
  if pack.isNone ∨ st.packs.any (fun p => decide (some p.id = pack)) then (st, {})
  else (st.outstanding.filter (fun o => decide (o.pack = pack))).foldl (fun acc o =>
    let r := finishLoose x id n acc.1 o
    (r.1, acc.2.and r.2)) (st, {})

/-- The transaction layer cannot issue a host access: HOST_DMA, and AER reports an Uncorrectable Internal Error (R438). -/
def State.notIssued (s : State) (n : Nat) (x : Ctx) (cell : Cell) (dn : Nat) (d : Desc) : State :=
  let write := decide (dDkind d = 6)
  (s.emit n { errs := [hostDmaErr x cell s.clock.dome write (if write then dstWin d else srcWin d) dn] }).emitOut [.aer x.owner]

/-- LOOSE_ROW_DONE: an acknowledgement, the departure of a host write, or the data of a read (R170). `r` is what a read
from the host brings, or what a read from HBM finds; data with an uncorrectable codeword never lands (R211, R212). In a hold
only a failure counts: what arrives waits for the release (R36). -/
def looseDone (s : State) (c : CellRef) (dn num : Nat) (r : HostRead) : State :=
  match s.cell? c with
  | none => s
  | some cell =>
    let x := s.ctx c.ctx.val
    let n := c.ctx.val
    if !executing x || s.unrecoverable then s
    else match findLoose cell dn num with
      | none => s
      | some (st, o, orphan) =>
        let d := st.desc
        let came := dataCame x cell.id n st o
        let have_ (s : State) : State := (s.onCell c (fun cl => putStream cl dn st came.1 orphan)).emit n came.2
        let finish (s : State) : State :=
          let q := finishLoose x cell.id n came.1 o
          ((have_ s).onCell c (fun cl => putStream cl dn came.1 q.1 orphan)).emit n q.2
        let failed := decide (dSkind d = 6) && decide (0 ≤ o.src) && decide (r = .failed)
        let p := x.regions.getD (hbmRegion o.src.toNat) 0
        let ecc : Ecc := match r with | .hbm e => if dSkind d = 4 ∧ 0 ≤ o.src then e else .good | _ => .good
        let v : Row :=
          if o.src < 0 then 0
          else if dSkind d = 6 then (match r with | .data v => rowPart v 0 (rowBytes d) | _ => 0)
          else if dSkind d = 4 then hbmPeek s x o.src.toNat (rowBytes d) else o.data
        let host := (decide (dSkind d = 6) && decide (0 ≤ o.src)) || (decide (dDkind d = 6) && decide (0 ≤ o.dst))
        let cannot := decide (r = .notIssued) && host
        let fails := match ecc with | .bad _ => true | _ => failed || cannot
        if o.stuck then s
        else if !looseRuns s x && !(fails && decide (o.stage = 0)) then s else
        let s := match ecc with | .corrected k => if o.stage = 0 then s.hbmCorrected p k else s | _ => s
        if o.stage = 2 then finish s
        else if o.stage = 3 then
          if dDkind d = 5 then
            let q := finishPack x cell.id n st o.pack
            (s.onCell c (fun cl => putStream cl dn st q.1 orphan)).emit n q.2
          else s
        else if o.stage = 1 then s
        else if cannot then s.notIssued n x cell dn d
        else if let .bad u := ecc then s.hbmUncorrectable p (hbmOffset o.src.toNat + 64 * (u % 8))
        else if failed then s.emit n { errs := [hostDmaErr x cell s.clock.dome false (srcWin d) dn] }
        else if dDkind d = 4 then
          if o.dst < 0 then finish s
          else (finish (hbmPoke s x o.dst.toNat (rowBytes d) v)).emit n
            { bytes := match dSigOut d with
                | some sig => [{ due := x.cc, cell := cell.id, sig := sig, bytes := o.bytes }]
                | none => [] }
        else if dDkind d = 6 then
          if o.dst < 0 then finish s
          else ((finish s).emitOut [.hostWrite n o.addr (rowBytes d) v]).emit n
            { bytes := match dSigOut d with
                | some sig => [{ due := x.cc, cell := cell.id, sig := sig, bytes := o.bytes }]
                | none => [] }
        else if dSkind d = 1 then
          (if dDkind d = 5 ∨ o.dst < 0 then finish s else s)
        else
          let a := looseArrive x cell n dn came.1 o v
          let cl := putStream cell dn st a.1 orphan
          (s.setCell c { cl with sync := { cl.sync with looseRows := cl.sync.looseRows ++ a.2.1 } }).emit n (came.2.and a.2.2)

/-- The row still waits for the answer of its read. -/
def awaitsAnswer (s : State) (c : CellRef) (dn row : Nat) : Bool :=
  (s.cell? c).any (fun cell => executing (s.ctx c.ctx.val) &&
    (findLoose cell dn row).any (fun e => decide (e.2.1.stage = 0)))

/-- A host read that has been answered frees its tag; the answer to an orphaned read is discarded (R364). -/
def looseAnswered (s : State) (c : CellRef) (dn row : Nat) : State :=
  if awaitsAnswer s c dn row then s else s.dropHostTag c dn row

def execLooseRowDone (c : CellRef) (d : BitVec 4) (row : Nat) (r : HostRead) (s : State) :
    Host.Outcome State Fault Refusal :=
  .next (looseAnswered (looseDone s c d.toNat row r) c d.toNat row)

/-- A host read that no completion answers within the PCIe completion timeout ends its context; one whose context has
ended has no row any more and only frees its tag (R438). -/
def execCompletionTimeout (c : CellRef) (d : BitVec 4) (row : Nat) (s : State) : Host.Outcome State Fault Refusal :=
  .next ((match s.cell? c with
    | none => s
    | some cell =>
      match findLoose cell d.toNat row with
      | none => s
      | some (st, o, _) =>
        if dSkind st.desc = 6 ∧ 0 ≤ o.src ∧ o.stage = 0 then looseDone s c d.toNat row .failed else s).dropHostTag c d.toNat row)

/-! ### Scrubbing and clearing (R205, R212, R213) -/

/-- The offset of the unit of stripe `unit` on a physical channel (R205, R208). -/
def unitOffset (r : Region) (ch unit : Nat) : Nat :=
  let k := ((List.range 8).find? (fun k => decide (physChannel r k = ch))).getD 0
  16384 * unit + 2048 * ((k + 8 - unit / 8 % 8) % 8)

/-- HBM_SCRUB: one unit of a channel, in a command cycle that the schedule and loose traffic leave free, at most one in 4,096
cycles (R212). -/
def execHbmScrub (region : Fin 32) (ch : Fin 8) (unit : Nat) (ecc : Ecc) (s : State) :
    Host.Outcome State Fault Refusal :=
  .next (let r := s.region region.val
    let early := match Mem.find r.hbmScrubAt ch.val with | some t => decide (s.clock.clk < t + 4096) | none => false
    let off := unitOffset r ch.val unit
    let k := hbmChannel off
    if early || !slotFree s region.val k (hbmBank off) false || decide (976562 ≤ unit) then s
    else
      let s := (s.onRegion region.val (fun r => { r with hbmScrubAt := Mem.put r.hbmScrubAt ch.val s.clock.clk })).takeSlot
        region.val k (hbmBank off) false
      match ecc with
      | .good => s
      | .corrected k => s.hbmCorrected region.val k
      | .bad u => s.hbmUncorrectable region.val (off + 64 * (u % 32)))

/-- CLEARING_DONE: every byte outside a leased range is 0, and the region leaves CLEARING; placements in progress do not have
it (R213, Table 9.3). -/
def execClearingDone (region : Fin 32) (s : State) : Host.Outcome State Fault Refusal :=
  .next (let r := s.region region.val
    if r.clearing then
      let s := s.setRegion region.val { r with
        clearing := false, hbm := r.hbm.filter (fun e => s.leasedByte region.val (64 * e.1)) }
      { s with ctxs := s.ctxs.map (fun e =>
        if e.2.state = .loading then (e.1, { e.2 with cleared := region.val :: e.2.cleared }) else e) }
    else s)

end Sys2Proof.Machine
end

