-- ==== Sys2Proof/Machine/Sync.lean ====
section
/-!
DEFINITION. Sys2Proof/Machine/Sync.lean: signals, waits, barriers and rejoin barriers (R228 to R244).
-/
namespace Sys2Proof.Machine

/-! ### Signals (R228 to R232) -/

def sigAt (cell : Cell) (k : Nat) : Sig := Mem.rd {} cell.sync.sigs k

/-- LANDED ≥ ANNOUNCED (R228). -/
def settled (g : Sig) : Bool := decide (g.ann ≤ g.land)

/-- A wait for `n` is satisfied (R233). -/
def sigReady (cell : Cell) (k n : Nat) : Bool := decide (n = 0) || (decide (n ≤ (sigAt cell k).count) && settled (sigAt cell k))

/-- The update of R231, and which value leaves its range (R232): 0 COUNT, 1 ANNOUNCED, 2 LANDED. -/
def updateSig (g : Sig) (consume : Option Nat) (arrivals bytes landed : Nat) : Sig × Option Nat :=
  let g := match consume with
    | some n => { g with count := g.count - n, land := g.land - g.ann, ann := 0 }
    | none => g
  let g' : Sig := { count := g.count + arrivals, ann := g.ann + bytes, land := g.land + landed }
  if 65535 < g'.count then (g, some 0)
  else if 4294967295 < g'.ann then (g, some 1)
  else if 4294967295 < g'.land then (g, some 2)
  else (g', none)

/-- An arrival takes effect in this cycle. -/
def arrivalDue (s : State) (x : Ctx) (cell : Cell) (a : Arrival) : Bool :=
  decide (a.cell = cell.id) && (if a.own then decide (a.due ≤ cell.now) else running s x && decide (a.due ≤ x.cc))

/-- SIGNAL_ARRIVAL: the end of a cycle for the signals of a cell (R229 to R232). -/
def signalArrive (s : State) (c : CellRef) : State :=
  match s.cell? c with
  | none => s
  | some cell =>
    let x := s.ctx c.ctx.val
    if executing x && !s.unrecoverable && !cellFrozen x cell then
      let arr := x.arrivals.filter (arrivalDue s x cell)
      let bytes := x.byteLands.filter (fun b => decide (b.cell = cell.id) && decide (b.due ≤ x.cc))
      let used := cell.sync.consumes.filter (fun e => decide (e.1 ≤ cell.now))
      let sigs := (arr.map (fun a => a.sig.toNat) ++ bytes.map (fun b => b.sig.toNat) ++
        used.map (fun e => e.2.1.toNat)).eraseDups
      let r := sigs.foldl (fun (acc : Mem Sig × List ErrRec) k =>
        let mine (g : BitVec 6) : Bool := decide (g.toNat = k)
        let u := updateSig (Mem.rd {} acc.1 k) ((used.find? (fun e => mine e.2.1)).map (·.2.2))
          (sumNat ((arr.filter (fun a => mine a.sig)).map (·.n))) (sumNat ((arr.filter (fun a => mine a.sig)).map (·.bytes)))
          (sumNat ((bytes.filter (fun b => mine b.sig)).map (·.bytes)))
        (Mem.wr {} acc.1 k u.1, match u.2 with
          | none => acc.2
          | some w => acc.2 ++ [cellErr x cell s.clock.dome 0x0016 6 (64 * w + k)])) (cell.sync.sigs, [])
      let x := { x with
        arrivals := x.arrivals.filter (fun a => !arrivalDue s x cell a)
        byteLands := x.byteLands.filter (fun b => !(decide (b.cell = cell.id) && decide (b.due ≤ x.cc))) }
      let cell := { cell with sync := { cell.sync with
        sigs := r.1, consumes := cell.sync.consumes.filter (fun e => !decide (e.1 ≤ cell.now)) } }
      ((s.setCell c cell).setCtx c.ctx.val x).emit c.ctx.val { errs := r.2 }
    else s

def execSignalArrival (c : CellRef) (s : State) : Host.Outcome State Fault Refusal := .next (signalArrive s c)

/-! ### Waits (R233 to R235) -/

/-- MISSED_WAIT (R235, Table 14.11). -/
def missedWait (x : Ctx) (cell : Cell) (dome arg kind : Nat) : Emit :=
  { errs := [cellErr x cell dome 0x0011 6 (16384 * arg + 2048 * kind + cell.ctl.pc.toNat)] }

/-- A wait that is not satisfied at its issue: the cell stops in a free-running section, and the context ends outside
one (R234, R235). -/
def waitOr (x : Ctx) (cell : Cell) (dome : Nat) (w : Wait) (arg kind : Nat) : SlotAct :=
  if cell.ctl.free then { cell := { cell with ctl := { cell.ctl with waiting := some w } } }
  else { cell := cell, emit := missedWait x cell dome arg kind }

/-- A satisfied wait for `n` consumes it at the end of the cycle (R233). -/
def consume (cell : Cell) (k : BitVec 6) (n : Nat) : Cell :=
  if n = 0 then cell
  else { cell with sync := { cell.sync with consumes := cell.sync.consumes ++ [(cell.now, k, n)] } }

def waitSig (s : State) (c : CellRef) (i : Instr) (k : BitVec 6) (n : Cell → Nat) : State :=
  issueSlot s c .Q i (fun x cell =>
    if sigReady cell k.toNat (n cell) then { cell := consume cell k (n cell) }
    else waitOr x cell s.clock.dome (.sig k (n cell)) k.toNat 1)

/-- WAIT (R233). -/
def execWait (c : CellRef) (sig n : BitVec 6) (s : State) : Host.Outcome State Fault Refusal :=
  .next (waitSig s c (.wait c sig n) sig (fun _ => n.toNat))

/-- WAITR takes N from s[RS], at most 65,535 (R263). -/
def execWaitr (c : CellRef) (sig : BitVec 6) (rs : BitVec 5) (s : State) : Host.Outcome State Fault Refusal :=
  .next (waitSig s c (.waitr c sig rs) sig (fun cell => min (sreg cell rs).toNat 65535))

/-- POST: an arrival of N on the cell's own signal at the end of its cycle (R229). -/
def execPost (c : CellRef) (sig n : BitVec 6) (s : State) : Host.Outcome State Fault Refusal :=
  .next (issueSlot s c .Q (.post c sig n) (fun _ cell =>
    { cell := cell
      emit := { arrs := [{ due := cell.now, own := true, cell := cell.id, sig := sig, n := n.toNat, bytes := 0 }] } }))

/-- ROUTE of a target register (Table 10.3). -/
def tRoute (w : Word) : Nat := fld w 31 24
def tKind (w : Word) : Nat := fld w 23 22
def tCell (w : Word) : CellId := w.setWidth 14

/-- Reserved bits are 0, and ROUTE is 0 or a route of the binary (R264). -/
def targetForm (x : Ctx) (w : Word) : Bool :=
  decide (fld w 21 14 = 0) && (decide (tRoute w = 0) || (Mem.find x.routes (tRoute w)).isSome)

/-- SIGSEND: an arrival on a signal of the cell that s[RA] names (R229, R264). -/
def execSigsend (c : CellRef) (sig : BitVec 6) (ra : BitVec 5) (s : State) : Host.Outcome State Fault Refusal :=
  .next (issueSlot s c .Q (.sigsend c sig ra) (fun x cell =>
    let w := sreg cell ra
    let here := decide (tRoute w = 0)
    let send : Emit :=
      if here then
        if cell.ctl.free then { loose := [.signal c.ctx.val (tCell w) sig 0] }
        else { arrs := [{ due := x.cc + relLatency cell.id (tCell w), own := false, cell := tCell w, sig := sig, n := 1
                          bytes := 0 }] }
      else { msgs := [signalMsg x (tRoute w) (tCell w) sig 0] }
    { reason := if targetForm x w && (!here || cellExists x.regions.length (tCell w)) then none else some 15
      cell := cell, emit := send }))

/-! ### Barriers (R236 to R241) -/

def barAof (cell : Cell) (b : BitVec 3) : Word := cell.sync.barA[b.toNat]'(b.isLt)
def barBof (cell : Cell) (b : BitVec 3) : Word := cell.sync.barB[b.toNat]'(b.isLt)
def barScope (a : Word) : Nat := fld a 30 28

/-- The cases of BAR_SHAPE (R237). -/
def barMisshapen (x : Ctx) (id : CellId) (a r : Word) : Bool :=
  let sc := barScope a
  decide (sc = 7) ||
  (decide (1 ≤ sc) && decide (sc ≤ 6) && !bit a (numberOf id)) ||
  (decide (sc = 3) && (!bit r (regionOf id) || decide (2 ^ x.regions.length ≤ r.toNat)))

/-- The arrival of a cell at the barrier of a descriptor, with the values that must agree (R239). -/
def barArrival (id : CellId) (b : BitVec 3) (rejoin : Bool) (a r : Word) (j : Nat) : BarArr :=
  let sc := barScope a
  { b := b.toNat, rejoin := rejoin, scope := sc, unit := scopeUnit sc id
    key := (if sc = 0 then 0 else fld a 15 0, if sc = 3 then r.toNat else 0, bit a 31 && !rejoin)
    cell := id, rsig := BitVec.ofNat 6 (fld a 27 22), j := j }

/-- The instance that a cell's descriptor names. -/
def instanceOf (x : Ctx) (a : BarArr) : Option BarInst :=
  x.bars.find? (fun i => decide (i.b = a.b) && decide (i.rejoin = a.rejoin) && decide (i.scope = a.scope) &&
    decide (i.unit = a.unit))

/-- The generations of an instance that are not released and for which a cell has arrived (R238). -/
def unreleased (i : BarInst) (id : CellId) : Nat :=
  let has (l : List (CellId × BitVec 6)) : Bool := l.any (fun e => decide (e.1 = id))
  (i.due.filter (fun e => has e.2.1)).length + b01 (has i.cur) + b01 (has i.nxt)

/-- BAR: the cell's arrival (R236 to R239). A participant arrives for one generation beyond the one that is to be released
next. -/
def execBar (c : CellRef) (b : BitVec 3) (s : State) : Host.Outcome State Fault Refusal :=
  .next (issueSlot s c .Q (.bar c b) (fun x cell =>
    let a := barArrival cell.id b false (barAof cell b) (barBof cell b) 0
    let ahead := (instanceOf x a).any (fun i => decide (2 ≤ unreleased i cell.id))
    { reason := firstReason [if barMisshapen x cell.id (barAof cell b) (barBof cell b) then some 12 else none,
        if ahead then some 13 else none]
      cell := cell, emit := { bars := [a] } }))

/-- L of an on-module scope (Table 10.2). -/
def barLatency : Nat → Nat
  | 0 => 1 | 1 => 6 | 2 => 18 | 3 => 48 | _ => 72

/-- The next generation of an instance begins (R238). -/
def nextGen (i : BarInst) (done : Nat) : BarInst :=
  { i with gen := i.gen + 1, cur := i.nxt, nxt := [], curKey := i.nxtKey, nxtKey := none, lastDone := some done
           heard := i.heardNext, heardNext := [], sent := false, own := none, spread := none }

/-- The module addresses of the partners of a barrier beyond the module (R236). -/
def barPartners (s : State) (x : Ctx) (scope : Nat) : List Nat :=
  let own := s.lantern.address.toNat % 2 ^ 18
  if scope = 5 then
    ((List.range 8).filter (fun k => decide (x.image.nodeMask / 2 ^ k % 2 = 1) && decide (k ≠ own % 8))).map
      (fun k => own / 8 * 8 + k)
  else ((x.routes.map (fun e => e.2.dest)).eraseDups).filter (fun a => decide (a ≠ own))

/-- Send a loose message of the context to a module: on its lowest route there, or over the node port that leads there
(R277). -/
def State.sendToModule (s : State) (n addr : Nat) (mk : Nat → Flit) : State :=
  let x := s.ctx n
  match x.routes.find? (fun e => decide (e.2.dest = addr)) with
  | some (r, _) => s.sendLoose n r [mk r]
  | none =>
    let own := s.lantern.address.toNat % 2 ^ 18
    s.onPort ((addr % 8 + 15 - own % 8) % 8) (fun q => enqueueLoose q x.image.tag [mk 0])

/-- A BAR_ARRIVE flit of an instance (Table 11.7). -/
def barFlit (s : State) (x : Ctx) (i : BarInst) (mtype : BitVec 6) (route : Nat) : Flit :=
  let k := i.curKey.getD (0, 0, false)
  ctxFlit x 3 mtype route 0
    (packFields 64 [(63, 48, k.1), (47, 47, b01 k.2.2), (46, 44, i.scope), (43, 41, i.b), (40, 39, i.gen), (31, 0, k.2.1)])
    (s.lantern.address.setWidth 18 |>.setWidth 2048)

/-- Coordinate `d` of an address, 0 X to 3 W (Table 11.3). -/
def coordOf (addr d : Nat) : Nat := if d = 3 then addr / 8 % 8 else addr / 2 ^ (14 - 4 * d) % 16

/-- ⌊e / 2⌋ of each torus dimension, e the group's extent in it: the values of the coordinate among the modules that the
routes name and this one (R236). -/
def groupHops (s : State) (x : Ctx) : List Nat :=
  let own := s.lantern.address.toNat % 2 ^ 18
  (List.range 4).map (fun d => ((own :: x.routes.map (fun e => e.2.dest)).map (fun a => coordOf a d)).eraseDups.length / 2)

/-- What the links add to L in scopes 5 and 6, in ns: 142, and in scope 6 110 for each hop of H and 5 for each metre of F
(Table 10.2). F is reckoned with the ALLOW of each dimension (DESIGN CHOICE, log entry 23). -/
def barLinkNs (s : State) (x : Ctx) (scope : Nat) : Nat :=
  if scope = 6 then
    142 + 110 * sumNat (groupHops s x) + 5 * sumNat ((groupHops s x).zipIdx.map (fun e => e.1 * x.image.allow.getD e.2 0))
  else 142

/-- The participants of the current generation with the signal that receives the release: RSIG of the arrival, and of a
participant that counts as arrived because it has halted that of its descriptor (R240). -/
def releaseCells (s : State) (n : Nat) (i : BarInst) : List (CellId × BitVec 6) :=
  (instCells (s.ctx n) i).map (fun id => match i.cur.find? (fun e => decide (e.1 = id)) with
    | some e => e
    | none => (id, match s.cell? ⟨Fin.ofNat 32 n, id⟩ with
      | some cl => BitVec.ofNat 6 (fld (cl.sync.barA.toList.getD i.b 0) 27 22)
      | none => 0))

/-- A generation is released: each participant's arrival, and with EPOCH its queue counters (R240, R241). -/
def releaseGen (s : State) (n : Nat) (cells : List (CellId × BitVec 6)) (epoch : Bool) : State :=
  let s := if epoch then cells.foldl (fun s e => s.onCell ⟨Fin.ofNat 32 n, e.1⟩ (fun cl =>
      { cl with sync := { cl.sync with
          queues := cl.sync.queues.map (fun q => { q with accepted := 0, popped := 0 })
          acked := 0, epoch := cl.sync.epoch + 1 } })) s else s
  s.emit n { arrs := cells.map (fun e => (
    { due := 0, own := true, cell := e.1, sig := e.2, n := 1, bytes := 0 } : Arrival)) }

/-- One instance in this cycle: a generation that is complete gets its release cycle, or tells the partners and is released
once every partner has been heard and L has passed since the last arrival here (R236, R240). -/
def stepInstance (s : State) (n : Nat) (i : BarInst) : State × BarInst :=
  let x := s.ctx n
  if (i.cur.isEmpty && i.heard.isEmpty) || !(missing s n i).isEmpty then (s, i)
  else if i.scope ≤ 4 then
    let t := max x.btime (match i.lastDone with | some d => d + 1 | none => 0)
    (s, nextGen { i with due := i.due ++ [(t + barLatency i.scope - 1, releaseCells s n i, (i.curKey.getD (0, 0, false)).2.2)] } t)
  else
    let others := barPartners s x i.scope
    let s := if i.sent then s else
      others.foldl (fun s a => s.sendToModule n a (fun r => barFlit s x i 0x08 r)) s
    let i := { i with sent := true, own := some (i.own.getD x.btime) }
    let i := if i.spread.isNone && i.own.any (fun t => decide (t + 72 ≤ x.btime)) then { i with spread := some s.clock.dome } else i
    if others.all (fun a => i.heard.contains a) && i.spread.any (fun t => decide (t + barLinkNs s x i.scope ≤ s.clock.dome)) then
      (releaseGen s n (releaseCells s n i) (i.curKey.getD (0, 0, false)).2.2, nextGen i x.btime)
    else (s, i)

/-- Barrier units run: not in a hold, but in an OVERRUN hold (R240). -/
def barrierRuns (s : State) (x : Ctx) : Bool := looseRuns s x && (!x.fresh || x.hold.held)

/-- BARRIER_RELEASE: the instances of descriptor `b` in this cycle (R240, R241). -/
def barRelease (s : State) (n b : Nat) : State :=
  if barrierRuns s (s.ctx n) then
    let now := (s.ctx n).btime
    let r := (s.ctx n).bars.foldl (fun (acc : State × List BarInst) i =>
      if i.b = b ∧ !i.rejoin then
        let q := stepInstance acc.1 n i
        let s := (q.2.due.filter (fun e => decide (e.1 ≤ now))).foldl (fun s e => releaseGen s n e.2.1 e.2.2) q.1
        (s, acc.2 ++ [{ q.2 with due := q.2.due.filter (fun e => !decide (e.1 ≤ now)) }])
      else (acc.1, acc.2 ++ [i])) (s, [])
    r.1.onCtx n (fun x => { x with bars := r.2 })
  else s

def execBarrierRelease (n : Fin 32) (b : Nat) (s : State) : Host.Outcome State Fault Refusal := .next (barRelease s n.val b)

/-! ### Loose windows and rejoin (R242 to R244) -/

/-- LOPEN enters a free-running section (R242). -/
def execLopen (c : CellRef) (s : State) : Host.Outcome State Fault Refusal :=
  .next (issueSlot s c .Q (.lopen c) (fun _ cell => { cell := { cell with ctl := enterFree cell.ctl true } }))

/-- The rejoin cycle: j with j ≡ w (mod 2^32) and a - 2^31 ≤ j < a + 2^31; none below 0 (R243). -/
def rejoinCycle (a : Nat) (w : Word) : Int :=
  let d : Int := (a : Int) - 2147483648
  d + ((w.toNat : Int) - d) % 4294967296

/-- REJOIN: the cell's arrival at a rejoin barrier; it issues no course before J (R243). -/
def execRejoin (c : CellRef) (b : BitVec 3) (rs : BitVec 5) (s : State) : Host.Outcome State Fault Refusal :=
  .next (issueSlot s c .Q (.rejoin c b rs) (fun x cell =>
    let a := barAof cell b
    let j := (rejoinCycle (if x.hold.held then x.cc else x.cc + 1) (sreg cell rs)).toNat
    { reason := if decide (4 < barScope a) || barMisshapen x cell.id a (barBof cell b) then some 12 else none
      cell := { cell with ctl := { cell.ctl with rejoining := some (b.toNat, j) } }
      emit := { bars := [barArrival cell.id b true a (barBof cell b) j] } }))

/-- A cell is in a free-running section. -/
def freeCell (s : State) (n : Nat) (id : CellId) : Bool :=
  match s.cell? ⟨Fin.ofNat 32 n, id⟩ with
  | some c => c.ctl.free
  | none => false

/-- The examination of one rejoin instance at J - 48, or at its first arrival where that comes later (R47, R244). -/
def examine (s : State) (n : Nat) (i : BarInst) : Emit × Bool :=
  let x := s.ctx n
  match i.j with
  | none => ({}, false)
  | some j =>
    if i.checked || decide (x.cc + 48 < j) then ({}, false)
    else
      let late := missing s n i
      if j < i.opened + 49 then
        ({ errs := [s.barErr n 0x0013 i.b (late.headD ((i.cur.headD (0, 0)).1))] }, true)
      else match late.find? (fun id => !freeCell s n id) with
        | some id => ({ errs := [s.barErr n 0x0013 i.b id] }, true)
        | none => (if late.isEmpty then {} else { holds := [(.overrun, lowestRegion x i)] }, true)

/-- REJOIN_CHECK: the barrier unit examines the rejoin instances of descriptor `b` (R244). -/
def execRejoinCheck (n : Fin 32) (b : Nat) (s : State) : Host.Outcome State Fault Refusal :=
  .next (let x := s.ctx n.val
    if looseRuns s x then
      let todo := x.bars.filter (fun i => decide (i.b = b) && i.rejoin && (examine s n.val i).2)
      let e := todo.foldl (fun (e : Emit) i => e.and (examine s n.val i).1) {}
      (s.setCtx n.val { x with bars := x.bars.map (fun i =>
        if i.b = b ∧ i.rejoin ∧ (examine s n.val i).2 then { i with checked := true } else i) }).emit n.val e
    else s)

/-- A participant goes on at J: it leaves its section, and takes the course of this cycle (R243). -/
def rejoinCell (s : State) (n : Nat) (id : CellId) : State :=
  let c : CellRef := ⟨Fin.ofNat 32 n, id⟩
  match s.cell? c with
  | none => s
  | some cell =>
    if cell.ctl.rejoining.isNone then s
    else
      let f := fetchCourse (s.ctx n) s.clock.dome c { cell with ctl := { cell.ctl with rejoining := none, free := false } }
      (s.setCell c f.1).emit n f.2

/-- REJOIN_RESUME: at J the participants go on; participants that name another J end the context (R243). -/
def rejoinNow (s : State) (n b : Nat) : State :=
  let x := s.ctx n
  if running s x then
    (x.bars.filter (fun i => decide (i.b = b) && i.rejoin && decide (i.j = some x.cc))).foldl (fun s i =>
      let wrong := i.cur.filter (fun e => match s.cell? ⟨Fin.ofNat 32 n, e.1⟩ with
        | some c => decide (c.ctl.rejoining ≠ some (b, x.cc))
        | none => false)
      let errs := wrong.map (fun e => s.barErr n 0x0014 b e.1)
      let s := (i.cur.filter (fun e => !wrong.contains e)).foldl (fun s e => rejoinCell s n e.1) s
      (s.onCtx n (fun x => { x with bars := x.bars.filter (fun q => decide (q ≠ i)) })).emit n { errs := errs }) s
  else s

def execRejoinResume (n : Fin 32) (b : Nat) (s : State) : Host.Outcome State Fault Refusal := .next (rejoinNow s n.val b)

end Sys2Proof.Machine
end

