-- ==== Sys2Proof/Machine/Queue.lean ====
section
/-!
DEFINITION. Sys2Proof/Machine/Queue.lean: receive queues (R245 to R254) and combining queues (R255 to R258).
-/
namespace Sys2Proof.Machine

def queueAt (cell : Cell) (q : Bool) : Queue := cell.sync.queues[b01 q]'(by cases q <;> decide)
def ringBase (u : Queue) : Nat := fld u.ring 9 0
def ringLen (u : Queue) : Nat := fld u.ring 29 20
def onQueue (cell : Cell) (q : Bool) (f : Queue → Queue) : Cell := { cell with sync := Sync.onQueue cell.sync q f }

/-! ### The ring (R245, R246) -/

/-- Two ranges of rows, not empty, overlap. -/
def rangesMeet (a n b m : Nat) : Bool := decide (0 < n) && decide (0 < m) && decide (a < b + m) && decide (b < a + n)

/-- A write to QUE_RINGq (R245). -/
def ringWrite (cell : Cell) (q : Bool) (v : Word) : Cell :=
  let base := fld v 9 0
  let len := fld v 29 20
  let other := queueAt cell (!q)
  let waits := cell.sync.received.any (fun m => decide (m.q = q))
  if !(queueAt cell q).table.isEmpty || waits || decide (640 < base + len) ||
      rangesMeet base len (ringBase other) (ringLen other) then
    { cell with sync := { cell.sync with cfgReject := true } }
  else onQueue cell q (fun u => { u with ring := v &&& 0x3FF003FF, head := 0, tail := 0, used := 0 })

/-- QUE_RING_WRITE: a write takes effect at the end of its cycle. An MTC in flight with this value is the write's own. -/
def execQueRingWrite (c : CellRef) (q : Bool) (value : Word) (s : State) : Host.Outcome State Fault Refusal :=
  .next (match s.cell? c with
    | none => s
    | some cell =>
      let x := s.ctx c.ctx.val
      if executing x && !s.unrecoverable && !cellFrozen x cell then
        let mine (w : CregWrite) : Bool := decide (w.creg.toNat = 0x448 + b01 q) && decide (w.val = value)
        s.setCell c (ringWrite { cell with sc := { cell.sc with cregs := cell.sc.cregs.filter (fun w => !mine w) } } q value)
      else s)

/-! ### Sending (R247 to R250) -/

/-- QPUT appends a row to the send stage (R247). -/
def execQput (c : CellRef) (rs : BitVec 5) (rowoff : BitVec 7) (s : State) : Host.Outcome State Fault Refusal :=
  .next (issueSlot s c .Q (.qput c rs rowoff) (fun x cell =>
    let row := rowNumber (sreg cell rs) rowoff.toNat
    let r := readRow x cell s.clock.dome row
    { reason := firstReason [rowRange 9 row, if 16 ≤ cell.sync.stage.length then some 8 else none]
      reads := [row]
      cell := { r.1 with sync := { r.1.sync with stage := r.1.sync.stage ++ r.2.1.toList } }
      emit := r.2.2 }))

/-- The halves of rows, in order (Table 11.7). -/
def halfRows (rows : List Row) : List (BitVec 2048) := rows.flatMap (fun (r : Row) => [r.setWidth 2048, (r >>> 2048).setWidth 2048])

/-- The flits of a message, from the ARG of each. RET of the route travels in the DUE field (Table 11.4). -/
def messageFlits (x : Ctx) (mtype : BitVec 6) (route : Nat) (rows : List Row) (arg : Nat → List (Nat × Nat × Nat)) :
    List Flit :=
  let ret := match Mem.find x.routes route with | some r => r.ret | none => 0
  (halfRows rows).zipIdx.map (fun e => ctxFlit x 3 mtype route (16384 * ret)
    (packFields 64 ((16, 12, e.2) :: (11, 8, rows.length - 1) :: arg e.2)) e.1)

/-- The flits of a queue message. -/
def qmsgFlits (x : Ctx) (route : Nat) (dest : CellId) (q : Bool) (tag : BitVec 16) (src : Source) (rows : List Row)
    (seq : Nat) : List Flit :=
  messageFlits x 0x05 route rows (fun _ =>
    [(63, 48, tag.toNat), (47, 34, src.id.toNat), (33, 33, b01 src.comb), (31, 18, dest.toNat), (17, 17, b01 q), (7, 0, seq)])

/-- The flits of a contribution. -/
def contribFlits (x : Ctx) (route : Nat) (region q : Nat) (src : Source) (rows : List Row) : List Flit :=
  messageFlits x 0x07 route rows (fun _ => [(47, 34, src.id.toNat), (31, 27, region), (26, 21, q)])

/-- The target of a QSEND is well formed and, on this module, a part of the context (R248, R264). -/
def sendTarget (x : Ctx) (w : Word) : Bool :=
  targetForm x w && decide (tKind w ≠ 3) && (decide (tKind w ≠ 2) || decide (fld w 8 6 = 0)) &&
  (decide (tRoute w ≠ 0) || decide (regionOf (tCell w) < x.regions.length)) &&
  (decide (tRoute w ≠ 0) || decide (tKind w = 2) || cellExists x.regions.length (tCell w))

/-- QSEND sends the staged rows as one message (R248, R249). -/
def execQsend (c : CellRef) (ra rb : BitVec 5) (s : State) : Host.Outcome State Fault Refusal :=
  .next (issueSlot s c .Q (.qsend c ra rb) (fun x cell =>
    let w := sreg cell ra
    let tag : BitVec 16 := (sreg cell rb).setWidth 16
    let n := c.ctx.val
    let v := cell.sync
    let src : Source := ⟨0, false, cell.id⟩
    let reply := Reply.cell n cell.id v.nextSend
    let send : Emit :=
      if tRoute w = 0 then
        if tKind w = 2 then { loose := [.contrib n (regionOf (tCell w)) (fld w 5 0) src v.stage reply] }
        else { loose := [.qmsg n (tCell w) ⟨decide (tKind w = 1), tag, src, v.stage, reply, false, 0⟩] }
      else if tKind w = 2 then
        { msgs := [(tRoute w, contribFlits x (tRoute w) (regionOf (tCell w)) (fld w 5 0) src v.stage)] }
      else { msgs := [(tRoute w, qmsgFlits x (tRoute w) (tCell w) (decide (tKind w = 1)) tag src v.stage v.nextSend)] }
    { reason := firstReason [if v.stage.isEmpty then some 8 else none, if sendTarget x w then none else some 15,
        if 8 ≤ v.sends.length then some 10 else none]
      cell := { cell with sync := { v with
        stage := [], sends := v.sends ++ [⟨v.nextSend, tag, w, none⟩], nextSend := v.nextSend + 1 } }
      emit := send }))

/-- What QRES writes, once the oldest result has returned. -/
def resultReady (cell : Cell) : Option Word :=
  match cell.sync.sends with
  | r :: _ => r.result.map (fun v => v ++ (0 : BitVec 14) ++ r.tag)
  | [] => none

/-- Take the oldest result: it lands in s[RD] at the end of the cycle (R249). -/
def takeResult (cell : Cell) (rd : BitVec 5) (v : Word) : Cell :=
  addRes { cell with sync := { cell.sync with sends := cell.sync.sends.tail } } 5 1 (.s rd) v

/-- QRES (R249). -/
def execQres (c : CellRef) (rd : BitVec 5) (s : State) : Host.Outcome State Fault Refusal :=
  .next (issueSlot s c .Q (.qres c rd) (fun x cell =>
    let act : SlotAct := match resultReady cell with
      | some v => { cell := takeResult cell rd v }
      | none => waitOr x cell s.clock.dome (.result rd) 0 3
    { act with reason := if cell.sync.sends.isEmpty then some 11 else none }))

/-! ### Receiving (R252, R253) -/

/-- What QRECV writes: the head message, if it is visible (R252). -/
def headMessage (cell : Cell) (q : Bool) : Option (QEntry × Word) :=
  let u := queueAt cell q
  match u.table with
  | e :: _ => if e.visible && !e.marker then
      some (e, packFields 32 [(31, 22, ringBase u + e.first), (21, 18, e.rows - 1), (15, 0, e.tag.toNat)]) else none
  | [] => none

/-- QUE_SRCq of a source (Table 10.14). -/
def sourceReg (r : Source) : Word := packFields 32 [(31, 24, r.route.toNat), (23, 23, b01 r.comb), (13, 0, r.id.toNat)]

/-- QRECV's value lands and QUE_SRCq latches the source (R252). -/
def takeHead (cell : Cell) (q : Bool) (rd : BitVec 5) (h : QEntry × Word) : Cell :=
  addRes (onQueue cell q (fun u => { u with srcReg := sourceReg h.1.src })) 5 1 (.s rd) h.2

/-- QRECV (R252). -/
def execQrecv (c : CellRef) (q : Bool) (rd : BitVec 5) (s : State) : Host.Outcome State Fault Refusal :=
  .next (issueSlot s c .Q (.qrecv c q rd) (fun x cell =>
    match headMessage cell q with
    | some h => { cell := takeHead cell q rd h }
    | none => waitOr x cell s.clock.dome (.recv q rd) (b01 q) 2))

/-- QPOP removes the head message at the end of its cycle (R253). -/
def execQpop (c : CellRef) (q : Bool) (s : State) : Host.Outcome State Fault Refusal :=
  .next (issueSlot s c .Q (.qpop c q) (fun _ cell =>
    { reason := if (headMessage cell q).isNone then some 14 else none
      cell := { cell with sync := { cell.sync with pops := cell.sync.pops ++ [(cell.now, q)] } } }))

/-- Remove the head and the markers that follow it. -/
def popQueue (u : Queue) : Queue :=
  match u.table with
  | [] => u
  | _ :: rest =>
    let table := rest.dropWhile (·.marker)
    let used := sumNat (table.map (·.rows))
    { u with
      table := table, used := used, popped := satInc 0xFFFF u.popped
      head := if used = 0 then 0 else match table with | e :: _ => e.first | [] => 0
      tail := if used = 0 then 0 else u.tail }

/-- QPOPs of this cycle take effect. -/
def landPops (cell : Cell) : Cell :=
  let due := cell.sync.pops.filter (fun e => decide (e.1 ≤ cell.now))
  let cell := { cell with sync := { cell.sync with pops := cell.sync.pops.filter (fun e => !decide (e.1 ≤ cell.now)) } }
  due.foldl (fun cl e => onQueue cl e.2 popQueue) cell

/-- WAIT_SATISFIED: a wait of a free-running section completes at the first cycle it is satisfied (R234). -/
def execWaitSatisfied (c : CellRef) (s : State) : Host.Outcome State Fault Refusal :=
  .next (match s.cell? c with
    | none => s
    | some cell =>
      let x := s.ctx c.ctx.val
      if executing x && !s.unrecoverable && !cellFrozen x cell && !cell.ctl.live then
        let go := { cell with ctl := { cell.ctl with waiting := none } }
        match cell.ctl.waiting with
        | none => s
        | some (.sig k n) => if sigReady cell k.toNat n then s.setCell c (consume go k n) else s
        | some (.recv q rd) => match headMessage cell q with
          | some h => s.setCell c (takeHead go q rd h)
          | none => s
        | some (.result rd) => match resultReady cell with
          | some v => s.setCell c (takeResult go rd v)
          | none => s
      else s)

/-! ### Acceptance (R251) -/

/-- Where a message of `k` rows starts in a ring, and whether a skip marker goes before it (R251). -/
def placeMessage (u : Queue) (k : Nat) : Option (Nat × Bool) :=
  let len := ringLen u
  if u.tail > u.head ∨ u.used = 0 then
    if k ≤ len - u.tail then some (u.tail, false)
    else if k ≤ u.head then some (0, true) else none
  else if k ≤ u.head - u.tail then some (u.tail, false) else none

/-- Processing of a message for one queue: the queue, the result, and where its rows go (R251). -/
def acceptMessage (u : Queue) (k : Nat) (tag : BitVec 16) (src : Source) : Queue × BitVec 2 × Nat :=
  let len := ringLen u
  if len = 0 then (u, 3, 0)
  else if len < k then (u, 2, 0)
  else if 62 < u.table.length then (u, 1, 0)
  else if u.used = len then (u, 1, 0)
  else
    let u := if u.used = 0 then { u with head := 0, tail := 0 } else u
    match placeMessage u k with
    | none => (u, 1, 0)
    | some (start, skip) =>
      let u := if skip then { u with
          table := u.table ++ [⟨true, u.tail, len - u.tail, 0, src, 0, false⟩], used := u.used + (len - u.tail) } else u
      ({ u with
          table := u.table ++ [⟨false, start, k, tag, src, k, false⟩], used := u.used + k, tail := (start + k) % len
          accepted := satInc 0xFFFF u.accepted }, 0, ringBase u + start)

/-- Send the result of a message back (R249). -/
def State.sendResult (s : State) (n : Nat) (goal : Reply) (res : BitVec 2) : State :=
  match goal with
  | .cell .. | .comb .. => { s with transit := s.transit ++ [.result goal res] }
  | .link port route id tag seq =>
    let x := s.ctx n
    let f := ctxFlit x 3 0x06 route 0
      (packFields 64 [(63, 48, tag.toNat), (31, 18, id.toNat), (17, 16, res.toNat), (7, 0, seq)]) 0
    if route = 0 then s.onPort port (fun q => enqueueLoose q x.image.tag [f]) else s.sendLoose n route [f]
  | _ => s

/-- MESSAGE_PROCESSING: the stage's first message that waits is processed, and its result is sent (R251). -/
def processMessage (s : State) (c : CellRef) : State :=
  match s.cell? c with
  | none => s
  | some cell =>
    let x := s.ctx c.ctx.val
    if looseRuns s x then
      match cell.sync.received.zipIdx.find? (fun e => !e.1.accepted) with
      | none => s
      | some (m, i) =>
        let r := acceptMessage (queueAt cell m.q) m.rows.length m.tag m.src
        let cell := onQueue cell m.q (fun _ => r.1)
        let received := if r.2.1 = 0 then
            cell.sync.received.modify i (fun m => { m with accepted := true, ringRow := r.2.2 })
          else cell.sync.received.eraseIdx i
        (s.setCell c { cell with sync := { cell.sync with received := received } }).sendResult c.ctx.val m.reply r.2.1
    else s

def execMessageProcessing (c : CellRef) (s : State) : Host.Outcome State Fault Refusal := .next (processMessage s c)

/-- Rows in a cell's receive stage. -/
def stagedRows (cell : Cell) : Nat := sumNat (cell.sync.received.map (·.rows.length))

/-- A message reaches the receive stage; one that does not fit is answered FULL (R251). A cell that is not part of the
context answers BAD (R437). -/
def arriveMessage (s : State) (n : Nat) (id : CellId) (m : StagedMsg) : State :=
  let c : CellRef := ⟨Fin.ofNat 32 n, id⟩
  match s.cell? c with
  | none => s.sendResult n m.reply 3
  | some cell =>
    if 32 < stagedRows cell + m.rows.length then s.sendResult n m.reply 1
    else s.setCell c { cell with sync := { cell.sync with received := cell.sync.received ++ [m] } }

/-! ### Results (R249, R250, R258) -/

/-- The result of a cell's send returns. -/
def cellResult (cell : Cell) (seq : Nat) (res : BitVec 2) : Cell :=
  let v := cell.sync
  match v.sends.find? (fun r => decide (r.seq = seq) && r.result.isNone) with
  | none => cell
  | some r =>
    { cell with sync := { v with
      sends := v.sends.map (fun q => if q.seq = seq then { q with result := some res } else q)
      nackrun := if res = 0 then 0 else if res = 3 then v.nackrun else satInc 255 v.nackrun
      acked := if res = 0 then satInc 0x7FFF v.acked else v.acked
      lastNack := if res = 1 ∨ res = 2 then some r.target else v.lastNack } }

def State.comb (s : State) (n region : Nat) : CombRegion := Mem.rd {} (s.ctx n).comb region
def State.setComb (s : State) (n region : Nat) (r : CombRegion) : State :=
  s.onCtx n (fun x => { x with comb := Mem.put x.comb region r })

/-- The result of a combining queue's sum: ACK clears PENDING, FULL and TOO_LONG send it again 1,024 cycles later, and
BAD ends the context (R258). -/
def combResult (s : State) (n region q : Nat) (res : BitVec 2) : State :=
  let x := s.ctx n
  let r := s.comb n region
  let u := Mem.rd {} r.qs q
  if !u.pending then s
  else if res = 3 then
    s.emit n { errs := [{ code := 0x0017, unit := 7, free := false, cell := cellIdOf region 0 0, detail := q, cc := x.cc
                          dome := s.clock.dome }] }
  else
    let u := if res = 0 then { u with pending := false, sum := [], resend := none } else { u with resend := some (x.btime + 1024) }
    s.setComb n region { r with qs := Mem.put r.qs q u }

/-- A result reaches the sender it belongs to. -/
def applyResult (s : State) (goal : Reply) (res : BitVec 2) : State :=
  match goal with
  | .cell n id seq => s.onCell ⟨Fin.ofNat 32 n, id⟩ (fun cl => cellResult cl seq res)
  | .comb n region q => combResult s n region q res
  | _ => s

/-! ### Combining queues (R255 to R258) -/

def combExpect (cfg : DWord) : Nat := fld cfg 63 48
def combRows (cfg : DWord) : Nat := fld cfg 11 8 + 1
def combFirst (cfg : DWord) : Nat := fld cfg 7 0
def combDest (cfg : DWord) : CellId := cellIdOf (fld cfg 38 34) (fld cfg 33 29) (fld cfg 28 25)

/-- QUE_CMBqCFG as it is kept: its reserved bits read as 0, and a 1 written to one is ignored (R8, Table 10.15). A disabled queue
is not checked for them (R256). -/
def combCfg (v : DWord) : DWord := v &&& 0xFFFFFFFFFE000FFF

/-- The configuration of a region's queues is valid (R256). -/
def combValid (routes : Mem Route) (k : Nat) (cfgs : List DWord) : Bool :=
  let on := cfgs.zipIdx.filter (fun e => decide (combExpect e.1 ≠ 0))
  on.all (fun e =>
    decide (combFirst e.1 + fld e.1 11 8 ≤ 255) && decide (fld e.1 24 12 = 0) &&
    (if fld e.1 47 40 = 0 then decide (fld e.1 38 34 < k) && decide (fld e.1 33 29 ≤ 23)
     else (Mem.find routes (fld e.1 47 40)).isSome) &&
    on.all (fun o => decide (o.2 = e.2) || !rangesMeet (combFirst e.1) (combRows e.1) (combFirst o.1) (combRows o.1)))

/-- A contribution reaches the combining stage of 64 rows (R255); a region that is no part of the context answers BAD
(R437). -/
def arriveContrib (s : State) (n region : Nat) (m : StagedContrib) : State :=
  if (s.ctx n).regions.length ≤ region then s.sendResult n m.reply 3
  else
    let r := s.comb n region
    if 64 < sumNat (r.stage.map (·.rows.length)) + m.rows.length then s.sendResult n m.reply 1
    else s.setComb n region { r with stage := r.stage ++ [m] }

/-- Add one lane exactly, with the residue of the addend (R100, R257). -/
def addAcc (l : AccLane) (v : Int) : AccLane :=
  { w := l.w + BitVec.ofInt 80 v, res := BitVec.ofNat 12 ((l.res.toNat + (residueOf v).toNat) % 4095) }

def accSound (l : AccLane) : Bool := decide (l.res = residueOf l.w.toInt)

/-- The rows of a contribution are added to the accumulators from row `first` on. -/
def addRows (acc : Mem AccLane) (first : Nat) (rows : List Row) : Mem AccLane :=
  rows.zipIdx.foldl (fun acc e => (List.range 64).foldl (fun acc l =>
    let key := 64 * (first + e.2) + l
    Mem.wr {} acc key (addAcc (Mem.rd {} acc key) (e.1.extractLsb' (64 * l) 64).toInt)) acc) acc

/-- A lane of a sum: converted to INT64, saturating (R258). -/
def sumLane (w : BitVec 80) : BitVec 64 × Bool :=
  let v := w.toInt
  if v < -9223372036854775808 then (0x8000000000000000, true)
  else if 9223372036854775807 < v then (0x7FFFFFFFFFFFFFFF, true)
  else (BitVec.ofInt 64 v, false)

/-- The sum of a queue as rows, and whether a lane saturated. -/
def formSum (acc : Mem AccLane) (first n : Nat) : List Row × Bool :=
  let lane (r l : Nat) : BitVec 64 × Bool := sumLane (Mem.rd {} acc (64 * (first + r) + l)).w
  ((List.range n).map (fun r =>
      BitVec.ofNat 4096 ((List.range 64).foldr (fun l a => a * 2 ^ 64 + (lane r l).1.toNat) 0)),
   (List.range n).any (fun r => (List.range 64).any (fun l => (lane r l).2)))

/-- Lanes of a queue that disagree with their residues (R101). -/
def badLanes (acc : Mem AccLane) (first n : Nat) : List (Nat × Nat) :=
  (List.range n).flatMap (fun r => ((List.range 64).filter (fun l =>
    !accSound (Mem.rd {} acc (64 * (first + r) + l)))).map (fun l => (first + r, l)))

/-- Send the sum of a queue to its destination (R258). -/
def sendSum (s : State) (n region q : Nat) (u : Comb) : State :=
  let x := s.ctx n
  let gen := (u.gen + 1023) % 1024
  let tag : BitVec 16 := packFields 16 [(15, 6, gen), (5, 0, q)]
  let src : Source := ⟨0, true, BitVec.ofNat 14 (512 * region + q)⟩
  let route := fld u.cfg 47 40
  if route = 0 then
    { s with transit := s.transit ++ [.qmsg n (combDest u.cfg) ⟨bit u.cfg 39, tag, src, u.sum, .comb n region q, false, 0⟩] }
  else s.sendLoose n route (qmsgFlits x route (combDest u.cfg) (bit u.cfg 39) tag src u.sum gen)

/-- CONTRIBUTION_PROCESSING: the stage's first contribution is added, or answered BAD or FULL; a queue that reaches
EXPECT sends its sum (R255, R257, R258). Of several lanes that mismatch at once the first is reported (R101; DESIGN CHOICE,
log entry 101). -/
def processContrib (s : State) (n region : Nat) : State :=
  let x := s.ctx n
  let r := s.comb n region
  if looseRuns s x then
    match r.stage with
    | [] => s
    | m :: rest =>
      let u := Mem.rd {} r.qs m.q
      let k := combRows u.cfg
      let s0 := s.setComb n region { r with stage := rest }
      if combExpect u.cfg = 0 ∨ m.rows.length ≠ k then s0.sendResult n m.reply 3
      else if u.pending then s0.sendResult n m.reply 1
      else
        let acc := addRows r.acc (combFirst u.cfg) m.rows
        match badLanes acc (combFirst u.cfg) k with
        | (row, l) :: _ =>
          (s0.setComb n region { r with stage := rest, acc := acc }).emit n
            { errs := [{ code := 0x0020, unit := 7, free := false, cell := cellIdOf region 0 0, detail := 1024 * row + l
                         cc := x.cc, dome := s.clock.dome }] }
        | [] =>
          if u.count + 1 < combExpect u.cfg then
            (s0.setComb n region { r with stage := rest, acc := acc, qs := Mem.put r.qs m.q { u with count := u.count + 1 } }).sendResult
              n m.reply 0
          else
            let sum := formSum acc (combFirst u.cfg) k
            let u' := { u with
              count := 0, gen := (u.gen + 1) % 1024, pending := true, sat := u.sat || sum.2, sum := sum.1, resend := none }
            let clear := acc.filter (fun e => !(decide (64 * combFirst u.cfg ≤ e.1) && decide (e.1 < 64 * (combFirst u.cfg + k))))
            sendSum ((s0.setComb n region { r with stage := rest, acc := clear, qs := Mem.put r.qs m.q u' }).sendResult
              n m.reply 0) n region m.q u'
  else s

def execContributionProcessing (n : Fin 32) (region : BitVec 5) (s : State) : Host.Outcome State Fault Refusal :=
  .next (processContrib s n.val region.toNat)

/-- SUM_RESEND: a sum that was answered FULL or TOO_LONG is sent again 1,024 cycles later (R258). -/
def execSumResend (n : Fin 32) (region : BitVec 5) (q : BitVec 6) (s : State) : Host.Outcome State Fault Refusal :=
  .next (let x := s.ctx n.val
    let r := s.comb n.val region.toNat
    let u := Mem.rd {} r.qs q.toNat
    if looseRuns s x ∧ u.pending ∧ u.resend.any (fun t => decide (t ≤ x.btime)) then
      let u := { u with resend := none }
      sendSum (s.setComb n.val region.toNat { r with qs := Mem.put r.qs q.toNat u }) n.val region.toNat q.toNat u
    else s)

end Sys2Proof.Machine
end

