-- ==== Sys2Proof/Machine/Cregs.lean ====
section
/-!
DEFINITION. Sys2Proof/Machine/Cregs.lean: the cell registers by their CREG numbers (R80, R126, R154, R184, R214, R267,
R327), MFC and MTC, and RESULT_LANDING: what takes effect in a cell at the end of a cycle (R63, R64).
-/
namespace Sys2Proof.Machine

/-! ### Reading -/

/-- CELL_STATUS (Table 3.13). -/
def cellStatus (cell : Cell) : Word :=
  packFields 32 [(8, 8, b01 cell.ctl.halted), (7, 7, b01 cell.ctl.free), (6, 4, cell.ctl.loops.length),
    (3, 3, b01 cell.sc.cvtSat), (2, 2, b01 cell.sc.countClamp), (1, 1, b01 cell.sc.addrWrap), (0, 0, b01 cell.sc.div0)]

/-- CELL_LOOP_STATEi, entry 0 at the bottom of the stack (Table 3.15). -/
def loopState (cell : Cell) (i : Nat) : Word :=
  match cell.ctl.loops.reverse[i]? with
  | some e => packFields 32 [(31, 31, 1), (30, 11, e.remaining), (10, 0, e.last.toNat)]
  | none => 0

/-- Registers 0x000 to 0x0FF (Table 3.11). -/
def readCellReg (cell : Cell) (n : Nat) : Word :=
  if n = 0 then cell.id.setWidth 32
  else if n = 1 then cellStatus cell
  else if n = 2 then BitVec.ofNat 32 cell.ctl.courseCtr
  else if n = 3 then packFields 32 [(31, 3, cell.ctl.skips), (2, 0, cell.ctl.log.length)]
  else loopState cell (n - 4)

/-- The cell counts as waiting under R250. -/
def nackWaits (cell : Cell) : Bool :=
  decide (cell.sync.nackLimit ≠ 0) && decide (cell.sync.nackLimit.toNat ≤ cell.sync.nackrun)

/-- SYNC_STATUS (Table 10.9). -/
def syncStatus (cell : Cell) : Word :=
  let ka : Nat × Nat :=
    match cell.ctl.waiting, cell.ctl.rejoining with
    | some (.sig k _), _ => (1, k.toNat)
    | some (.recv q _), _ => (2, b01 q)
    | some (.result _), _ => (3, 0)
    | none, some (b, _) => (4, b)
    | none, none => if nackWaits cell then (5, (cell.sync.lastNack.elim 0 tKind)) else (0, 0)
  packFields 32 [(26, 24, ka.1), (23, 18, ka.2)]

/-- The four bits of a barrier in SYNC_BARSTAT (Table 10.12). -/
def barBits (x : Ctx) (cell : Cell) (b : Nat) : Nat :=
  let v : BitVec 3 := BitVec.ofNat 3 b
  match instanceOf x (barArrival cell.id v false (barAof cell v) (barBof cell v) 0) with
  | some i =>
    8 * b01 (i.cur.any (fun e => decide (e.1 = cell.id))) + 4 * b01 (i.nxt.any (fun e => decide (e.1 = cell.id))) + i.gen % 4
  | none => 0

/-- Registers 0x400 to 0x4FF (Table 10.8). -/
def readSync (x : Ctx) (cell : Cell) (n : Nat) : Word :=
  let v := cell.sync
  let g := sigAt cell v.sigsel.toNat
  if n = 0x400 then syncStatus cell
  else if n = 0x401 then v.sigsel.setWidth 32
  else if n = 0x402 then packFields 32 [(16, 16, b01 (settled g)), (15, 0, g.count)]
  else if n = 0x403 then BitVec.ofNat 32 g.ann
  else if n = 0x404 then BitVec.ofNat 32 g.land
  else if n = 0x405 then BitVec.ofNat 32 (match x.finalCc with | some t => t.2 | none => x.cc)
  else if n = 0x406 then packFields 32 ((List.range 8).map (fun b => (4 * b + 3, 4 * b, barBits x cell b)))
  else if n < 0x420 then
    let b : BitVec 3 := BitVec.ofNat 3 ((n - 0x410) / 2)
    if n % 2 = 0 then barAof cell b else barBof cell b
  else if n = 0x440 then packFields 32 [(8, 8, b01 v.cfgReject), (7, 0, v.nackLimit.toNat)]
  else if n = 0x441 then
    packFields 32 [(31, 24, v.nackrun), (23, 19, v.stage.length), (18, 15, v.sends.length), (14, 0, v.acked)]
  else if n = 0x442 then v.epoch
  else
    let u := queueAt cell (decide (n % 2 = 1))
    if n < 0x44A then u.ring
    else if n < 0x44C then packFields 32 [(31, 22, u.head), (21, 12, u.tail), (11, 2, u.used)]
    else if n < 0x44E then u.srcReg
    else packFields 32 [(31, 16, u.accepted), (15, 0, u.popped)]

/-- SPAD_LEASE in the cells of a physical region (Table 8.16). -/
def leaseWord (s : State) (p : Nat) : Word :=
  match s.leaseOf p with
  | some (_, l) => packFields 32 [(31, 31, 1), (30, 30, b01 l.damaged), (19, 10, l.spadRows), (9, 0, l.spadBase)]
  | none => 0

/-- SPAD_LEASE of a cell; after the end of its context the value that it had then (R338). -/
def spadLease (s : State) (x : Ctx) (cell : Cell) : Word :=
  (Mem.find x.finalLease (regionOf cell.id)).getD (leaseWord s (x.regions.getD (regionOf cell.id) 32))

/-- Registers 0x500 to 0x5FF (Table 8.7). -/
def readSpad (s : State) (x : Ctx) (cell : Cell) (n : Nat) : Word :=
  let v := cell.spad
  if n = 0x500 then 0x02800809
  else if n = 0x501 then packFields 32 [(5, 5, b01 v.starve), (4, 4, b01 v.loss), (3, 3, b01 v.reject), (2, 2, b01 v.ce),
    (0, 0, b01 v.mop.isSome)]
  else if n = 0x502 then packFields 32 [(31, 16, v.ceCount), (15, 6, v.firstRow), (5, 0, v.firstWord)]
  else if n = 0x503 then v.mopConst
  else if n = 0x505 then v.mopSig
  else if n = 0x506 then packFields 32 [(31, 16, v.lossCount), (2, 0, v.lossLog.length)]
  else if n = 0x507 then spadLease s x cell
  else 0

/-- The value of a cell register. -/
def readCreg (s : State) (x : Ctx) (cell : Cell) (creg : BitVec 12) : Word :=
  let n := creg.toNat
  if n < 0x100 then readCellReg cell n
  else if n < 0x200 then readTrow cell n
  else if n < 0x300 then readVec cell n
  else if n < 0x400 then readStrm cell n
  else if n < 0x500 then readSync x cell n
  else readSpad s x cell n

/-! ### Writing (Table 0.3) -/

def writeSync (cell : Cell) (n : Nat) (w : Word) : Cell :=
  let v := cell.sync
  if n = 0x401 then { cell with sync := { v with sigsel := w.setWidth 6 } }
  else if n < 0x410 then cell
  else if n < 0x420 then
    let b := (n - 0x410) / 2 % 8
    have hb : b < 8 := Nat.mod_lt _ (by decide)
    { cell with sync :=
        if n % 2 = 0 then { v with barA := v.barA.set b (w &&& 0xFFC0FFFF) } else { v with barB := v.barB.set b w } }
  else if n = 0x440 then { cell with sync := { v with nackLimit := w.setWidth 8, cfgReject := v.cfgReject && !bit w 8 } }
  else if n = 0x448 then ringWrite cell false w
  else if n = 0x449 then ringWrite cell true w
  else cell

def writeSpadReg (cell : Cell) (n : Nat) (w : Word) : Cell :=
  let v := cell.spad
  if n = 0x501 then { cell with spad := { v with
      starve := v.starve && !bit w 5, loss := v.loss && !bit w 4, reject := v.reject && !bit w 3, ce := v.ce && !bit w 2 } }
  else if n = 0x503 then { cell with spad := { v with mopConst := w } }
  else if n = 0x504 then mopGo cell (bit w 31) (fld w 29 20) (fld w 19 10) (fld w 9 0)
  else if n = 0x505 then { cell with spad := { v with mopSig := w &&& 0x000000BF } }
  else cell

/-- A write to a cell register: RO fields and reserved bits do not change (R6, R8). -/
def writeCreg (cell : Cell) (creg : BitVec 12) (w : Word) : Cell :=
  let n := creg.toNat
  if n < 0x100 then
    if n = 1 then { cell with sc := { cell.sc with
      cvtSat := cell.sc.cvtSat && !bit w 3, countClamp := cell.sc.countClamp && !bit w 2
      addrWrap := cell.sc.addrWrap && !bit w 1, div0 := cell.sc.div0 && !bit w 0 } }
    else cell
  else if n < 0x200 then { cell with tens := writeTrow cell.tens n w }
  else if n < 0x300 then { cell with vec := writeVec cell.vec n w }
  else if n < 0x400 then { cell with strm := writeStrm cell.strm n w }
  else if n < 0x500 then writeSync cell n w
  else writeSpadReg cell n w

/-! ### MFC and MTC (R80) -/

def execMfc (c : CellRef) (rd : BitVec 5) (creg : BitVec 12) (s : State) : Host.Outcome State Fault Refusal :=
  .next (issueSlot s c .S (.mfc c rd creg) (fun x cell =>
    { cell := addRes cell 0 1 (.s rd) (readCreg s x cell creg) }))

/-- MTC takes effect at the end of its cycle (R80). -/
def execMtc (c : CellRef) (rd : BitVec 5) (creg : BitVec 12) (s : State) : Host.Outcome State Fault Refusal :=
  .next (issueSlot s c .S (.mtc c rd creg) (fun _ cell =>
    { cell := { cell with sc := { cell.sc with cregs := cell.sc.cregs ++ [⟨cell.now, creg, sreg cell rd⟩] } } }))

/-- MTCs of this cycle take effect. -/
def landCregs (cell : Cell) : Cell :=
  let due := cell.sc.cregs.filter (fun w => decide (w.due ≤ cell.now))
  due.foldl (fun cl w => writeCreg cl w.creg w.val)
    { cell with sc := { cell.sc with cregs := cell.sc.cregs.filter (fun w => !decide (w.due ≤ cell.now)) } }

/-! ### The end of a cycle in a cell -/

/-- Residue mismatches found after the additions of this cycle (R101). -/
def residueErrors (x : Ctx) (dome : Nat) (before after : Cell) : List ErrRec :=
  let now := before.now
  let bank (b : Nat) : Bool := before.tens.adds.any (fun a => decide (a.due ≤ now) && decide (a.bank = b))
  (tensorErrors x after dome).filter (fun e => bank (e.detail / 64)) ++
  (xaccErrors x after dome).filter (fun e => before.vec.xadds.any (fun a => decide (a.due ≤ now) && decide (a.x = e.detail)))

/-- RESULT_LANDING: results, stores, overlays, register writes, loads, accumulations, tile and mask writes, queue pops
and stream ends of this cycle (R61, R63 to R65, R80, R119, R131, R177, R178, R253). -/
def landAll (s : State) (c : CellRef) : State :=
  match s.cell? c with
  | none => s
  | some cell =>
    let x := s.ctx c.ctx.val
    if executing x && !s.unrecoverable && !cellFrozen x cell then
      let a := afrCycle x s.clock.dome cell
      let n := checkNodes x a.1 s.clock.dome
      let b := landVector (landTensor (landCregs (landPops (landOverlays (landStores (landResults n.1))))))
      let e := endStreams (if running s x then x else { x with cc := x.cc - 1 }) c.ctx.val b
      let f := fetchAhead x s.clock.dome c e.1
      (s.setCell c f.1).emit c.ctx.val (a.2.and (e.2.and (f.2.and { errs := n.2 ++ residueErrors x s.clock.dome n.1 b })))
    else s

def execResultLanding (c : CellRef) (s : State) : Host.Outcome State Fault Refusal := .next (landAll s c)

end Sys2Proof.Machine
end

