-- ==== Sys2Proof/Machine/Wire.lean ====
section
/-!
DEFINITION. Sys2Proof/Machine/Wire.lean: flits as bits: the CRC of R278, the layout of Table 11.4, the code RS(544,514) and
its symbols on the lanes (R270), and the inner code (R271).
-/
namespace Sys2Proof.Machine

/-! ### CRC-32 (R276, R278) -/

/-- One bit of a reflected CRC, on the register as a number; `poly` is the polynomial turned round. -/
def crcBit (poly c : Nat) : Nat := if c % 2 = 1 then Nat.xor (c / 2) poly else c / 2

/-- One byte, least significant bit first. -/
def crcByte (poly c : Nat) (b : Byte) : Nat :=
  let two (c : Nat) : Nat := crcBit poly (crcBit poly c)
  two (two (two (two (Nat.xor c b.toNat))))

/-- The CRC register after bytes. The match makes the kernel evaluate it byte by byte. -/
def crcRun (poly : Nat) : List Byte → Nat → Nat
  | [], c => c
  | b :: l, c => match crcByte poly c b with
    | 0 => crcRun poly l 0
    | k + 1 => crcRun poly l (k + 1)

/-- The CRC of R278 over bytes in transmission order: polynomial 0x04C11DB7. -/
def crc32 (l : List Byte) : Word := BitVec.ofNat 32 (crcRun 0xEDB88320 l 0xFFFFFFFF) ^^^ 0xFFFFFFFF

/-- CRC-32C (Castagnoli), which guards images, persistent groups and log records (R350, R387, R393). -/
def crc32c (l : List Byte) : Word := BitVec.ofNat 32 (crcRun 0x82F63B78 l 0xFFFFFFFF) ^^^ 0xFFFFFFFF

/-- Byte `i` of a flit. -/
def flitByte (w : BitVec 2240) (i : Nat) : Byte := w.extractLsb' (8 * i) 8

/-- The CRC of bytes 0 to 275 of a flit. -/
def flitCrc (w : BitVec 2240) : Word := crc32 ((List.range 276).map (flitByte w))

/-- The last four bytes of a flit are its CRC. -/
def crcGood (w : BitVec 2240) : Bool := decide (w.extractLsb' 2208 32 = flitCrc w)

/-! ### The layout of a flit (Table 11.4) -/

/-- Header and payload of a flit; its CRC is left 0. -/
def flitBody (f : Flit) : BitVec 2208 :=
  f.payload ++ (f.cls ++ f.mtype ++ f.seq ++ f.ackseq ++ BitVec.ofBool f.nak ++ BitVec.ofBool f.crclass ++ f.credit ++ f.ctx ++
    f.route ++ f.hop ++ f.due ++ f.arg : BitVec 160)

/-- A flit as it leaves a port. -/
def flitBits (f : Flit) : BitVec 2240 := flitCrc ((flitBody f).setWidth 2240) ++ flitBody f

/-- The flit that 280 bytes spell. -/
def flitOf (w : BitVec 2240) : Flit :=
  { cls := w.extractLsb' 158 2, mtype := w.extractLsb' 152 6, seq := w.extractLsb' 140 12, ackseq := w.extractLsb' 128 12
    nak := w.getLsbD 127, crclass := w.getLsbD 126, credit := w.extractLsb' 116 10, ctx := w.extractLsb' 100 16
    route := w.extractLsb' 92 8, hop := w.extractLsb' 86 6, due := w.extractLsb' 64 22, arg := w.extractLsb' 0 64
    payload := w.extractLsb' 160 2048 }

/-! ### Bits and symbols -/

/-- Bits of a vector, the least significant one first. -/
def bitList {w : Nat} (v : BitVec w) : List Bool := (List.range w).map v.getLsbD

/-- The number that bits spell, the first one least significant. -/
def natOfBits : List Bool → Nat
  | [] => 0
  | b :: l => b01 b + 2 * natOfBits l

/-- A symbol of the RS code. -/
abbrev Sym := BitVec 10

/-- The 10-bit symbols of a flit, in transmission order. -/
def flitSymbols (w : BitVec 2240) : List Sym := (List.range 224).map (fun i => w.extractLsb' (10 * i) 10)

/-- The symbols that bits spell. -/
def symbolsOf (l : List Bool) : List Sym := (pieces 10 (l.length / 10) l).map (fun q => BitVec.ofNat 10 (natOfBits q))

/-! ### RS(544,514) of IEEE 802.3 clause 91 (R270; log entry 93)

Symbols are elements of GF(2^10) with x^10 + x^3 + 1; the generator has the roots α^0 to α^29. Polynomials are lists of their
coefficients, the constant one first. -/

/-- A field element times α. -/
def gfDouble (a : Sym) : Sym := if a.getLsbD 9 then (a <<< 1) ^^^ 9 else a <<< 1

/-- The product of two field elements. -/
def gfMul (a b : Sym) : Sym :=
  (List.range 10).foldr (fun i acc => if b.getLsbD i then gfDouble acc ^^^ a else gfDouble acc) 0

/-- α to a power. -/
def gfExp : Nat → Sym
  | 0 => 1
  | n + 1 => gfDouble (gfExp n)

/-- The inverse of a field element: its 1022nd power. -/
def gfInv (a : Sym) : Sym :=
  ((List.range 9).foldl (fun (q : Sym × Sym) _ => let d := gfMul q.1 q.1; (d, gfMul q.2 d)) (a, 1)).2

/-- The value of a polynomial. -/
def polyAt (p : List Sym) (x : Sym) : Sym := p.foldr (fun c acc => c ^^^ gfMul x acc) 0

/-- The sum of two polynomials. -/
def polyAdd : List Sym → List Sym → List Sym
  | [], q => q
  | p, [] => p
  | a :: p, b :: q => (a ^^^ b) :: polyAdd p q

/-- A polynomial times a constant. -/
def polyScale (c : Sym) (p : List Sym) : List Sym := p.map (gfMul c)

/-- The product of two polynomials. -/
def polyMul (p q : List Sym) : List Sym := p.foldr (fun c acc => polyAdd (polyScale c q) (0 :: acc)) []

/-- The generator polynomial, of degree 30. -/
def rsGenerator : List Sym := (List.range 30).foldl (fun g j => polyMul [gfExp j, 1] g) [1]

/-- The 30 parity symbols of 514 symbols, in transmission order: the rest of the division by the generator. -/
def rsParity (msg : List Sym) : List Sym :=
  let g := (rsGenerator.take 30).reverse
  msg.foldl (fun reg m =>
    let k := m ^^^ reg.headD 0
    (reg.tail ++ [0]).zipWith (fun r c => r ^^^ gfMul k c) g) (List.replicate 30 0)

/-- A codeword: 514 symbols of the flit stream and their parity. -/
def rsCodeword (msg : List Sym) : List Sym := msg ++ rsParity msg

/-- The 30 syndromes of a received word. -/
def syndromes (word : List Sym) : List Sym :=
  (List.range 30).map (fun j => word.foldl (fun acc c => gfMul acc (gfExp j) ^^^ c) 0)

/-- The search for the error locator: the locator, the one before its last change of length with its discrepancy, the length,
and the steps since then. -/
structure Locator where
  cur : List Sym := [1]
  old : List Sym := [1]
  disc : Sym := 1
  len : Nat := 0
  gap : Nat := 1

/-- One step of the search, at syndrome `n`. -/
def Locator.step (syn : List Sym) (q : Locator) (n : Nat) : Locator :=
  let d := (List.range (q.len + 1)).foldl (fun acc i => acc ^^^ gfMul (q.cur.getD i 0) (syn.getD (n - i) 0)) 0
  let next := polyAdd q.cur (polyScale (gfMul d (gfInv q.disc)) (List.replicate q.gap 0 ++ q.old))
  if d = 0 then { q with gap := q.gap + 1 }
  else if 2 * q.len ≤ n then { cur := next, old := q.cur, disc := d, len := n + 1 - q.len, gap := 1 }
  else { q with cur := next, gap := q.gap + 1 }

/-- The odd-degree part of a polynomial by degrees, which is its derivative. -/
def derivative (p : List Sym) : List Sym := p.zipIdx.tail.map (fun e => if e.2 % 2 = 1 then e.1 else 0)

/-- The message of a received word: up to 15 wrong symbols are corrected, and a word with more is taken as it came. -/
def rsDecode (word : List Sym) : List Sym :=
  let syn := syndromes word
  let q := (List.range 30).foldl (Locator.step syn) {}
  let places := (List.range 544).filter (fun i => decide (polyAt q.cur (gfExp (1023 - i)) = 0))
  if q.len ≤ 15 ∧ places.length = q.len then
    let omega := (polyMul syn q.cur).take 30
    let slope := derivative q.cur
    (word.zipIdx.map (fun e =>
      let i := 543 - e.2
      if places.contains i then
        let x := gfExp (1023 - i)
        e.1 ^^^ gfMul (gfExp i) (gfMul (polyAt omega x) (gfInv (polyAt slope x)))
      else e.1)).take 514
  else word.take 514

/-! ### Lanes (R270) -/

/-- The symbols that lane `k` of `n` takes of a codeword: they go round the lanes. -/
def laneShare (n k : Nat) (word : List Sym) : List Sym := (word.zipIdx.filter (fun e => decide (e.2 % n = k))).map (·.1)

/-- The symbols of the lanes in the order in which they were put on them. -/
def mergeLanes (lanes : List (List Sym)) : List Sym :=
  (List.range (sumNat (lanes.map List.length))).map (fun i => (lanes.getD (i % lanes.length) []).getD (i / lanes.length) 0)

/-- The flit that the RS decoder finds in the symbols of the lanes, from bit `skip` of its stream. -/
def rsFlit (lanes : List (List Sym)) (skip : Nat) : BitVec 2240 :=
  let all := mergeLanes lanes
  let words := pieces 544 (all.length / 544) all
  BitVec.ofNat 2240 (natOfBits (((words.flatMap rsDecode).flatMap bitList |>.drop skip).take 2240))

/-! ### The inner code (R271) -/

/-- Bits set in a byte. -/
def bitCount (v : Nat) : Nat := ((List.range 8).filter (fun j => v.testBit j)).length

/-- h_0 to h_127: the 8-bit values with at least two bits set, in ascending order. -/
def innerColumns : List Nat := ((List.range 256).filter (fun v => decide (2 ≤ bitCount v))).take 128

/-- The eight parity bits of a block. -/
def innerParity (d : BitVec 128) : Byte :=
  innerColumns.zipIdx.foldl (fun acc e => if d.getLsbD e.2 then acc ^^^ BitVec.ofNat 8 e.1 else acc) 0

/-- The parity bits that each bit of a block and of its parity turns. -/
def blockColumns : List Nat := innerColumns ++ (List.range 8).map (fun j => 2 ^ j)

/-- The cheaper of two sets of bits to be turned, with its cost. -/
def cheaper (a b : Option (Nat × List Nat)) : Option (Nat × List Nat) :=
  match a, b with
  | some x, some y => if y.1 < x.1 then some y else some x
  | some x, none => some x
  | none, y => y

/-- For each pattern of parity bits, the cheapest set of the bits so far that turns it; the next bit costs `cost`. -/
def softStep (tab : Vector (Option (Nat × List Nat)) 256) (col cost i : Nat) : Vector (Option (Nat × List Nat)) 256 :=
  Vector.ofFn (fun t => cheaper tab[t]
    ((tab[Nat.xor t.val col % 256]'(Nat.mod_lt _ (by decide))).map (fun q => (q.1 + cost, i :: q.2))))

/-- The data of a received block: with soft decisions, the bits are turned that make the parity agree and of which the receiver
was least sure in all (R271; log entry 74). -/
def innerDecode (block : List Int) : List Bool :=
  let hard := block.map (fun v => decide (0 < v))
  let wrong := (hard.zip blockColumns).foldl (fun acc e => if e.1 then Nat.xor acc e.2 else acc) 0
  let start : Vector (Option (Nat × List Nat)) 256 := Vector.ofFn (fun t => if t.val = 0 then some (0, []) else none)
  let tab := (block.zip blockColumns).zipIdx.foldl (fun tab e => softStep tab e.1.2 e.1.1.natAbs e.2) start
  let turn := match tab[wrong % 256]'(Nat.mod_lt _ (by decide)) with | some q => q.2 | none => []
  (hard.zipIdx.map (fun e => if turn.contains e.2 then !e.1 else e.1)).take 128

/-- The bits of the RS codewords on a lane, from its blocks. -/
def innerLane (lane : List Int) : List Bool := (pieces 136 (lane.length / 136) lane).flatMap innerDecode

/-- The 280 bytes that a port takes from the wire (R270, R271, R278). -/
def wireBits : Wire → BitVec 2240
  | .flit bits => bits
  | .rs lanes skip => rsFlit (lanes.map symbolsOf) skip
  | .inner lanes lead skip => rsFlit (lanes.map (fun l => symbolsOf ((innerLane l).drop lead))) skip

/-- The modes of the concatenated code (Table 11.1). -/
def concatenated (mode : Nat) : Bool := decide (mode = 1) || decide (mode = 3)

/-- The whole blocks of 128 bits at the front of a lane's stream, each with its parity, and the bits that are left. -/
def innerBlocks (l : List Bool) : List (BitVec 128 × Byte) × List Bool :=
  let n := l.length / 128
  ((pieces 128 n l).map (fun q => let d := BitVec.ofNat 128 (natOfBits q); (d, innerParity d)), l.drop (128 * n))

end Sys2Proof.Machine
end

