-- ==== Sys2Proof/Machine/Ports.lean ====
section
/-!
DEFINITION. Sys2Proof/Machine/Ports.lean: flits on a Silide port: sending (R279, R282 to R284), receiving (R280, R292,
R294), resending (R280), the slot plan (R285 to R287) and forwarding (R291).
-/
namespace Sys2Proof.Machine

/-! ### Contexts by tag, and message shapes -/

/-- The context that holds a tag (R366, Table 14.1). -/
def State.tagged (s : State) (tag : BitVec 16) : Option Nat :=
  (s.ctxs.find? (fun e => e.2.passedTag && decide (e.2.state ≠ .free) && decide (e.2.image.tag = tag))).map (·.1)

/-- The class of a message type (Table 11.7). -/
def mtypeClass (mtype : BitVec 6) : Option (BitVec 2) :=
  if mtype = 0 then some 0
  else if mtype = 0x01 ∨ mtype = 0x02 ∨ mtype = 0x0A then some 2
  else if mtype.toNat ≤ 0x0B ∨ mtype = 0x18 then some 3
  else if 0x10 ≤ mtype.toNat ∧ mtype.toNat ≤ 0x14 then some 1
  else none

/-- The flit is the last of its message (Table 11.7). -/
def lastFlit (f : Flit) : Bool :=
  if f.mtype = 0x03 then bit f.arg 7
  else if f.mtype = 0x05 ∨ f.mtype = 0x07 then decide (fld f.arg 16 12 = 2 * fld f.arg 11 8 + 1)
  else true

/-- A loose message of a context that the summaries of R260 count; SUMMARY itself does not count. -/
def counted (f : Flit) : Bool := decide (f.cls = 3) && decide (f.mtype ≠ 0x0B) && decide (f.mtype ≠ 0x18) && lastFlit f

/-- The module's own address (Table 11.3). -/
def State.ownAddress (s : State) : Nat := s.lantern.address.toNat % 2 ^ 18

/-- The node position at the other end of a node port (R277). -/
def State.partnerAt (s : State) (p : Nat) : Nat := (s.ownAddress % 8 + p + 1) % 8

/-- Count a loose message sent to or received from the partner at a Silide port (R260, Table 10.4). -/
def State.countLoose (s : State) (p : Nat) (f : Flit) (sent : Bool) : State :=
  match s.tagged f.ctx with
  | some n =>
    if counted f ∧ p ≤ 14 then
      s.onCtx n (fun x =>
        if sent then { x with quiet := { x.quiet with sent := Mem.wr 0 x.quiet.sent p (Mem.rd 0 x.quiet.sent p + 1) } }
        else { x with quiet := { x.quiet with received := Mem.wr 0 x.quiet.received p (Mem.rd 0 x.quiet.received p + 1) } })
    else s
  | none => s

/-! ### Sending -/

/-- Fill the link layer's fields of a header: ACKSEQ, NAK and the credits returned (Table 11.4, R280, R283). -/
def fillHeader (q : Port) (now : Nat) (f : Flit) : Port × Flit :=
  let sched := decide (q.retSched ≠ 0)
  let k := min 1023 (if sched then q.retSched else q.retLoose)
  ({ q with
      sendNak := false, lastHeader := now
      retSched := if sched then q.retSched - k else q.retSched
      retLoose := if sched then q.retLoose else q.retLoose - k },
   { f with ackseq := q.rxNext - 1, nak := q.sendNak, crclass := !sched, credit := BitVec.ofNat 10 k })

/-- An idle flit (R279). -/
def idleFlit : Flit :=
  { cls := 0, mtype := 0, seq := 0, ackseq := 0, nak := false, crclass := false, credit := 0, ctx := 0xFFFF, route := 0
    hop := 0, due := 0, arg := 0, payload := 0 }

/-- Return the credit of one flit that leaves its buffer (R283). -/
def freeRx (q : Port) (f : Flit) (k : Nat) : Port :=
  if f.cls = 2 then { q with landing := q.landing - k, retSched := q.retSched + k }
  else if f.cls = 3 then { q with looseBuf := q.looseBuf - k, retLoose := q.retLoose + k }
  else q

/-- Keep some of the scheduled flits that wait in a port, with their order (R289). -/
def filterSched (q : Port) (keep : Flit → Bool) : Port :=
  let keys := q.reached.2.drop (q.reached.2.length - q.sched.length)
  let k := q.sched.length - keys.length
  { q with
    sched := q.sched.filter keep
    reached := (q.reached.1, ((keys.zip (q.sched.drop k)).filter (fun e => keep e.2)).map (·.1)) }

/-- Drop flits that wait in a port: queued ones, those of the loose queues that `queue` names, and received ones with their
credits returned (R294). -/
def dropFlits (q : Port) (drop : Flit → Bool) (queue : LooseQueue → Bool) : Port :=
  let q := filterSched (((q.rx ++ q.parts).filter drop).foldl (fun q f => freeRx q f 1) q) (fun f => !drop f)
  { q with
    current := q.current.filter (fun f => !drop f), loose := q.loose.filter (fun e => !queue e)
    rx := q.rx.filter (fun f => !drop f), parts := q.parts.filter (fun f => !drop f) }

/-- Drop the flits of a tag (R294). -/
def dropTag (q : Port) (tag : BitVec 16) : Port :=
  dropFlits q (fun f => decide (f.ctx = tag) && decide (f.cls ≠ 1)) (fun e => decide (e.tag = tag))

/-- In UNRECOVERABLE a port drops what is neither a control nor a MGMT flit, and counts it in DISCARD (R372). -/
def dropRest (q : Port) : Port :=
  let rest (f : Flit) : Bool := decide (f.cls ≠ 1) && decide (f.mtype ≠ 0x18)
  let queue (e : LooseQueue) : Bool := decide (e.tag ≠ 0xFFFF)
  { dropFlits q rest queue with
    discard := satAdd 0xFFFF q.discard (((q.sched ++ q.current ++ q.rx ++ q.parts).filter rest).length +
      sumNat ((q.loose.filter queue).map (fun e => sumNat (e.msgs.map (·.length))))) }

/-- The next flit of the loose queues: the rest of a message, or the first flit of the next queue's next message (R284). -/
def nextLoose (q : Port) : Option (Flit × Port) :=
  match q.current with
  | f :: rest => some (f, { q with current := rest })
  | [] =>
    let l := sortBy (fun (e : LooseQueue) => e.tag.toNat) (q.loose.filter (fun e => !e.msgs.isEmpty))
    match (l.find? (fun e => decide (q.lastTag.toNat < e.tag.toNat))).orElse (fun _ => l.head?) with
    | none => none
    | some e =>
      match e.msgs with
      | (f :: rest) :: ms =>
        some (f, { q with
          current := rest, lastTag := e.tag
          loose := (q.loose.map (fun o => if o.tag = e.tag then { o with msgs := ms } else o)).filter (fun o => !o.msgs.isEmpty) })
      | _ => none

/-- The flit that a port sends next and is not a resent one: scheduled, control, loose (R282, R283). -/
def nextNew (q : Port) : Option (Flit × Port) :=
  match q.sched, q.credSched with
  | f :: rest, k + 1 => some (f, { q with sched := rest, credSched := k })
  | _, _ =>
    match q.ctrl with
    | f :: rest => some (f, { q with ctrl := rest })
    | [] =>
      match q.credLoose, nextLoose q with
      | k + 1, some (f, q') => some (f, { q' with credLoose := k })
      | _, _ => none

/-- The next flit to be resent, which counts as resent once more (R280, R302). -/
def nextResent (q : Port) : Option (Flit × Port) :=
  match q.resend with
  | none => none
  | some r =>
    match q.replay.find? (fun f => decide (f.seq = r)) with
    | none => none
    | some f => some (f, { q with
        resend := if q.replay.any (fun g => decide (g.seq = r + 1)) then some (r + 1) else none
        resends := Mem.put q.resends r.toNat (Mem.rd 0 q.resends r.toNat + 1) })

/-- A resent flit carries the acknowledgement of the moment; the credits that it returns are those of its first sending,
which the receiver has not taken (R280, R283). -/
def resendHeader (q : Port) (now : Nat) (f : Flit) : Port × Flit :=
  ({ q with sendNak := false, lastHeader := now }, { f with ackseq := q.rxNext - 1, nak := q.sendNak })

/-- What lane `lane` sends of its symbols of a codeword: the symbols; in a concatenated mode their bits go through the inner
code, and each whole block of the lane leaves with its parity (R270, R271). -/
def lanePush (q : Port) (p lane : Nat) (share : List Sym) : Port × List Out :=
  if concatenated q.mode then
    let r := innerBlocks (q.laneIn.toList.getD lane [] ++ share.flatMap bitList)
    ({ q with laneIn := q.laneIn.setIfInBounds lane r.2 }, r.1.map (fun b => .inner p lane b.1 b.2))
  else (q, [.symbols p lane share])

/-- Put a flit into the RS code: the symbols of a codeword that is whole go round the lanes in use (R270). -/
def fecPush (q : Port) (p : Nat) (bits : BitVec 2240) : Port × List Out :=
  let syms := q.fecIn ++ flitSymbols bits
  if syms.length < 514 then ({ q with fecIn := syms }, [])
  else
    let word := rsCodeword (syms.take 514)
    let lanes := [0, 1].filter (fun l => bit q.lanes l)
    lanes.zipIdx.foldl (fun (acc : Port × List Out) e =>
      let r := lanePush acc.1 p e.1 (laneShare lanes.length e.2 word)
      (r.1, acc.2 ++ r.2)) ({ q with fecIn := syms.drop 514 }, [])

/-- A flit leaves port `p`, with its CRC (R278), through the FEC of the port's mode (R270, R271). -/
def State.wireOut (s : State) (p : Nat) (f : Flit) : State :=
  let bits := flitBits f
  let s := s.emitOut [.flit p f (bits.extractLsb' 2208 32)]
  let r := fecPush (s.port p) p bits
  (s.setPort p r.1).emitOut r.2

/-- A time in 1/64 ns: the dome count and a fraction of it (R297). -/
def State.stampNow (s : State) (frac : BitVec 6) : Nat := (64 * s.clock.dome + frac.toNat) % 2 ^ 64

/-- A TIME_SYNC flit takes the time at which it crosses the PHY: t1 of a request, t3 of a reply (R297). -/
def stampSync (f : Flit) (t : Nat) : Flit :=
  if f.mtype ≠ 0x10 then f
  else if fld f.arg 1 0 = 0 then { f with payload := setFld f.payload 63 0 t }
  else { f with payload := setFld f.payload 191 128 t }

/-- The exchange that a request begins (R297). -/
def State.beginExchange (s : State) (p : Nat) (f : Flit) : State :=
  if f.mtype = 0x10 ∧ fld f.arg 1 0 = 0 then { s with clock := { s.clock with exchange := some (p, fld f.payload 63 0) } } else s

/-- FLIT_TRANSMIT: the port sends one flit (R279, R282); in UNRECOVERABLE, beside those of the replay buffer, control and MGMT
flits only (R372; log entry 96). `frac` is the fraction of a tick at which it crosses the PHY. -/
def transmit (s : State) (p : Nat) (frac : BitVec 6) : State :=
  let q := if s.unrecoverable then dropRest (s.port p) else s.port p
  if q.state ≠ .active then s
  else
    let now := s.clock.ns
    match nextResent q with
    | some (f, q') =>
      let r := resendHeader q' now f
      (s.setPort p r.1).wireOut p r.2
    | none =>
      match (if 1024 ≤ q.replay.length then none else nextNew q) with
      | some (f, q') =>
        let r := fillHeader q' now { stampSync f (s.stampNow frac) with seq := q.txSeq }
        let s := (s.setPort p { r.1 with txSeq := q.txSeq + 1, replay := q.replay ++ [r.2] }).wireOut p r.2
        (s.beginExchange p r.2).countLoose p f true
      | none =>
        let r := fillHeader q now idleFlit
        (s.setPort p r.1).wireOut p r.2

def execFlitTransmit (p : Fin 16) (frac : BitVec 6) (s : State) : Host.Outcome State Fault Refusal := .next (transmit s p.val frac)

/-- HEADER_TIMER: a port sends a header at least once every 64 ns (R280). -/
def execHeaderTimer (p : Fin 16) (s : State) : Host.Outcome State Fault Refusal :=
  .next (let q := s.port p.val
    if q.state = .active ∧ q.lastHeader + 64 ≤ s.clock.ns then
      let r := fillHeader q s.clock.ns idleFlit
      (s.setPort p.val r.1).wireOut p.val r.2
    else s)

/-! ### Receiving -/

/-- The acknowledgement, the NAK and the credits of a header (R279, R280, R283). -/
def readHeader (q : Port) (f : Flit) : Port :=
  let known := q.replay.any (fun g => decide (g.seq = f.ackseq))
  let left := if known then (q.replay.dropWhile (fun g => decide (g.seq ≠ f.ackseq))).tail else q.replay
  { q with
    replay := left, resends := q.resends.filter (fun e => left.any (fun g => decide (g.seq.toNat = e.1)))
    resend := match q.resend with
      | some r => if left.any (fun g => decide (g.seq = r)) then some r else left.head?.map (·.seq)
      | none => none
    naked := q.naked || f.nak
    credSched := if f.crclass then q.credSched else q.credSched + f.credit.toNat
    credLoose := if f.crclass then q.credLoose + f.credit.toNat else q.credLoose }

/-- A discarded flit: the first one after an accepted flit sends a NAK (R280). -/
def reject (q : Port) (now : Nat) : Port :=
  if q.nakSent then q else { q with nakSent := true, sendNak := true, nakAt := now }

/-- Put a flit into its buffer. -/
def holdRx (q : Port) (f : Flit) : Port :=
  if f.cls = 2 then { q with landing := q.landing + 1 } else if f.cls = 3 then { q with looseBuf := q.looseBuf + 1 } else q

/-- The module takes a flit of this kind (R292, R294, R372, R379). -/
def takesFlit (s : State) (p : Nat) (f : Flit) : Bool :=
  decide (mtypeClass f.mtype = some f.cls) &&
  (if f.mtype = 0x18 then decide (p = 15)
   else if f.cls = 3 ∨ f.cls = 2 ∨ f.mtype = 0x11 ∨ f.mtype = 0x12 then
     !(s.unrecoverable && decide (f.cls ≠ 1)) &&
     (match s.tagged f.ctx with
      | some n => decide ((s.ctx n).state ≠ .loading) && decide ((s.ctx n).state ≠ .killing) && decide ((s.ctx n).state ≠ .failed)
      | none => false)
   else true)

/-- The context of an accepted flit has been heard on this port (R365). -/
def State.hear (s : State) (p : Nat) (f : Flit) : State :=
  match s.tagged f.ctx with
  | some n => s.onCtx n (fun x => if x.heardOn.contains p then x else { x with heardOn := x.heardOn ++ [p] })
  | none => s

/-- A flit with a good CRC at an ACTIVE port: one with the SEQ that is expected next is accepted (R279, R280). `t` is the time
at which it crossed the PHY. -/
def acceptFlit (s : State) (p : Nat) (f : Flit) (t : Nat) : State :=
  let q := s.port p
  if f.cls = 0 then
    if f.mtype = 0 then s.setPort p (readHeader q f) else s.setPort p { q with discard := satInc 0xFFFF q.discard }
  else if f.seq ≠ q.rxNext then s.setPort p (reject q s.clock.ns)
  else
    let q := readHeader { q with rxNext := q.rxNext + 1, nakSent := false } f
    if takesFlit s p f then
      ((s.setPort p { holdRx q f with
        rx := q.rx ++ [f], stamps := if f.mtype = 0x10 then q.stamps ++ [t] else q.stamps }).hear p f).countLoose p f false
    else s.setPort p { freeRx q f 0 with
      discard := satInc 0xFFFF q.discard
      retSched := if f.cls = 2 then q.retSched + 1 else q.retSched
      retLoose := if f.cls = 3 then q.retLoose + 1 else q.retLoose }

/-- FLIT_RECEIVE: 280 bytes arrive at a port; a bad CRC discards them (R278, R280). -/
def receive (s : State) (p : Nat) (w : Wire) (frac : BitVec 6) : State :=
  let q := s.port p
  if q.state ≠ .active then s
  else if !crcGood (wireBits w) then s.setPort p (reject { q with crcErr := satInc 0xFFFF q.crcErr } s.clock.ns)
  else acceptFlit s p (flitOf (wireBits w)) (s.stampNow frac)

def execFlitReceive (p : Fin 16) (w : Wire) (frac : BitVec 6) (s : State) : Host.Outcome State Fault Refusal :=
  .next (receive s p.val w frac)

/-- IDLE: an idle flit with a good CRC arrives: it carries ACKSEQ, NAK and credits, and nothing else (R279). -/
def execIdle (p : Fin 16) (w : Wire) (s : State) : Host.Outcome State Fault Refusal :=
  .next (let q := s.port p.val
    let f := flitOf (wireBits w)
    if q.state = .active ∧ crcGood (wireBits w) ∧ f.cls = 0 ∧ f.mtype = 0 then s.setPort p.val (readHeader q f) else s)

/-- NAK_RESEND: the sender resends from the first flit that is not acknowledged (R280). -/
def execNakResend (p : Fin 16) (s : State) : Host.Outcome State Fault Refusal :=
  .next (s.onPort p.val (fun q =>
    if q.naked then
      if q.replay.isEmpty then { q with naked := false }
      else { q with naked := false, resend := q.replay.head?.map (·.seq), retries := satInc 0xFFFF q.retries }
    else q))

/-- NAK_REPEAT: the NAK is repeated every 300 ns until the missing flit arrives (R280). -/
def execNakRepeat (p : Fin 16) (s : State) : Host.Outcome State Fault Refusal :=
  .next (s.onPort p.val (fun q =>
    if q.nakSent ∧ q.nakAt + 300 ≤ s.clock.ns then { q with sendNak := true, nakAt := s.clock.ns } else q))

/-! ### The slot plan (R285 to R287) -/

/-- The context's own cycle goes on for its ports: it executes, or it is DONE and no hold stops it (R287, R349). -/
def portsRun (s : State) (x : Ctx) : Bool :=
  running s x || (decide (x.state = .done) && !x.hold.held && !x.fresh && !s.unrecoverable)

/-- The VACANT flit of a slot cycle, with the first arrival that waits for one (R172, R287). -/
def vacantFor (x : Ctx) (e : SlotEntry) (due : Nat) : Flit × List VacArrival :=
  match x.vacs.find? (fun v => decide (v.route = e.route) && decide (v.cell = e.cell) && decide (v.after ≤ x.cc)) with
  | some v =>
    (ctxFlit x 2 0x01 e.route due (packFields 64 [(63, 32, v.bytes), (31, 18, v.dest.toNat), (6, 6, 1), (5, 0, v.sig.toNat)]) 0,
     x.vacs.erase v)
  | none => (ctxFlit x 2 0x01 e.route due 0 0, x.vacs)

/-- Scheduled flits reach a port: those of one core clock cycle stand by `key`, 32 times the context number plus the pair
(R289). -/
def reachPort (q : Port) (clk key : Nat) (fs : List Flit) : Port :=
  let keys := if q.reached.1 = clk then q.reached.2.drop (q.reached.2.length - q.sched.length) else []
  let k := q.sched.length - keys.length
  let l := fs.foldl (fun l f => insertBy (·.1) (key, f) l) (keys.zip (q.sched.drop k))
  { q with sched := q.sched.take k ++ l.map (·.2), reached := (clk, l.map (·.1)) }

def State.reach (s : State) (p n pair : Nat) (fs : List Flit) : State :=
  s.onPort p (fun q => reachPort q s.clock.clk (32 * n + pair) fs)

/-- The streams of a cell that an SSTOP of this cycle has ended: the arrivals of their groups may leave in this cycle (R172,
R178). -/
def State.stopsOf (s : State) (c : CellRef) : State :=
  match s.cell? c with
  | none => s
  | some cell =>
    if cell.strm.ends.any (fun e => decide (e.1 ≤ cell.now) && e.2.2) then
      let r := applyStops (s.ctx c.ctx.val) c.ctx.val cell
      (s.setCell c r.1).emit c.ctx.val r.2
    else s

/-- SLOT_CYCLE_SEND: the port sends what the owning cell issued in this slot cycle, or one VACANT flit (R287). -/
def slotSend (s : State) (p n : Nat) : State :=
  let e := Mem.rd {} (s.ctx n).slots (32 * p + (s.ctx n).cc % 320 / 10)
  if portsRun s (s.ctx n) ∧ (s.ctx n).cc % 10 = 0 ∧ e.kind = 1 then
    let s := s.stopsOf ⟨Fin.ofNat 32 n, e.cell⟩
    let x := s.ctx n
    let due := x.cc + (match Mem.find x.routes e.route with | some r => r.lat | none => 0)
    let mine (l : LinkRow) : Bool := decide (l.cycle = x.cc) && decide (l.route = e.route) && decide (l.cell = e.cell)
    match x.linkRows.find? mine with
    | some l =>
      (s.setCtx n { x with linkRows := x.linkRows.filter (fun l => !mine l) }).reach p n (x.cc % 320 / 10)
        [ctxFlit x 2 l.mtype e.route due l.arg0 (l.data.setWidth 2048),
         ctxFlit x 2 l.mtype e.route due l.arg1 ((l.data >>> 2048).setWidth 2048)]
    | none =>
      let v := vacantFor x e due
      (s.setCtx n { x with vacs := v.2 }).reach p n (x.cc % 320 / 10) [v.1]
  else s

def execSlotCycleSend (p : Fin 16) (n : Fin 32) (s : State) : Host.Outcome State Fault Refusal := .next (slotSend s p.val n.val)

/-! ### Messages that have been accepted -/

/-- Take the first accepted flit of a port where it is of this type. -/
def State.takeRx (s : State) (p : Nat) (mtype : BitVec 6) : Option (Flit × State) :=
  match (s.port p).rx with
  | f :: rest => if f.mtype = mtype then some (f, s.onPort p (fun q => { q with rx := rest })) else none
  | [] => none

/-- LINK_PLAN (R437, Table 14.11). -/
def State.linkPlan (s : State) (n p : Nat) (f : Flit) : State :=
  let x := s.ctx n
  s.emit n { errs := [{ code := 0x0030, unit := 9, free := false, cell := 0, detail := 16 * f.route.toNat + p, cc := x.cc
                        dome := s.clock.dome }] }

/-- The first port of the rest of a flit's route, where this module's part agrees with the flit (R291). -/
def forwardPort (x : Ctx) (f : Flit) : Option Nat :=
  match Mem.find x.routes f.route.toNat with
  | some r => if r.hops = f.hop.toNat then r.ports.head? else none
  | none => none

/-- The pair of the transit entry on which a route leaves a port (R286, R291). -/
def transitPair (x : Ctx) (p route : Nat) : Nat :=
  match x.slots.find? (fun e => decide (e.1 / 32 = p) && decide (e.2.kind = 2) && decide (e.2.route = route)) with
  | some e => e.1 % 32
  | none => 0

/-- Forward flits of one message on their route, with HOP less 1: scheduled ones by their transit entry, in the order of
R289 (R291). -/
def State.forward (s : State) (n p : Nat) (fs : List Flit) : State :=
  match fs with
  | [] => s
  | f :: _ =>
    match forwardPort (s.ctx n) f with
    | none => s.linkPlan n p f
    | some out =>
      let fs := fs.map (fun g => { g with hop := g.hop - 1 })
      if f.cls = 2 then s.reach out n (transitPair (s.ctx n) out f.route.toNat) fs
      else s.onPort out (fun q =>
        if f.cls = 1 then { q with ctrl := q.ctrl ++ fs }
        else enqueueLoose q f.ctx fs)

/-- The states in which a context takes messages (R349, R361). -/
def takesMessages (s : State) (x : Ctx) : Bool :=
  !s.unrecoverable && (decide (x.state = .loaded) || decide (x.state = .armed) || decide (x.state = .running))

/-! ### Removal of a context's traffic (R294, R303, Table 14.3) -/

/-- Apply a change to every port. -/
def State.onPorts (s : State) (f : Port → Port) : State :=
  (List.range 16).foldl (fun s p => s.onPort p f) s

/-- Loose items of context `n` that travel on the module. -/
def Loose.of : Loose → Nat
  | .row n _ _ => n
  | .signal n _ _ _ => n
  | .qmsg n _ _ => n
  | .contrib n _ _ _ _ _ => n
  | .result goal _ =>
    match goal with
    | .cell n _ _ => n
    | .comb n _ _ => n
    | .loose n _ _ _ => n
    | _ => 32

/-- The ports on which a context has a slot-mask entry, a route hop, or has accepted a flit (R365). -/
def tagPorts (x : Ctx) : List Nat :=
  (List.range 16).filter (fun p =>
    x.slots.any (fun e => decide (e.1 / 32 = p)) || x.routes.any (fun e => decide (e.2.ports.head? = some p)) || x.heardOn.contains p)

/-- A KILL_NOTICE flit (Table 11.7). -/
def killNoticeFlit (tag : BitVec 16) (dome : Nat) : Flit :=
  { idleFlit with cls := 1, mtype := 0x13, ctx := tag, payload := BitVec.ofNat 2048 (dome % 2 ^ 64) }

end Sys2Proof.Machine
end

