-- ==== Sys2Proof/Machine/Service.lean ====
section
/-!
DEFINITION. Sys2Proof/Machine/Service.lean: records and events for the hosts (R339 to R345, R351, R353), the persistent
store and the log (R387, R388, R393), fences (R223 to R225, R391), and regions that leave a context (R201, R213).
-/
namespace Sys2Proof.Machine

/-! ### Records and interrupts (R340 to R342, R351, R353) -/

/-- Entries of a completion ring that a record may still take (R342). -/
def cplRoom (f : Fn) : Nat :=
  let n := 2 ^ f.cplqSize
  if f.cplqOn then n - 1 - (f.cplqTail + n - f.cplqHead % n) % n else 0

/-- A record (Table 13.6), with its phase still 0. -/
def recordOf (id code handle ctx kind : Nat) (padded : Bool) (result : Nat) : Course :=
  packFields 256 [(15, 0, id), (31, 16, code), (39, 32, handle), (47, 40, ctx), (55, 54, kind), (53, 53, b01 padded),
    (255, 64, result)]

/-- A vector of a function fires: its message leaves the module, or its pending bit is set while its mask bit or the
function's is. Nothing leaves while MSI-X is not enabled (R353; the rules of PCI Express, PRESUMED: log entry 73). -/
def State.fireMsix (s : State) (f : FnRef) (v : Nat) : State :=
  let q := s.fn f
  if !q.cfg.msixOn then s
  else if q.cfg.msixFnMask || bit q.msixMask v then s.setFn f { q with msixPend := q.msixPend ||| BitVec.ofNat 2 (2 ^ v) }
  else s.emitOut [.msix f v]

/-- Vector 0 fires where as many records as COAL_N wait to be signalled (R353). -/
def State.signalNow (s : State) (f : FnRef) : State :=
  let q := s.fn f
  if q.intOn ∧ max 1 q.coalN ≤ q.unsignalled then (s.setFn f { q with unsignalled := 0 }).fireMsix f 0 else s

/-- Count a record towards MSI-X vector 0, which fires after COAL_N of them (R353). -/
def State.signalRecord (s : State) (f : FnRef) : State :=
  (s.onFn f (fun q => { q with
    unsignalled := q.unsignalled + 1, firstUnsig := if q.unsignalled = 0 then s.clock.dome else q.firstUnsig })).signalNow f

/-- Write a record at HOST_CPLQ_TAIL; the phase inverts at every wrap (R342). -/
def State.putRecord (s : State) (f : FnRef) (r : Course) : State :=
  let q := s.fn f
  let n := 2 ^ q.cplqSize
  let t := (q.cplqTail + 1) % n
  let r := setFld r 56 56 (b01 q.phase)
  ((s.setFn f { q with cplqTail := t, phase := if t = 0 then !q.phase else q.phase }).emitOut
    [.record f (q.cplqBase.toNat / 4096 * 4096 + 32 * q.cplqTail) r]).signalRecord f

/-- A ring whose disable is pending goes off once no command of the function is unfinished (R339). -/
def settleRings (q : Fn) : Fn :=
  if q.cmds.isEmpty then
    { q with
      cmdqOn := q.cmdqOn && !q.cmdqOff, cmdqOff := false
      cplqOn := q.cplqOn && !q.cplqOff, cplqOff := false }
  else q

/-- Fields of a command entry (Table 13.5). -/
def cmdOp (c : Cmd) : Nat := fld c.raw 7 0
def cmdHandle (c : Cmd) : Nat := fld c.raw 15 8
def cmdId (c : Cmd) : Nat := fld c.raw 31 16
/-- The parameter in bytes `lo` to `hi`. -/
def cmdPar (c : Cmd) (lo hi : Nat) : Nat := fld c.raw (8 * hi + 7) (8 * lo)

/-- The opcodes that name a handle (R344, Table 13.8). -/
def namesHandle (op : Nat) : Bool := decide (0x10 ≤ op) && decide (op ≤ 0x16)

/-- The context on a handle. -/
def State.onHandle (s : State) (f : FnRef) (h : Nat) : Option Nat := Mem.find (s.fn f).handles h

/-- The context number that a command's record carries (Table 13.6). -/
def State.recordCtx (s : State) (f : FnRef) (c : Cmd) : Nat :=
  if namesHandle (cmdOp c) then (s.onHandle f (cmdHandle c)).getD 255 else 255

def Fn.without (q : Fn) (seq : Nat) : Fn := settleRings { q with cmds := q.cmds.filter (fun c => decide (c.seq ≠ seq)) }

/-- Finish a command: its record is written, to HOST_MBOX_RES for the mailbox (R341, R345), else to the ring. `n` is the
context number, 255 for none. -/
def State.finish (s : State) (f : FnRef) (seq code n result : Nat) : State :=
  let q := s.fn f
  match q.cmds.find? (fun c => decide (c.seq = seq)) with
  | none => s
  | some c =>
    let r := recordOf (cmdId c) code (cmdHandle c) n 0 (decide (n < 32) && (s.ctx n).padded) result
    if c.mbox then
      (s.setFn f { q.without seq with mboxRes := setFld r 56 56 1 }).fireMsix f 1
    else if q.records.isEmpty ∧ cplRoom q ≠ 0 then (s.putRecord f r).onFn f (fun q => q.without seq)
    else if q.records.any (fun e => decide (e.1 = seq)) then s
    else s.setFn f { q with records := q.records ++ [(seq, r)] }

/-- EVENT_RECORD: the first record or event that waits is written where the ring has room (R351). -/
def writeWaiting (s : State) (f : FnRef) : State :=
  let q := s.fn f
  if cplRoom q = 0 then s
  else match q.records with
    | (seq, r) :: rest => ((s.setFn f { q with records := rest }).putRecord f r).onFn f (fun q => q.without seq)
    | [] =>
      match q.events with
      | [] => s
      | e :: rest =>
        let result := (packFields 192 [(63, 0, e.dome), (79, 64, e.error), (87, 80, e.lease), (127, 96, e.mask), (191, 128, e.cc)]).toNat
        (s.setFn f { q with events := rest }).putRecord f (recordOf 0xFFFF e.code e.handle e.ctx 1 e.padded result)

def execEventRecord (f : FnRef) (s : State) : Host.Outcome State Fault Refusal := .next (writeWaiting s f)

/-- The accepted commands of an opcode that name the handle of context `n`. -/
def State.cmdsOn (s : State) (n op : Nat) : List Cmd :=
  let x := s.ctx n
  (s.fn x.owner).cmds.filter (fun c => c.accepted && decide (cmdOp c = op) && decide (cmdHandle c = x.handle))

/-- Finish every accepted command of an opcode on the handle of context `n`. -/
def State.finishOn (s : State) (n op code result : Nat) : State :=
  (s.cmdsOn n op).foldl (fun s c => s.finish (s.ctx n).owner c.seq code n result) s

/-- An event about context `n` for the function that owns it (Table 13.14). -/
def State.ctxEvent (s : State) (n code error : Nat) : State :=
  let x := s.ctx n
  s.addEvent x.owner { code := code, handle := x.handle, ctx := n, dome := s.clock.dome, error := error, lease := 0, mask := 0
                       cc := if code = 3 then 0 else schedCc s x, padded := x.padded }

/-! ### The persistent store (R387, R388) and the log (R393) -/

/-- The values of group `g` from `a`, all others from `b` (Table 15.4). -/
def groupFrom (g : Nat) (a b : OdVals) : OdVals :=
  match g with
  | 0 => { b with startCount := a.startCount }
  | 1 => { b with h0Regions := a.h0Regions, h1Regions := a.h1Regions }
  | 2 => { b with envelope := a.envelope }
  | 3 => { b with class1 := a.class1, class2 := a.class2, class3 := a.class3, holdC := a.holdC, releaseC := a.releaseC }
  | 4 => { b with address := a.address, expect := a.expect, mapRotate := a.mapRotate, ceLimit := a.ceLimit }
  | 5 => { b with cellFences := a.cellFences, regionFences := a.regionFences, regionCause := a.regionCause }
  | 6 => { b with modeMask := a.modeMask, retrainMs := a.retrainMs, timeMode := a.timeMode, rootAddress := a.rootAddress }
  | _ => { b with quietCc := a.quietCc, summaryNs := a.summaryNs, dumpMs := a.dumpMs, holdLimitMs := a.holdLimitMs }

def vecAt {α : Type} (v : Vector α 8) (g : Nat) : α := v[g % 8]'(Nat.mod_lt _ (by decide))
def vecSet {α : Type} (v : Vector α 8) (g : Nat) (a : α) : Vector α 8 := v.set (g % 8) a (Nat.mod_lt _ (by decide))

/-- The bytes of an integer in two's complement. -/
def intBytes (v : Int) (n : Nat) : List Byte := bytesOf (v % (2 ^ (8 * n) : Nat)).toNat n

/-- The values of group `g`, entry by entry in the order of Table 15.4. -/
def groupValues (od : OdVals) (g : Nat) : List Byte :=
  match g with
  | 0 => bytesOf od.startCount 4
  | 1 => bytesOf od.h0Regions 1 ++ bytesOf od.h1Regions 1
  | 2 => bytesOf od.envelope 2
  | 3 => intBytes od.class1 2 ++ intBytes od.class2 2 ++ intBytes od.class3 2 ++ intBytes od.holdC 2 ++ intBytes od.releaseC 2
  | 4 => bytesOf od.address.toNat 4 ++ (List.range 16).flatMap (fun p => bytesOf (Mem.rd 0xFFFFFFFF od.expect p).toNat 4) ++
      bytesOf (b01 od.mapRotate) 1 ++ bytesOf od.ceLimit 2
  | 5 => bytesOf od.cellFences.length 4 ++ (List.range 255).flatMap (fun i => bytesOf (od.cellFences.getD i 0).toNat 4) ++
      bytesOf od.regionFences.toNat 4 ++ (List.range 32).flatMap (fun p => bytesOf (Mem.rd 0 od.regionCause p) 1)
  | 6 => (List.range 16).flatMap (fun p => bytesOf (Mem.rd 0xFF od.modeMask p).toNat 1) ++ bytesOf od.retrainMs 2 ++
      bytesOf od.timeMode 1 ++ bytesOf od.rootAddress.toNat 4
  | _ => bytesOf od.quietCc 4 ++ bytesOf od.summaryNs 4 ++ bytesOf od.dumpMs 4 ++ bytesOf od.holdLimitMs 2

/-- The check word of a copy of group `g` (R387). -/
def copyCheck (od : OdVals) (seq : Word) (g : Nat) : Word := crc32c (groupValues od g ++ bytesOf seq.toNat 4)

/-- A copy of group `g` is intact (R389). -/
def Lantern.intactA (l : Lantern) (g : Nat) : Bool := decide (vecAt l.crcA g = copyCheck l.copyA (vecAt l.seqA g) g)
def Lantern.intactB (l : Lantern) (g : Nat) : Bool := decide (vecAt l.crcB g = copyCheck l.copyB (vecAt l.seqB g) g)

/-- The first copy of group `g` is the one in use: the intact copy with the higher sequence number (R389). -/
def Lantern.usesA (l : Lantern) (g : Nat) : Bool :=
  l.intactA g && (!l.intactB g || decide (vecAt l.seqB g ≤ vecAt l.seqA g))

/-- Write a copy of group `g` with its sequence number and check word (R387). -/
def Lantern.putA (l : Lantern) (g : Nat) (od : OdVals) (seq : Word) : Lantern :=
  { l with copyA := groupFrom g od l.copyA, seqA := vecSet l.seqA g seq, crcA := vecSet l.crcA g (copyCheck od seq g) }
def Lantern.putB (l : Lantern) (g : Nat) (od : OdVals) (seq : Word) : Lantern :=
  { l with copyB := groupFrom g od l.copyB, seqB := vecSet l.seqB g seq, crcB := vecSet l.crcB g (copyCheck od seq g) }

/-- The group has reached its write limit (R388). -/
def Lantern.worn (l : Lantern) (g : Nat) : Bool := decide (1000000 ≤ vecAt l.wear g)

/-- Write group `g`: the values in force become those of `od`, and the copy that is not in use takes them, with the sequence
number after that of the copy in use (R387; log entry 94). -/
def Lantern.store (l : Lantern) (g : Nat) (od : OdVals) : Lantern :=
  let l := { l with od := od, wear := vecSet l.wear g (vecAt l.wear g + 1) }
  if l.usesA g then l.putB g od (vecAt l.seqA g + 1) else l.putA g od (vecAt l.seqB g + 1)

/-- The 32 bytes of a log record (Table 15.7). -/
def LogRec.bytes (e : LogRec) : List Byte :=
  bytesOf e.seq 4 ++ bytesOf e.start 4 ++ bytesOf e.dome 8 ++ bytesOf e.code 2 ++ List.replicate 6 0 ++ bytesOf e.arg 8

/-- A record's check word holds (R393). -/
def LogRec.intact (e : LogRec) : Bool := decide (e.crc = crc32c e.bytes)

/-- Write a record of the persistent log (R393, Table 15.7). -/
def State.logEvent (s : State) (code arg : Nat) : State :=
  let l := s.lantern
  let old := Mem.rd ⟨0, 0, 0, 0, 0, 0, 0⟩ l.log l.logNext
  let e : LogRec := { seq := l.logSeq + 1, start := l.od.startCount, dome := if s.clock.domeValid then s.clock.dome else 0
                      code := code, arg := arg, crc := 0, writes := old.writes + 1 }
  if l.logStopped then s
  else { s with lantern := { l with
      log := Mem.put l.log l.logNext { e with crc := crc32c e.bytes }
      logSeq := l.logSeq + 1, logNext := if l.logNext = 64 then 1 else l.logNext + 1
      logStopped := decide (1000000 ≤ old.writes + 1) } }

/-! ### Fences (R223 to R225, R391) -/

/-- A region is offered to contexts: it is not fenced, and none of its channels must retrain (R225, Table 16.5). -/
def offered (r : Region) : Bool := !r.fenced && r.retrain.isEmpty

/-- The regions offered, as PLC_INSERVICE shows them. -/
def State.offeredMask (s : State) : Nat :=
  sumNat ((List.range 32).map (fun p => if offered (s.region p) then 2 ^ p else 0))

/-- The number of regions offered (PLC_STATUS). -/
def State.offeredCount (s : State) : Nat := ((List.range 32).filter (fun p => offered (s.region p))).length

def pfOf (h : Nat) : FnRef := ⟨Fin.ofNat 2 h, 0⟩

/-- SERVICE_CHANGE to both PFs (Table 13.14). -/
def State.serviceChange (s : State) : State :=
  let e : EventRec := { code := 5, handle := 0xFF, ctx := 0xFF, dome := s.clock.dome, error := 0, lease := 0, mask := s.inService.toNat
                        cc := 0, padded := false }
  (s.addEvent (pfOf 0) e).addEvent (pfOf 1) e

/-- Show the regions offered; a change is logged and reported to both hosts (R225, R393). Before stage S5 the registers
keep their reset values. -/
def State.refreshService (s : State) : State :=
  let m := s.offeredMask
  if m = s.inService.toNat ∨ s.clock.stage < 5 then s
  else ({ s with inService := BitVec.ofNat 32 m, plcRegions := s.offeredCount }.logEvent 3 m).serviceChange

/-- A region fence takes effect (R223, R225); a lease on the region is damaged (R202). -/
def State.fenceRegionNow (s : State) (p : Nat) : State :=
  if (s.region p).fenced then s
  else ((s.onRegion p (fun r => { r with fenced := true })).damageLease p).refreshService

/-- A cell fence takes effect: the spare stands in, or at a second fenced position the region leaves service (R13, R202,
R219, R223). -/
def State.fenceCellNow (s : State) (c : PhysCell) : State :=
  let p := c.region.val
  let r := s.region p
  let f := Mem.rd 0 r.spares c.block.val
  if f = c.pos.val + 1 then s
  else if f = 0 then
    (s.setRegion p { r with
      spares := Mem.wr 0 r.spares c.block.val (c.pos.val + 1)
      kept := r.kept.filter (fun e => decide (e.1 / 1024 ≠ physKey c))
      scrubErr := r.scrubErr.filter (fun e => decide (e.1 / 65536 ≠ physKey c)) }).damageLease p
  else s.fenceRegionNow p

/-- The target of a fence: a cell, or a region. -/
def State.fenceNow (s : State) (p : Nat) (c : Option PhysCell) : State :=
  match c with
  | some c => s.fenceCellNow c
  | none => s.fenceRegionNow p

/-- A fence record of a cell (R391). -/
def fenceRecord (c : PhysCell) (cause : Nat) : Word :=
  packFields 32 [(31, 31, 1), (28, 24, c.region.val), (23, 19, c.block.val), (18, 14, c.pos.val), (7, 0, cause)]

/-- The record names this cell, whatever its cause. -/
def sameCell (w : Word) (c : PhysCell) : Bool := decide (w.toNat / 256 = (fenceRecord c 0).toNat / 256)

/-- The fence records with one more cell or region (R391); a target that has a record keeps it. -/
def recordFence (od : OdVals) (p : Nat) (c : Option PhysCell) (cause : Nat) : OdVals :=
  let region : OdVals :=
    if bit od.regionFences p then od
    else { od with regionFences := od.regionFences ||| BitVec.ofNat 32 (2 ^ p), regionCause := Mem.wr 0 od.regionCause p cause }
  match c with
  | none => region
  | some c =>
    if od.cellFences.any (fun w => sameCell w c) then od
    else if 255 ≤ od.cellFences.length then region
    else { od with cellFences := od.cellFences ++ [fenceRecord c cause] }

/-- A fence of a region that no context owns takes effect now. LOADs that have been accepted and not yet placed keep the
service map of their acceptance, and with it the fence and the leased rows that it takes (Table 9.3). -/
def State.fenceFree (s : State) (p : Nat) (c : Option PhysCell) (cause : Nat) : State :=
  let r := s.region p
  let of (k size : Nat) : Bool := c.any (fun c => decide (k / size = physKey c))
  let s := { s with ctxs := s.ctxs.map (fun (e : Nat × Ctx) =>
    if e.2.state = CtxState.loading then
      (e.1, { e.2 with
        fences := e.2.fences ++ [(p, c, cause)]
        keptRows := e.2.keptRows ++ ((r.kept.filter (fun (q : Nat × Row) => of q.1 1024)).map (fun q => (p, q)))
        keptErrs := e.2.keptErrs ++ ((r.scrubErr.filter (fun (q : Nat × WordErr) => of q.1 65536)).map (fun q => (p, q))) })
    else e) }
  s.fenceNow p c

/-- A persistent fence of a cell or a region: it is recorded and logged at once, and takes effect now, or when the region
leaves its context (R223, R224, R388, R391). -/
def State.fence (s : State) (p : Nat) (c : Option PhysCell) (cause : Nat) : State :=
  let od := recordFence s.lantern.od p c cause
  let full := match c with
    | some _ => decide (od.regionFences ≠ s.lantern.od.regionFences)
    | none => true
  let target := if full then none else c
  if od = s.lantern.od then s else
  let s := if s.lantern.worn 5 then s else { s with lantern := s.lantern.store 5 od }
  let s := s.logEvent 1 (match target with
    | some c => (fenceRecord c cause).toNat
    | none => (packFields 32 [(31, 31, 1), (28, 24, p), (7, 0, cause)]).toNat)
  match (s.region p).owner with
  | some _ => s.onRegion p (fun r => { r with pendingFences := r.pendingFences ++ [(target, cause)] })
  | none => s.fenceFree p target cause

/-! ### Regions that leave a context (R201, R213, R223) -/

/-- The leased rows of a logical region's cells stay at their physical positions, and every other row becomes 0
(R201, R202). -/
def State.keepRows (s : State) (n i p : Nat) : State :=
  let x := s.ctx n
  let mine (e : Nat × Cell) : Bool := decide (e.1 / 16384 = n) && decide (regionOf e.2.id = i)
  let r := (s.cells.filter mine).foldl (fun (r : Region) e =>
    let k := physKey (s.physCell x e.2.id)
    { r with
      kept := (e.2.spad.rows.filter (fun q => s.leasedRow p q.1)).foldl (fun m q => Mem.put m (1024 * k + q.1) q.2) r.kept
      scrubErr := (e.2.spad.errs.filter (fun q => s.leasedRow p (q.1 / 64))).foldl
        (fun m q => Mem.put m (65536 * k + q.1) q.2) r.scrubErr }) (s.region p)
  { s.setRegion p r with
    cells := s.cells.map (fun e => if mine e then (e.1, { e.2 with spad := { e.2.spad with rows := [], errs := [] } }) else e) }

/-- The HBM_ registers of a physical region (Tables 8.17 to 8.22). -/
def hbmRegs (r : Region) : RegionRegs :=
  let debt := sumNat (r.debt.map (·.2))
  { status := packFields 32 [(4, 4, b01 r.clearing), (3, 3, b01 r.ue), (2, 2, b01 r.ce), (1, 1, b01 (decide (debt ≠ 0))),
      (0, 0, b01 r.owner.isSome)]
    chmap := r.chmap.setWidth 32, bankxor := r.bankxor
    ecc := packFields 32 [(31, 16, r.ceCount), (15, 0, r.ueCount)]
    delay := packFields 32 [(31, 16, r.delayed), (15, 0, debt)], uelog := r.uelog }

/-- The windows of context `n` keep the values that their registers hold now: the HBM_ registers of its regions, SPAD_LEASE,
and the bucket slots in flight. What a kill has kept at its receipt stays (R338, R362). -/
def State.keepWindows (s : State) (n : Nat) : State :=
  let x := s.ctx n
  let s := (x.regions.zipIdx).foldl (fun (s : State) e =>
    if (Mem.find s.windows (32 * n + e.2)).isSome then s
    else { s with windows := Mem.put s.windows (32 * n + e.2) (hbmRegs (s.region e.1)) }) s
  if x.finalAfr.isSome then s
  else s.setCtx n { x with
    finalAfr := some (bktsInFlight (s.cellsOf n)), finalLease := x.regions.zipIdx.map (fun e => (e.2, leaseWord s e.1)) }

/-- Region `p` leaves the context that owns it: it enters CLEARING, and pending fences take effect (R213, R223, Table
9.3). -/
def State.leaveRegion (s : State) (n i p : Nat) : State :=
  let s := s.keepRows n i p
  let wait := (s.region p).pendingFences
  let s := s.onRegion p (fun r => { r with owner := none, clearing := true, pendingFences := [], placed := [] })
  wait.foldl (fun s e => s.fenceFree p e.1 e.2) s

/-- Every region of context `n` leaves it. -/
def State.leaveRegions (s : State) (n : Nat) : State :=
  ((s.ctx n).regions.zipIdx).foldl (fun s e =>
    if (s.region e.1).owner = some n then s.leaveRegion n e.2 e.1 else s) (s.keepWindows n)

/-- The module's record of the end of context `n` (Table 14.7). -/
def State.recordEnd (s : State) (n code : Nat) : State :=
  { s with ended := s.ended ++ [⟨n, (s.ctx n).image.tag, s.clock.dome, code⟩] }

/-- A lease ends: the leased rows of its free regions are zero-filled, and their HBM is cleared (R201). -/
def State.endLease (s : State) (k : Nat) : State :=
  match Mem.find s.leases k with
  | none => s
  | some l =>
    let s := { s with leases := Mem.del s.leases k }
    l.regions.foldl (fun s e => s.onRegion e.1 (fun r =>
      match r.owner with
      | some _ => r
      | none => { r with kept := [], scrubErr := [], clearing := true })) s

/-- A session ends, and with it its leases (R201, R335). -/
def State.endSession (s : State) (k : Nat) : State :=
  let s := { s with sessions := Mem.del s.sessions k }
  (s.leases.filter (fun e => decide (e.2.session = k))).foldl (fun s e => s.endLease e.1) s

end Sys2Proof.Machine
end

