-- ==== Sys2Proof/Machine/Kill.lean ====
section
/-!
DEFINITION. Sys2Proof/Machine/Kill.lean: the life of a context after its launch: start (R22, R44), completion (R349),
kills (R359 to R375), deadlock detection and dumps (R259 to R262).
-/
namespace Sys2Proof.Machine

/-! ### Starting a kill (R359, R360) -/

/-- Record an error found before K (R375). -/
def logError (x : Ctx) (e : ErrRec) : Ctx :=
  { x with
    errors := satInc 0xFFFF x.errors
    errlog := if x.errlog.length < 4 then x.errlog ++ [e] else x.errlog }

/-- K, and whether it is a hold cycle (R360). -/
def killCycle (x : Ctx) : Nat × Bool :=
  if x.state = .running then
    if x.hold.held then (x.cc, true)
    else if x.hold.pending ∧ x.hold.cycle ≤ x.cc + 24 then (x.hold.cycle, true)
    else (x.cc + 24, false)
  else (0, x.hold.held)

/-- Holds at the start of a kill: requests are discarded, and END of the entry in force records the start. A hold that would
begin after K does not take place, and stays pending in CTX_HOLD_STAT (R362, Table 2.9, Table 14.3). -/
def killHold (x : Ctx) (dome : Nat) : Hold :=
  let h : Hold := { x.hold with reqs := [] }
  if h.held then
    let i := (h.logNext + 15) % 16
    { h with log := Mem.put h.log i { Mem.rd ⟨0, 0, 0, 0, 0⟩ h.log i with stop := dome } }
  else h

/-- Whether a kill of this context can start now (Table 13.11). -/
def killable (x : Ctx) : Bool :=
  decide (x.state = .loading) || decide (x.state = .loaded) || decide (x.state = .armed) || decide (x.state = .running)

/-- The root accepts a cause: the kill of context `n` starts, or the cause joins one in progress (R359, R360, R373).
`notice` is the port and the dome count of a KILL_NOTICE. A load in progress and dumps finish with KILLED. -/
def State.beginKill (s : State) (n source : Nat) (e : ErrRec) (notice : Option (Nat × Nat)) : State :=
  let x := s.ctx n
  if killable x ∧ !s.unrecoverable then
    let k := killCycle x
    let dome := s.clock.dome
    let s := if x.state = .loading then s.finishOn n 0x10 0x000A 0 else s
    let s := s.finishOn n 0x15 0x000A 0
    s.setCtx n { logError x e with
      state := .killing, hold := killHold x dome, dumps := [], got := none
      kill := some { startDome := dome, startClk := s.clock.clk, k := k.1, code := e.code, source := source, noexec := decide (k.1 = 0)
                     duringHold := k.2, slowest := s.clock.khz, fromPort := notice.map (·.1)
                     notice := match notice with | some q => q.2 | none => dome } }
  else s

/-- An error of a context whose kill has started joins it, and is recorded where it was found before K, at which the cells
receive the kill (R360, R373, R375). -/
def joinKill (x : Ctx) (e : ErrRec) : Ctx :=
  if x.state = .killing ∧ x.kill.any (fun k => !k.received) then logError x e else x

/-- A cause that the root accepts at once: it starts the kill, or joins one in progress (R359, R373). -/
def State.killOrJoin (s : State) (n source : Nat) (e : ErrRec) : State :=
  if killable (s.ctx n) then s.beginKill n source e none else s.onCtx n (fun x => joinKill x e)

/-- KILL_START: the root accepts the first report about the context that has reached it (R359, R373, R375). -/
def killStart (s : State) (n : Nat) : State :=
  let x := s.ctx n
  match x.kills.find? (killDue s.clock.clk) with
  | none => s
  | some r =>
    let x := { x with kills := x.kills.erase r }
    (s.setCtx n x).killOrJoin n r.source r.err

def execKillStart (n : Fin 32) (s : State) : Host.Outcome State Fault Refusal := .next (killStart s n.val)

/-! ### The kill's receipt and end (R360 to R365, R375) -/

/-- The command of an HBM write has gone to its channel before K; the rows of one unit share it (Table 14.3). -/
def writeSent (x : Ctx) (k : Nat) (h : HbmWrite) : Bool :=
  x.hwrites.any (fun o => decide (o.cell = h.cell) && decide (o.mover = h.mover) && decide (o.d = h.d) &&
    decide (o.addr / 2048 = h.addr / 2048) && o.cmd.any (fun t => decide (t < k)))

/-- Send a KILL_NOTICE on every port of a context but the one it came from (R365). -/
def State.sendKillNotice (s : State) (x : Ctx) (k : Kill) : State :=
  ((tagPorts x).filter (fun p => decide (some p ≠ k.fromPort))).foldl
    (fun s p => s.onPort p (fun q => { q with ctrl := q.ctrl ++ [killNoticeFlit x.image.tag k.notice] })) s

/-- Take a context's traffic off the module (R294, Table 14.3): the ports, the landing buffers, and what travels. -/
def State.clearTraffic (s : State) (n : Nat) : State :=
  let x := s.ctx n
  let s := if x.passedTag then s.onPorts (fun q => dropTag q x.image.tag) else s
  let s := x.instances.foldl (fun s i => s.freeLanding i.port (instanceFlits i)) s
  { s.setCtx n { x with
      instances := [], landings := [], arrivals := [], byteLands := [], exps := [], hreads := [], hwrites := []
      linkRows := [], vacs := [], kills := [], waiting := [] } with transit := s.transit.filter (fun l => decide (l.of ≠ n)) }

/-- Residue mismatches in what the abort of a cell meets: banks and superaccumulators with additions in flight, sums of
reductions, and rows of AFRADD (R101, R314, Table 14.6). -/
def abortErrors (x : Ctx) (dome : Nat) (cell : Cell) : List ErrRec :=
  ((x.landings.filter (fun l => decide (l.cell = cell.id))).flatMap (fun l => l.checks.filter (fun k => k.bad l.data))).map
    (fun k => cellErr x cell dome 0x0020 3 k.lane) ++
  (tensorErrors x cell dome).filter (fun e => cell.tens.adds.any (fun a => decide (a.bank = e.detail / 64))) ++
  (xaccErrors x cell dome).filter (fun e => cell.vec.xadds.any (fun a => decide (a.x = e.detail))) ++
  (cell.vec.nodes.filter NodeSum.bad).map (fun n => cellErr x cell dome 0x0020 3 n.lane)

/-- The host writes of a cell's streams that have been issued and have not left: they reach the port before CTX_FAILED is
written, and none is issued any more (R343, R364). -/
def hostWrites (n : Nat) (cell : Cell) : List Out :=
  (cell.strm.streams ++ cell.strm.orphans).flatMap (fun e =>
    (e.2.outstanding.filter (fun o => decide (dDkind e.2.desc = 6) && decide (dSkind e.2.desc = 1) && decide (o.stage = 0) &&
      decide (0 ≤ o.dst) && !o.stuck)).map (fun o => .hostWrite n o.addr (rowBytes e.2.desc) o.data))

/-- KILL_RECEIPT: every cell has stopped; nothing of the context takes effect any more (R360, R361, R364, R365). What the
abort finds is reported for fencing, and is no second cause (Table 14.6). The abort takes no time: R361 gives it at most 64
cycles (DESIGN CHOICE, log entry 78). -/
def killReceipt (s : State) (n : Nat) : State :=
  let x := s.ctx n
  match x.kill with
  | none => s
  | some k =>
    if x.state = .killing ∧ !s.unrecoverable ∧ !k.received ∧ k.startClk + 24 ≤ s.clock.clk then
      let s := s.keepWindows n
      let x := s.ctx n
      let s := { s with reports := s.reports ++ ((s.cellsOf n).flatMap (abortErrors x s.clock.dome)).filterMap (s.fenceOf x) }
      let s := ((sortBy (·.due) x.hwrites).filter (writeSent x k.k)).foldl (fun s h => hbmPoke s x h.addr h.len h.data) s
      let s := s.emitOut ((s.cellsOf n).flatMap (hostWrites n))
      let x := x.kills.foldl (fun x r => joinKill x r.err) x
      let free := (s.cellsOf n).any (fun c => c.ctl.free)
      let k := { k with received := true, gotClk := s.clock.clk, freeAny := free }
      let s := (s.setCtx n { x with kill := some k }).clearTraffic n
      let s := s.onCells n (fun c => { c with ctl := { c.ctl with live := false } })
      if x.passedTag then s.sendKillNotice x k else s
    else s

def execKillReceipt (n : Fin 32) (s : State) : Host.Outcome State Fault Refusal := .next (killReceipt s n.val)

/-- KILL_END: the abort, the zero-fill and the drains are over; regions, slot masks and routes are released, and the
context is FAILED (R361, R362, R370, R201). -/
def killEnd (s : State) (n : Nat) : State :=
  let x := s.ctx n
  match x.kill with
  | none => s
  | some k =>
    if x.state = .killing ∧ !s.unrecoverable ∧ k.received ∧ k.gotClk + 704 ≤ s.clock.clk then
      let s := s.leaveRegions n
      let s := s.onCtx n (fun x => { x with
        state := .failed, error := k.code, slots := [], routes := [], expects := []
        kill := some { k with stopDome := s.clock.dome } })
      ((s.recordEnd n k.code).ctxEvent n 2 k.code).finishOn n 0x13 0 0
    else s

def execKillEnd (n : Fin 32) (s : State) : Host.Outcome State Fault Refusal := .next (killEnd s n.val)

/-- The time a kill may take, in ns: 10 µs and 704 cycles of the lowest clock in force during it (R371). -/
def killBound (k : Kill) : Nat := 10000 + (704 * 1000000 + (k.slowest - 1)) / k.slowest

/-- Every function that the module knows, the PFs included. -/
def State.functions (s : State) : List FnRef :=
  ((0 :: 16 :: s.fns.map (·.1)).eraseDups).map (fun k => ⟨Fin.ofNat 2 (k / 16), Fin.ofNat 16 k⟩)

/-- The functions that are enabled: the PFs, and the VFs that SR-IOV has enabled (Table 13.1). -/
def State.enabledFns (s : State) : List FnRef :=
  [0, 1].flatMap (fun h =>
    let c := (s.fn ⟨h, 0⟩).cfg
    (List.range (if c.vfOn then min c.numVfs.toNat 15 + 1 else 1)).map (fun k => ⟨h, Fin.ofNat 16 k⟩))

/-- The module enters UNRECOVERABLE (R333, R355, R372). -/
def State.enterUnrecoverable (s : State) : State :=
  if s.unrecoverable then s
  else
    let s := { s with unrecoverable := true }.logEvent 4 0
    let s := s.ctxs.foldl (fun s e =>
      if e.2.passedTag ∧ (!e.2.slots.isEmpty ∨ !e.2.routes.isEmpty) then
        (tagPorts e.2).foldl (fun s p => s.onPort p (fun q =>
          { q with ctrl := q.ctrl ++ [killNoticeFlit e.2.image.tag s.clock.dome] })) s
      else s) s
    let s := s.onPorts dropRest
    let s := s.emitOut (s.enabledFns.map .aer)
    s.functions.foldl (fun s f =>
      let s := if (s.fn f).cplqOn then s.addEvent f
        { code := 6, handle := 0xFF, ctx := 0xFF, dome := s.clock.dome, error := 0, lease := 0, mask := 0, cc := 0, padded := false } else s
      ((s.fn f).cmds.filter (·.accepted)).foldl (fun s c => s.finish f c.seq 0x0021 (s.recordCtx f c) 0) s) s

/-- KILL_TIMER: a kill that has not reached FAILED in time makes the module UNRECOVERABLE (R371). -/
def execKillTimer (n : Fin 32) (s : State) : Host.Outcome State Fault Refusal :=
  .next (let x := s.ctx n.val
    match x.kill with
    | none => s
    | some k => if x.state = .killing ∧ k.startDome + killBound k ≤ s.clock.dome then s.enterUnrecoverable else s)

/-! ### Start and completion (R22, R44, R349) -/

/-- The core clock edge of this cycle comes after dome count `t` (R22). -/
def Clocks.after (c : Clocks) (t : Nat) : Bool := decide (t < c.dome) || (decide (t = c.dome) && decide (c.domeAcc ≠ 0))

/-- CONTEXT_START: at the first edge after L + 320 ns the context enters RUNNING and executes cycle 0, or is held there, at
once no longer where the release lies 32 cycles back (R22, R44). -/
def contextStart (s : State) (n : Nat) : State :=
  let x := s.ctx n
  if x.state = .armed ∧ s.clock.after (x.launch + 320) ∧ !s.unrecoverable then
    let s := freeze s n
    let x := { s.ctx n with state := .running, cc := 0 }
    if x.hold.held then
      let s := s.setCtx n { x with fresh := true }
      resumeHold s n
    else openCtx (s.setCtx n x) n
  else s

def execContextStart (n : Fin 32) (s : State) : Host.Outcome State Fault Refusal := .next (contextStart s n.val)

/-- Nothing of a cell is under way that lands later, its receive stage apart. -/
def cellStill (c : Cell) : Bool :=
  c.spad.mop.isNone && c.strm.streams.isEmpty && c.strm.orphans.isEmpty && c.sync.looseRows.isEmpty && c.sync.consumes.isEmpty

/-- Nothing of a cell is under way that lands later. -/
def cellIdle (c : Cell) : Bool := cellStill c && c.vec.ops.isEmpty && c.sync.received.isEmpty

/-- Nothing of a cell is under way that counts against quiet: no FILL or COPY, no AFR instruction that is still to land rows, no
loose row outstanding, and no scheduled stream but one whose rows a free-running section loses (R176, R179, R259). -/
def cellQuiet (x : Ctx) (c : Cell) : Bool :=
  c.spad.mop.isNone && c.strm.orphans.isEmpty && c.sync.looseRows.isEmpty && c.sync.consumes.isEmpty &&
  c.strm.streams.all (fun e =>
    if dLoose e.2.desc then e.2.outstanding.isEmpty && e.2.packs.isEmpty
    else inSection x c && !ownPair e.2.desc && e.2.packs.isEmpty) &&
  (cellFrozen x c || c.vec.ops.all (fun o => match o with | .afradd .. => false | .afrfin .. => false | _ => true))

/-- No port holds a scheduled flit that is to land here; a VACANT flit counts where it carries an arrival (R349). -/
def schedStill (s : State) (n : Nat) : Bool :=
  (List.range 16).all (fun p => (s.port p).rx.all (fun f =>
    !(decide (f.cls = 2) && decide (f.ctx = (s.ctx n).image.tag) && decide (f.hop = 0) && (decide (f.mtype ≠ 1) || bit f.arg 6))))

/-- No scheduled landing, arrival, barrier release or HBM command of the context is due later, VACANT instances apart (R259,
R349). -/
def nothingDue (x : Ctx) : Bool :=
  x.instances.all (fun i => decide (i.mtype = 1)) &&
  x.landings.isEmpty && x.arrivals.isEmpty && x.byteLands.isEmpty && x.exps.isEmpty && x.hreads.isEmpty && x.hwrites.isEmpty &&
  x.linkRows.isEmpty && x.vacs.isEmpty && x.bars.all (fun i => i.due.isEmpty)

/-- A cell of the context counts as waiting under R250. -/
def cellNacked (s : State) (n : Nat) (id : CellId) : Bool := (s.cell? ⟨Fin.ofNat 32 n, id⟩).any nackWaits

/-- A message for a receive queue would be refused now (R251). -/
def refusedNow (s : State) (n : Nat) (id : CellId) (q : Bool) (k : Nat) : Bool :=
  (s.cell? ⟨Fin.ofNat 32 n, id⟩).any (fun c =>
    let r := (acceptMessage (queueAt c q) k 0 ⟨0, false, 0⟩).2.1
    decide (r = 1) || decide (r = 2))

/-- A flit of a send of a cell that counts as waiting under R250, or of the result of one. The module knows the state of its
own cells only: a message from another module is one where its queue refuses it, a result where it is FULL or TOO_LONG
(DESIGN CHOICE, log entry 79). -/
def idleSend (s : State) (n : Nat) (out : Bool) (f : Flit) : Bool :=
  if f.mtype = 0x05 then
    (if out then !bit f.arg 33 && cellNacked s n (BitVec.ofNat 14 (fld f.arg 47 34))
     else !bit f.arg 33 && refusedNow s n (BitVec.ofNat 14 (fld f.arg 31 18)) (bit f.arg 17) (fld f.arg 11 8 + 1))
  else if f.mtype = 0x07 then out && cellNacked s n (BitVec.ofNat 14 (fld f.arg 47 34))
  else if f.mtype = 0x06 then
    (if out then decide (fld f.arg 17 16 = 1) || decide (fld f.arg 17 16 = 2) else cellNacked s n (BitVec.ofNat 14 (fld f.arg 31 18)))
  else false

/-- Loose flits of context `n` that port `p` holds (R259); those of sends of R250 do not count unless `strict`. -/
def portHolds (s : State) (n p : Nat) (strict : Bool) : Bool :=
  let q := s.port p
  let tag := (s.ctx n).image.tag
  let mine (out : Bool) (f : Flit) : Bool :=
    decide (f.cls = 3) && decide (f.ctx = tag) && decide (f.mtype ≠ 0x0B) && (strict || !idleSend s n out f)
  q.current.any (mine true) || q.replay.any (mine true) || q.rx.any (mine false) || q.parts.any (mine false) ||
  q.loose.any (fun e => decide (e.tag = tag) && e.msgs.any (fun m => m.any (mine true)))

/-- A send or a result of a cell that counts as waiting under R250 is no activity. `m` is staged in the receive stage of cell
`id`, or travels to it. -/
def idleMessage (s : State) (n : Nat) (id : CellId) (m : StagedMsg) : Bool :=
  match m.reply with
  | .cell n id _ => cellNacked s n id
  | .link .. => !m.src.comb && refusedNow s n id m.q m.rows.length
  | _ => false

def idleContrib (s : State) (r : Reply) : Bool := match r with | .cell n id _ => cellNacked s n id | _ => false

def noActivity (s : State) (l : Loose) : Bool :=
  match l with
  | .qmsg n id m => idleMessage s n id m
  | .contrib _ _ _ _ _ reply => idleContrib s reply
  | .result goal _ => idleContrib s goal
  | _ => false

/-- Nothing loose of the context is in transit, staged or PENDING (R259, R349). -/
def looseStill (s : State) (n : Nat) (strict : Bool) : Bool :=
  let x := s.ctx n
  s.transit.all (fun l => decide (l.of ≠ n) || (!strict && noActivity s l)) && x.waiting.isEmpty &&
  (List.range 16).all (fun p => !portHolds s n p strict) &&
  x.comb.all (fun r => r.2.stage.all (fun m => !strict && idleContrib s m.reply) && r.2.qs.all (fun u => !u.2.pending))

/-- The context has completed (R349). -/
def completes (s : State) (n : Nat) : Bool :=
  let x := s.ctx n
  decide (x.state = .running) && nothingDue x && schedStill s n && looseStill s n true &&
  (s.cellsOf n).all (fun c => c.ctl.halted && cellIdle c)

/-- A cause of the whole module (R44). -/
def moduleWide (c : HoldCause) : Bool := decide (c = .thermal) || decide (c = .power)

/-- What goes on covering a context that completes: THERMAL and POWER alone, which stop its schedule-cycle count (R44,
R349). -/
def doneHold (h : Hold) : Hold :=
  let opened := h.opened.filter (fun e => moduleWide e.1)
  { h with
    held := h.held && !opened.isEmpty, pending := h.pending && !opened.isEmpty, opened := opened
    joined := h.joined.filter (fun e => moduleWide e.1), reqs := h.reqs.filter (fun r => moduleWide r.cause) }

/-- CONTEXT_COMPLETE: the context enters DONE and its regions leave it; a hold of it ends (R349). -/
def contextComplete (s : State) (n : Nat) : State :=
  if completes s n ∧ !s.unrecoverable then
    let s := s.finishOn n 0x15 0x000A 0
    let gone := (s.ctx n).instances
    let now := schedCc s (s.ctx n)
    let s := gone.foldl (fun s i => s.freeLanding i.port (instanceFlits i)) s
    let s := (s.leaveRegions n).recordEnd n 0
    let s := s.onCtx n (fun x =>
      let h := doneHold x.hold
      { x with
        state := .done, finalCc := some (now, x.cc), finalHold := some { endHold x.hold s.clock.dome with reqs := [] }, hold := h
        fresh := x.fresh && h.held, dumps := [], kills := [], instances := [] })
    s.ctxEvent n 1 0
  else s

def execContextComplete (n : Fin 32) (s : State) : Host.Outcome State Fault Refusal := .next (contextComplete s n.val)

/-! ### Deadlock detection (R259 to R261) -/

/-- The conditions of R259 hold in this cycle. A send of a cell that counts as waiting under R250 is in transit in a receive
stage too, until it is accepted there. -/
def quietNow (s : State) (n : Nat) : Bool :=
  let x := s.ctx n
  let ovf := overrunOnly x.hold
  decide (x.state = .running) && ((!x.hold.held && !x.hold.pending) || ovf) && nothingDue x && schedStill s n &&
  looseStill s n false &&
  (s.cellsOf n).all (fun c =>
    cellQuiet x c && c.sync.received.all (fun m => !m.accepted && idleMessage s n c.id m) &&
    (c.ctl.halted || c.ctl.waiting.isSome || c.ctl.rejoining.isSome || nackWaits c || (x.hold.held && ovf && !c.ctl.free)))

/-- Start a dump (R262). -/
def startDump (x : Ctx) (cause : Nat) : Ctx := { x with dumps := x.dumps ++ [cause] }

/-- The modules of the sync group within the node, by position (R260). -/
def groupModules (x : Ctx) : List Nat := (List.range 8).filter (fun k => decide (x.image.nodeMask / 2 ^ k % 2 = 1))

/-- The node agrees: two rounds of every module report quiet, and the counts match (R260). -/
def nodeAgrees (x : Ctx) : Bool :=
  let g := groupModules x
  let of (k : Nat) : Option Summary := x.quiet.rounds.find? (fun r => decide (r.pos = k))
  g.all (fun k => match of k with
    | some r => r.quiet && r.before && g.all (fun j => decide (j = k) || (match of j with
        | some o => decide (r.sent.getD j 0 = o.received.getD k 0)
        | none => false))
    | none => false)

/-- The node's agreement makes a dump with cause DEADLOCK, once (R261). -/
def judgeNode (x : Ctx) : Ctx :=
  if x.state = .running ∧ x.image.group = 1 ∧ nodeAgrees x ∧ !x.dumps.contains 0 then startDump x 0 else x

/-- QUIET_DETECTED: a context that has been quiet for QUIET_CC cycles is judged (R259 to R261). -/
def execQuietDetected (n : Fin 32) (s : State) : Host.Outcome State Fault Refusal :=
  .next (s.onCtx n.val (fun x =>
    if s.lantern.od.quietCc ≤ x.quiet.run ∧ !x.quiet.quiet then
      let x := { x with quiet := { x.quiet with quiet := true, since := s.clock.dome, dumped := false } }
      if x.image.group = 0 ∧ !x.dumps.contains 0 then startDump x 0 else x
    else x))

/-- Enter the summary of a module of the node. -/
def enterSummary (x : Ctx) (pos : Nat) (quiet : Bool) (sent received : List Nat) : Ctx :=
  let before := x.quiet.rounds.any (fun r => decide (r.pos = pos) && r.quiet)
  judgeNode { x with quiet := { x.quiet with
    rounds := x.quiet.rounds.filter (fun r => decide (r.pos ≠ pos)) ++ [⟨pos, quiet, before, sent, received⟩] } }

/-- Counts by node position of the partner: position `k` lies at node port (k - own - 1) mod 8 (R277). -/
def byPosition (own : Nat) (m : Mem Nat) : List Nat :=
  (List.range 8).map (fun k => if k = own then 0 else Mem.rd 0 m ((k + 7 - own) % 8))

/-- The payload of a SUMMARY: tag, quiet bit, and eight pairs of 64-bit counts (Table 11.7). -/
def summaryPayload (own : Nat) (x : Ctx) : BitVec 2048 :=
  BitVec.ofNat 2048 (x.image.tag.toNat + 2 ^ 16 * b01 x.quiet.quiet + 2 ^ 24 * sumNat (
    ((byPosition own x.quiet.sent).zip (byPosition own x.quiet.received)).zipIdx.map (fun e =>
      (e.1.1 % 2 ^ 64 + 2 ^ 64 * (e.1.2 % 2 ^ 64)) * 2 ^ (128 * e.2))))

/-- SUMMARY_TIMER: every SUMMARY_NS the module sends its summary to the other modules of the node (R260). -/
def execSummaryTimer (n : Fin 32) (s : State) : Host.Outcome State Fault Refusal :=
  .next (let x := s.ctx n.val
    if x.state = .running ∧ !s.unrecoverable ∧ x.image.group = 1 ∧ x.quiet.lastRound + s.lantern.od.summaryNs ≤ s.clock.dome then
      let own := s.ownAddress % 8
      let s := s.setCtx n.val (enterSummary { x with quiet := { x.quiet with lastRound := s.clock.dome } } own x.quiet.quiet
        (byPosition own x.quiet.sent) (byPosition own x.quiet.received))
      let f : Flit := { ctxFlit x 3 0x0B 0 0 0 (summaryPayload own x) with hop := 0 }
      ((groupModules x).filter (fun k => decide (k ≠ own))).foldl (fun s k =>
        s.onPort ((k + 15 - own) % 8) (fun q => enqueueLoose q x.image.tag [f])) s
    else s)

/-- QUIET_DUMP: beyond one node, a context that has been quiet for DUMP_MS is dumped once and continues (R262). -/
def execQuietDump (n : Fin 32) (s : State) : Host.Outcome State Fault Refusal :=
  .next (s.onCtx n.val (fun x =>
    if x.state = .running ∧ x.image.group = 2 ∧ x.quiet.quiet ∧ !x.quiet.dumped ∧
        x.quiet.since + 1000000 * s.lantern.od.dumpMs ≤ s.clock.dome then
      startDump { x with quiet := { x.quiet with dumped := true } } 1
    else x))

/-! ### Dumps (R262) -/

/-- The values of a dump, in the order of Table 10.4: the header, then for each cell its waits, signals, barriers and
queues, the 64 combining queues of each region with the rows in its stage, and for each port in use the counts of loose
messages. -/
def dumpValues (s : State) (n cause : Nat) : List Nat :=
  let x := s.ctx n
  let queue (u : Queue) : List Nat := [u.head, u.tail, u.used, u.accepted, u.popped] ++
    u.table.flatMap (fun e => [e.first, e.rows, e.tag.toNat, (sourceReg e.src).toNat, b01 e.marker, b01 e.visible])
  let cell (c : Cell) : List Nat :=
    (syncStatus c).toNat :: ((List.range 64).flatMap (fun k =>
      let g := sigAt c k
      [g.count, b01 (settled g), g.ann, g.land])) ++
    (List.range 8).map (barBits x c) ++ queue c.sync.queues[0] ++ queue c.sync.queues[1] ++
    [c.sync.nackrun, c.sync.stage.length, c.sync.sends.length, c.sync.acked, (cellStatus c).toNat]
  let region (r : CombRegion) : List Nat :=
    (List.range 64).flatMap (fun q =>
      let u := Mem.rd {} r.qs q
      [u.cfg.toNat, u.count, u.gen, b01 u.sat, b01 u.pending]) ++ [sumNat (r.stage.map (·.rows.length))]
  [x.image.tag.toNat, cause, s.clock.dome, schedCc s x, x.hold.count, x.hold.logNext, x.hold.causes.toNat, b01 x.hold.held,
      b01 x.hold.pending, b01 x.hold.notice] ++
    (s.cellsOf n).flatMap cell ++ (List.range x.regions.length).flatMap (fun r => region (Mem.rd {} x.comb r)) ++
    ((tagPorts x).filter (fun p => decide (p ≤ 14))).flatMap (fun p => [p, Mem.rd 0 x.quiet.sent p, Mem.rd 0 x.quiet.received p])

/-- Write one byte of a context's logical HBM. -/
def pokeByte (s : State) (x : Ctx) (a : Nat) (b : Byte) : State :=
  s.onRegion (x.regions.getD (hbmRegion a) 0) (fun r =>
    let k := hbmOffset a / 64
    let lo := 8 * (hbmOffset a % 64)
    { r with hbm := Mem.wr 0 r.hbm k (setFld (Mem.rd 0 r.hbm k) (lo + 7) lo b.toNat) })

/-- Write bytes into the logical HBM of a context, from an address on; bytes outside it are dropped. -/
def pokeBytes (s : State) (x : Ctx) (addr : Nat) : List Byte → State
  | [] => s
  | b :: l => pokeBytes (if hbmOk x addr 1 then pokeByte s x addr b else s) x (addr + 1) l

/-- DUMP_DONE: the oldest dump stands in both places. A dump of a deadlock ends the context; one that was commanded
finishes its command (R261, R262). -/
def dumpDone (s : State) (n : Nat) : State :=
  let x := s.ctx n
  match x.dumps with
  | [] => s
  | cause :: rest =>
    if x.state = .running ∧ !s.unrecoverable then
      let bytes := Config.dumpRecord (dumpValues s n cause)
      let s := pokeBytes s x x.image.dumpLaddr (bytes.take x.image.dumpLen)
      let s := (s.setCtx n { x with dumps := rest }).emitOut [.dumpHost n x.dumpAddr (bytes.take x.dumpLen)]
      match cause with
      | 0 => (s.ctxEvent n 3 0).beginKill n 4 { code := 0x0012, unit := 0, free := false, cell := 0, detail := 0, cc := x.cc
                                                dome := s.clock.dome } none
      | 1 => s.ctxEvent n 3 0
      | _ => s.finishOn n 0x15 0 0
    else s

def execDumpDone (n : Fin 32) (s : State) : Host.Outcome State Fault Refusal := .next (dumpDone s n.val)

end Sys2Proof.Machine
end

