-- ==== Sys2Proof/Machine/Host.lean ====
section
/-!
DEFINITION. Sys2Proof/Machine/Host.lean: the host interface: function registers and windows (R336 to R338, R357), rings
(R339 to R342), the mailbox (R345), acceptance of commands (R341, R344, R348, R355), and the commands other than LOAD
(R346).
-/
namespace Sys2Proof.Machine

/-! ### Rings and the mailbox (R339, R340, R345, R353) -/

def cfgErr (q : Fn) : Fn := { q with cfgErr := true }

/-- HOST_CMDQ_TAIL (R340). -/
def cmdqTail (q : Fn) (v : Word) : Fn :=
  let t := fld v 15 0
  if 2 ^ q.cmdqSize ≤ t then cfgErr q else { q with cmdqTail := t, fetchStop := false }

def execCmdqTailWrite (f : FnRef) (value : Word) (s : State) : Host.Outcome State Fault Refusal :=
  .next (s.onFn f (fun q => cmdqTail q value))

/-- HOST_CMDQ_CFG (R339). -/
def cmdqCfg (q : Fn) (v : Word) : Fn :=
  if q.cmdqOn then
    if q.cmdqOff || bit v 31 then cfgErr q else settleRings { q with cmdqOff := true }
  else
    let size := fld v 4 0
    if size < 4 ∨ 16 < size then cfgErr q
    else if bit v 31 then { q with cmdqSize := size, cmdqOn := true, cmdqHead := 0, cmdqTail := 0, fetchStop := false }
    else { q with cmdqSize := size }

def execCmdqCfgWrite (f : FnRef) (value : Word) (s : State) : Host.Outcome State Fault Refusal :=
  .next (s.onFn f (fun q => cmdqCfg q value))

/-- HOST_CPLQ_CFG (R339). -/
def cplqCfg (q : Fn) (v : Word) : Fn :=
  if q.cplqOn then
    if q.cplqOff || bit v 31 then cfgErr q else settleRings { q with cplqOff := true }
  else
    let size := fld v 4 0
    if size < 4 ∨ 16 < size ∨ (bit v 31 ∧ size < q.cmdqSize + 1) then cfgErr q
    else if bit v 31 then { q with cplqSize := size, cplqOn := true, cplqHead := 0, cplqTail := 0, phase := true }
    else { q with cplqSize := size }

def execCplqCfgWrite (f : FnRef) (value : Word) (s : State) : Host.Outcome State Fault Refusal :=
  .next (s.onFn f (fun q => cplqCfg q value))

/-- HOST_CPLQ_HEAD: the host has taken records (R342). -/
def execCplqHeadWrite (f : FnRef) (value : Word) (s : State) : Host.Outcome State Fault Refusal :=
  .next (s.onFn f (fun q => { q with cplqHead := fld value 15 0 }))

/-- MSIX_TIMER: COAL_US after the first record that has not been signalled (R353). -/
def execMsixTimer (f : FnRef) (s : State) : Host.Outcome State Fault Refusal :=
  .next (let q := s.fn f
    if q.intOn ∧ q.coalUs ≠ 0 ∧ q.unsignalled ≠ 0 ∧ q.firstUnsig + 1000 * q.coalUs ≤ s.clock.dome then
      (s.setFn f { q with unsignalled := 0 }).fireMsix f 0
    else s)

def addCmd (q : Fn) (raw : Codeword) (mbox : Bool) : Fn :=
  { q with cmds := q.cmds ++ [{ seq := q.nextSeq, raw := raw, mbox := mbox, accepted := false, acceptedAt := 0 }], nextSeq := q.nextSeq + 1 }

/-- A write to HOST_MBOX_GO (R345). -/
def mboxGo (q : Fn) (v : Word) : Fn :=
  if !bit v 0 then q
  else if q.cmds.any (·.mbox) then cfgErr q
  else addCmd { q with mboxRes := 0 } q.mboxCmd true

def execHostMboxGo (f : FnRef) (value : Word) (s : State) : Host.Outcome State Fault Refusal :=
  .next (s.onFn f (fun q => mboxGo q value))

/-- Commands are accepted from stage S11 on, and throughout a warm re-entry (R404, R410). -/
def commandsOpen (s : State) : Bool := decide (s.clock.stage = 11) || s.clock.warm

/-- The command ring has an entry to fetch, and the completion ring has room (R340). -/
def canFetch (q : Fn) : Bool :=
  let open_ := (q.cmds.filter (fun c => !c.mbox)).length
  q.cmdqOn && !q.cmdqOff && !q.fetchStop && decide (q.cmdqHead ≠ q.cmdqTail) && decide (open_ < 64) && decide (open_ + 1 ≤ cplRoom q)

/-- COMMAND_FETCH: the entry at HEAD, or a read that failed (R340). -/
def execCommandFetch (f : FnRef) (entry : Option Codeword) (s : State) : Host.Outcome State Fault Refusal :=
  .next (if commandsOpen s then
      s.onFn f (fun q =>
        if canFetch q then
          match entry with
          | none => { q with dmaErr := true, fetchStop := true }
          | some raw => addCmd { q with cmdqHead := (q.cmdqHead + 1) % 2 ^ q.cmdqSize } raw false
        else q)
    else s)

/-! ### Acceptance (R341, R344, R348, R355) -/

def knownOp (op : Nat) : Bool := decide (op ≤ 3) || (decide (0x10 ≤ op) && decide (op ≤ 0x17))

/-- The first byte after the parameters of an opcode, and the reserved bytes among them (Table 13.8). -/
def reservedBytes : Nat → List (Nat × Nat)
  | 0x02 => [(9, 63)]
  | 0x03 => [(11, 63)]
  | 0x10 => [(21, 23), (36, 63)]
  | 0x11 => [(9, 15), (32, 63)]
  | 0x12 => [(16, 63)]
  | 0x16 => [(32, 63)]
  | 0x17 => [(9, 63)]
  | _ => [(8, 63)]

/-- Parameters lie in their stated ranges (R344, Tables 8.4 and 13.8). -/
def parametersOk (c : Cmd) : Bool :=
  match cmdOp c with
  | 0x03 => decide (1 ≤ cmdPar c 8 8) && decide (cmdPar c 8 8 ≤ 15) && decide (cmdPar c 9 9 ≤ 8) && decide (cmdPar c 10 10 ≤ 32)
  | 0x10 => decide (cmdPar c 8 15 % 4096 = 0) && decide (cmdPar c 24 31 % 64 = 0)
  | 0x11 => decide (cmdPar c 8 8 ≤ 15)
  | 0x16 => decide (cmdPar c 12 13 + cmdPar c 14 15 ≤ 640) && decide (cmdPar c 16 23 % 16384 = 0) &&
      decide (cmdPar c 24 31 % 16384 = 0) && decide (cmdPar c 16 23 + cmdPar c 24 31 ≤ hbmBytes)
  | 0x17 => decide (1 ≤ cmdPar c 8 8) && decide (cmdPar c 8 8 ≤ 32)
  | _ => true

/-- BAD_COMMAND (R344). -/
def badCommand (f : FnRef) (c : Cmd) : Bool :=
  !knownOp (cmdOp c) || decide (cmdPar c 4 7 ≠ 0) || (reservedBytes (cmdOp c)).any (fun r => decide (cmdPar c r.1 r.2 ≠ 0)) ||
  (!namesHandle (cmdOp c) && decide (cmdHandle c ≠ 0xFF)) || !parametersOk c ||
  (decide (cmdOp c = 0x03) && decide (f.fn ≠ 0))

def State.handleState (s : State) (f : FnRef) (h : Nat) : CtxState :=
  match s.onHandle f h with
  | some n => (s.ctx n).state
  | none => .free

/-- Table 13.11. -/
def legalIn (op : Nat) (st : CtxState) : Bool :=
  match op with
  | 0x10 => decide (st = .free)
  | 0x11 => decide (st = .loaded) || decide (st = .armed) || decide (st = .running)
  | 0x12 => decide (st = .loaded)
  | 0x13 => decide (st = .loading) || decide (st = .loaded) || decide (st = .armed) || decide (st = .running) || decide (st = .killing)
  | 0x14 => decide (st = .loaded) || decide (st = .done) || decide (st = .failed)
  | 0x15 => decide (st = .running)
  | 0x16 => decide (st = .running)
  | _ => true

/-- No earlier command of the function that names the same handle is unfinished; KILL and commands without a handle do
not wait (R341). -/
def inTurn (q : Fn) (c : Cmd) : Bool :=
  !namesHandle (cmdOp c) || decide (cmdOp c = 0x13) ||
  q.cmds.all (fun o => decide (c.seq ≤ o.seq) || !namesHandle (cmdOp o) || decide (cmdHandle o ≠ cmdHandle c))

/-- COMMAND_ACCEPT: a command in its turn is refused with a status, or accepted (R341, R344, R348, R355). -/
def accept (s : State) (f : FnRef) (seq : Nat) : State :=
  let q := s.fn f
  match q.cmds.find? (fun c => decide (c.seq = seq)) with
  | none => s
  | some c =>
    if c.accepted || !commandsOpen s || !inTurn q c then s
    else
      let n := s.recordCtx f c
      if s.unrecoverable then s.finish f seq 0x0021 n 0
      else if badCommand f c then s.finish f seq 1 n 0
      else if namesHandle (cmdOp c) ∧ 7 < cmdHandle c then s.finish f seq 2 255 0
      else if namesHandle (cmdOp c) ∧ !legalIn (cmdOp c) (s.handleState f (cmdHandle c)) then s.finish f seq 3 n 0
      else { s.setFn f { q with cmds := q.cmds.map (fun o =>
          if o.seq = seq then
            { o with accepted := true, acceptedAt := s.clock.dome, acceptClk := s.clock.clk, acceptNum := s.accepts }
          else o) } with accepts := s.accepts + 1 }

def execCommandAccept (f : FnRef) (seq : Nat) (s : State) : Host.Outcome State Fault Refusal := .next (accept s f seq)

/-- Run an accepted command of an opcode, with its context number (255 for none). Its legality was checked at acceptance, and
is not checked again (R341). A command whose record waits for room has had its effect. -/
def State.withCmd (s : State) (f : FnRef) (seq op : Nat) (body : Cmd → Nat → State) : State :=
  match (s.fn f).cmds.find? (fun c => decide (c.seq = seq)) with
  | some c =>
    if c.accepted ∧ cmdOp c = op ∧ (s.fn f).records.all (fun e => decide (e.1 ≠ seq)) then
      let n := s.recordCtx f c
      if s.unrecoverable then s.finish f seq 0x0021 n 0 else body c n
    else s
  | none => s

/-! ### Commands (R335, R346) -/

/-- NOP finishes at once. -/
def execCommandNop (f : FnRef) (seq : Nat) (s : State) : Host.Outcome State Fault Refusal :=
  .next (s.withCmd f seq 0x00 (fun _ n => s.finish f seq 0 n 0))

/-- OPEN_SESSION: the lowest free number (R335). -/
def execOpenSession (f : FnRef) (seq : Nat) (s : State) : Host.Outcome State Fault Refusal :=
  .next (s.withCmd f seq 0x01 (fun _ n =>
    match (List.range 256).find? (fun k => decide (1 ≤ k) && (Mem.find s.sessions k).isNone) with
    | some k => { s with sessions := Mem.put s.sessions k f }.finish f seq 0 n k
    | none => s.finish f seq 0x000B n 0))

/-- States in which a context holds its session open (Table 13.8). -/
def sessionBusy (x : Ctx) : Bool :=
  decide (x.state = .loading) || decide (x.state = .loaded) || decide (x.state = .armed) || decide (x.state = .running) ||
  decide (x.state = .killing)

/-- CLOSE_SESSION: the session's leases are released (R201, R335). -/
def execCloseSession (f : FnRef) (seq : Nat) (s : State) : Host.Outcome State Fault Refusal :=
  .next (s.withCmd f seq 0x02 (fun c n =>
    let k := cmdPar c 8 8
    if Mem.find s.sessions k ≠ some f then s.finish f seq 4 n 0
    else if s.ctxs.any (fun e => decide (e.2.session = k) && sessionBusy e.2) then s.finish f seq 3 n 0
    else (s.endSession k).finish f seq 0 n 0))

/-- SET_VF_QUOTA applies to later loads (R335). -/
def execSetVfQuota (f : FnRef) (seq : Nat) (s : State) : Host.Outcome State Fault Refusal :=
  .next (s.withCmd f seq 0x03 (fun c n =>
    (s.onFn ⟨f.host, Fin.ofNat 16 (cmdPar c 8 8)⟩ (fun q =>
      { q with maxContexts := cmdPar c 9 9, maxRegions := cmdPar c 10 10 })).finish f seq 0 n 0))

/-- SET_HOST_WINDOW (Table 13.8). -/
def execSetHostWindow (f : FnRef) (seq : Nat) (s : State) : Host.Outcome State Fault Refusal :=
  .next (s.withCmd f seq 0x11 (fun c n =>
    let w := cmdPar c 8 8
    let addr := cmdPar c 16 23
    let size := cmdPar c 24 31
    if addr % 4096 ≠ 0 ∨ size % 4096 ≠ 0 ∨ 2 ^ 32 < size then s.finish f seq 8 n 0
    else
      (s.onCtx n (fun x => { x with hwin := if size = 0 then Mem.del x.hwin w else Mem.put x.hwin w (addr, size) })).finish
        f seq 0 n 0))

/-- LAUNCH arms the context, unless L lies less than 5,000 ns after the acceptance (R22, R23). THERMAL and POWER in force
cover an armed context too (R44). A kill that was accepted after it finds the context armed, and ends it before cycle 0
(Table 13.16). -/
def execLaunch (f : FnRef) (seq : Nat) (s : State) : Host.Outcome State Fault Refusal :=
  .next (s.withCmd f seq 0x12 (fun c n =>
    let l := cmdPar c 8 15
    if l < c.acceptedAt + 5000 then s.finish f seq 0x0020 n 0
    else
      let s := s.onCtx n (fun x =>
        let x := { x with state := if x.state = .loaded then .armed else x.state, launch := l, cc := 0, haz := { x.haz with active := x.haz.enable } }
        let x := if s.power.thermalHold then requestHold x s.clock.clk .thermal s.power.thermalSrc else x
        if s.power.supplyLow || s.power.overPower then requestHold x s.clock.clk .power 0 else x)
      s.finish f seq 0 n 0))

/-- The record of a kill by a host (Table 14.11). -/
def hostKillErr (s : State) (n code : Nat) (host kind : Nat) : ErrRec :=
  { code := code, unit := 11, free := false, cell := 0, detail := 2 * host + kind, cc := (s.ctx n).cc, dome := s.clock.dome }

/-- KILL starts a kill or joins one; it finishes when the context is FAILED. A context that has completed meanwhile stays
DONE (R348, Table 13.16). -/
def execKill (f : FnRef) (seq : Nat) (s : State) : Host.Outcome State Fault Refusal :=
  .next (s.withCmd f seq 0x13 (fun _ n =>
    if killable (s.ctx n) then s.beginKill n 0 (hostKillErr s n 1 f.host.val 0) none
    else if (s.ctx n).state = .killing then s
    else s.finish f seq 3 n 0))

/-- A write to HOST_KILL with GO (R348, Table 13.19). -/
def hostKillWrite (s : State) (f : FnRef) (v : Word) : State :=
  match s.onHandle f (fld v 2 0) with
  | some n =>
    if bit v 8 ∧ killable (s.ctx n) ∧ !s.unrecoverable then s.beginKill n 1 (hostKillErr s n 1 f.host.val 1) none else s
  | none => s

def execHostKill (f : FnRef) (value : Word) (s : State) : Host.Outcome State Fault Refusal :=
  .next (hostKillWrite s f value)

/-- A context's number, handle and windows end (R334, R338, R349). -/
def State.dropCtx (s : State) (n : Nat) : State :=
  let x := s.ctx n
  let s := s.onFn x.owner (fun q => { q with handles := Mem.del q.handles x.handle })
  { s with
    ctxs := Mem.del s.ctxs n, cells := s.cells.filter (fun e => decide (e.1 / 16384 ≠ n))
    windows := s.windows.filter (fun e => decide (e.1 / 32 ≠ n)) }

/-- RELEASE frees the handle; a LOADED context's regions leave it as at completion (R348, R349). Where a kill has begun
meanwhile, RELEASE waits for its end. -/
def execRelease (f : FnRef) (seq : Nat) (s : State) : Host.Outcome State Fault Refusal :=
  .next (s.withCmd f seq 0x14 (fun _ n =>
    if (s.ctx n).state = .killing then s
    else
      let s := if (s.ctx n).state = .loaded then (s.leaveRegions n).clearTraffic n else s.clearTraffic n
      (s.finish f seq 0 n 0).dropCtx n))

/-- DUMP: the dump of a running context begins (R262). A context that has left RUNNING meanwhile finishes it with KILLED
(Table 13.16). -/
def execDump (f : FnRef) (seq : Nat) (s : State) : Host.Outcome State Fault Refusal :=
  .next (s.withCmd f seq 0x15 (fun _ n =>
    if (s.ctx n).state = .running then s.onCtx n (fun x => startDump x 2) else s.finish f seq 0x000A n 0))

/-- LEASE_CREATE over regions of a running context (R200). -/
def execLeaseCreate (f : FnRef) (seq : Nat) (s : State) : Host.Outcome State Fault Refusal :=
  .next (s.withCmd f seq 0x16 (fun c n =>
    let x := s.ctx n
    let mask := cmdPar c 8 11
    let picked := (List.range 32).filter (fun i => decide (mask / 2 ^ i % 2 = 1))
    let regions := picked.map (fun i => (x.regions.getD i 32, i))
    if picked.any (fun i => decide (x.regions.length ≤ i)) ||
        regions.any (fun e => decide ((s.region e.1).owner ≠ some n) || (s.leaseOf e.1).isSome) ||
        decide (Mem.find s.sessions x.session ≠ some f) then s.finish f seq 7 n 0
    else match (List.range 33).find? (fun k => decide (1 ≤ k) && (Mem.find s.leases k).isNone) with
      | none => s.finish f seq 6 n 0
      | some k =>
        { s with leases := Mem.put s.leases k {
            session := x.session, regions := regions, spadBase := cmdPar c 12 13, spadRows := cmdPar c 14 15
            hbmBase := cmdPar c 16 23, hbmLen := cmdPar c 24 31, damaged := false } }.finish f seq 0 n k))

/-- LEASE_RELEASE: the leased rows and bytes are cleared (R201). -/
def execLeaseRelease (f : FnRef) (seq : Nat) (s : State) : Host.Outcome State Fault Refusal :=
  .next (s.withCmd f seq 0x17 (fun c n =>
    let k := cmdPar c 8 8
    match Mem.find s.leases k with
    | none => s.finish f seq 7 n 0
    | some l =>
      if Mem.find s.sessions l.session ≠ some f then s.finish f seq 7 n 0
      else if l.regions.any (fun e => match (s.region e.1).owner with
          | some m => decide ((s.ctx m).state = .loaded) || decide ((s.ctx m).state = .armed) || decide ((s.ctx m).state = .running) ||
              decide ((s.ctx m).state = .killing)
          | none => false) then s.finish f seq 3 n 0
      else (s.endLease k).finish f seq 0 n 0))

/-! ### Register writes (R6, R8, R336, R338) -/

/-- A write to a function register (Tables 13.17 to 13.19). -/
def writeFn (s : State) (f : FnRef) (off : Nat) (v : DWord) : State :=
  let w : Word := v.setWidth 32
  if off = 0x050 then hostKillWrite s f w
  else if off = 0x048 then
    (s.onFn f (fun q => { q with coalUs := fld v 31 16, coalN := fld v 15 8, intOn := bit v 0 })).signalNow f
  else s.onFn f (fun q =>
    if off = 0x000 then { q with
      wrIgnored := q.wrIgnored && !bit v 30, cfgErr := q.cfgErr && !bit v 29, dmaErr := q.dmaErr && !bit v 28
      evtOverflow := q.evtOverflow && !bit v 27 }
    else if off = 0x008 then (if q.cmdqOn then cfgErr q else { q with cmdqBase := v &&& 0xFFFFFFFFFFFFF000 })
    else if off = 0x010 then cmdqCfg q w
    else if off = 0x018 then cmdqTail q w
    else if off = 0x028 then (if q.cplqOn then cfgErr q else { q with cplqBase := v &&& 0xFFFFFFFFFFFFF000 })
    else if off = 0x030 then cplqCfg q w
    else if off = 0x040 then { q with cplqHead := fld v 15 0 }
    else if off = 0x058 then mboxGo q w
    else if 0x080 ≤ off ∧ off ≤ 0x0B8 ∧ off % 8 = 0 then
      { q with mboxCmd := setFld q.mboxCmd (8 * (off - 0x080) + 63) (8 * (off - 0x080)) v.toNat }
    else q)

/-- Messages that wait leave once nothing masks them (the rules of PCI Express, PRESUMED: log entry 73). -/
def State.sendPending (s : State) (f : FnRef) : State :=
  [0, 1].foldl (fun s k =>
    let q := s.fn f
    if bit q.msixPend k ∧ q.cfg.msixOn ∧ !q.cfg.msixFnMask ∧ !bit q.msixMask k then
      (s.setFn f { q with msixPend := q.msixPend &&& ~~~(BitVec.ofNat 2 (2 ^ k)) }).emitOut [.msix f k]
    else s) s

/-- A field of the configuration space takes a value. SR-IOV fields are a PF's (Table 13.1; log entry 73). -/
def setCfg (c : PcieCfg) (field : CfgField) (v : DWord) : PcieCfg :=
  match field with
  | .busMaster => { c with busMaster := bit v 0 }
  | .powerState => { c with d3hot := decide (fld v 1 0 = 3) }
  | .maxPayload => if fld v 2 0 ≤ 2 then { c with maxPayload := BitVec.ofNat 3 (fld v 2 0) } else c
  | .maxRead => if fld v 2 0 ≤ 5 then { c with maxRead := BitVec.ofNat 3 (fld v 2 0) } else c
  | .msixEnable => { c with msixOn := bit v 0 }
  | .msixFnMask => { c with msixFnMask := bit v 0 }
  | .vfEnable => { c with vfOn := bit v 0, vfWas := c.vfWas || bit v 0 }
  | .numVfs => if fld v 15 0 ≤ 15 then { c with numVfs := BitVec.ofNat 16 (fld v 15 0) } else c

/-- The quotas of the VFs of a port are 0 when SR-IOV is first enabled there (R335). -/
def State.clearQuotas (s : State) (h : Fin 2) : State :=
  { s with fns := s.fns.map (fun e => if e.1 / 16 = h.val then (e.1, { e.2 with maxContexts := 0, maxRegions := 0 }) else e) }

/-- A write to the configuration space of a function. -/
def writeCfg (s : State) (f : FnRef) (field : CfgField) (v : DWord) : State :=
  if f.fn ≠ 0 ∧ (field = .vfEnable ∨ field = .numVfs) then s
  else
    let s := if field = .vfEnable ∧ bit v 0 ∧ !(s.fn f).cfg.vfWas then s.clearQuotas f.host else s
    (s.onFn f (fun q => { q with cfg := setCfg q.cfg field v })).sendPending f

/-- A write to the MSI-X table, two 8-byte places a vector: its address, its data and mask bit. A pending message leaves
when its mask bit clears. The pending bits are read-only (Table 13.2; the rules of PCI Express, PRESUMED: log entry 73). -/
def writeMsix (s : State) (f : FnRef) (off : Nat) (v : DWord) : State :=
  let q := s.fn f
  let k := off / 16
  if 0x20 ≤ off then s
  else if off % 16 = 0 then s.setFn f { q with msixAddr := q.msixAddr.setIfInBounds k (v &&& 0xFFFFFFFFFFFFFFFC) }
  else if off % 16 = 8 then
    let b : BitVec 2 := BitVec.ofNat 2 (2 ^ k)
    let q := { q with msixData := q.msixData.setIfInBounds k (v.setWidth 32), msixMask := if bit v 32 then q.msixMask ||| b else q.msixMask &&& ~~~b }
    (s.setFn f q).sendPending f
  else s

/-- A write to the module window, from a PF (R336; Tables 11.9, 16.7, 16.10), but for CLK_CTRL, which `execRegisterWrite` takes. -/
def writeModule (s : State) (off : Nat) (v : DWord) : State :=
  if 0x2000 ≤ off ∧ off < 0x2400 ∧ off % 64 = 0 then
    s.onPort ((off - 0x2000) / 64) (fun q => { q with retrained := q.retrained && !bit v 20 })
  else if off = 0x3008 then
    { s with clock := { s.clock with
        refLost := s.clock.refLost && !bit v 25, cdcTimeout := s.clock.cdcTimeout && !bit v 24
        lateInput := s.clock.lateInput && !bit v 17 } }
  else if off = 0x3100 then
    { s with power := { s.power with v54High := s.power.v54High && !bit v 8, v12Range := s.power.v12Range && !bit v 7 } }
  else s

/-- A write to a CTX_ register (R338). -/
def writeCtx (x : Ctx) (off : Nat) (v : DWord) : Ctx :=
  if x.state = .free then x
  else if off = 0x0008 then
    let clear (h : Hold) : Hold := { h with notice := h.notice && !bit v 2 }
    { x with hold := clear x.hold, finalHold := x.finalHold.map clear }
  else if off = 0x0020 ∧ x.state = .loaded then { x with haz := { x.haz with enable := bit v 0 } }
  else x

/-- A write to a region window of a LOADED context (R215, R256, R268). -/
def writeRegion (s : State) (f : FnRef) (n r off : Nat) (v : DWord) : State :=
  let x := s.ctx n
  if off = 0x000 then
    s.onRegion (x.regions.getD r 32) (fun q => { q with
      ue := q.ue && !bit v 3, ce := q.ce && !bit v 2, uelog := if bit v 3 then q.uelog &&& ~~~1 else q.uelog })
  else if 0x100 ≤ off ∧ off < 0x500 then
    let q := (off - 0x100) / 16
    let c := s.comb n r
    let u := Mem.rd {} c.qs q
    if off % 16 = 0 then
      let qs := Mem.put c.qs q { u with cfg := combCfg v }
      if combValid x.routes x.regions.length ((List.range 64).map (fun k => (Mem.rd {} qs k).cfg)) then
        s.setComb n r { c with qs := qs }
      else s.onFn f (fun q => { q with wrIgnored := true })
    else if off % 16 = 8 then s.setComb n r { c with qs := Mem.put c.qs q { u with sat := u.sat && !bit v 2 } }
    else s
  else s

/-- A write to a cell or region window takes effect only while the context is LOADED (R338). -/
def State.whenLoaded (s : State) (f : FnRef) (h : Nat) (body : Nat → State) : State :=
  match s.onHandle f h with
  | some n => if (s.ctx n).state = .loaded then body n else s.onFn f (fun q => { q with wrIgnored := true })
  | none => s.onFn f (fun q => { q with wrIgnored := true })

/-- A write that reaches a register other than CLK_CTRL (R6). -/
def writeTarget (t : RegTarget) (value : DWord) (s : State) : State :=
  match t with
    | .config f field => writeCfg s f field value
    | .fn f off => writeFn s f off.toNat value
    | .msix f off => writeMsix s f off.toNat value
    | .moduleWin f off => if f.fn = 0 then writeModule s off.toNat value else s
    | .ctxWin f h off =>
      match s.onHandle f h.val with
      | some n => s.onCtx n (fun x => writeCtx x off.toNat value)
      | none => s
    | .regionWin f h r off =>
      s.whenLoaded f h.val (fun n =>
        if r.toNat < (s.ctx n).regions.length then writeRegion s f n r.toNat off.toNat value else s)
    | .cellWin f h id off =>
      s.whenLoaded f h.val (fun n =>
        if off.toNat % 8 = 0 ∧ off.toNat < 0x3000 ∧ cregDefined (off.toNat / 8) then
          s.onCell ⟨Fin.ofNat 32 n, id⟩ (fun c => writeCreg c (BitVec.ofNat 12 (off.toNat / 8)) (value.setWidth 32))
        else s)

end Sys2Proof.Machine
end

