-- ==== Sys2Proof/Machine/Load.lean ====
section
/-!
DEFINITION. Sys2Proof/Machine/Load.lean: the image of a module part (Tables 12.13, 13.12, 13.13), the checks of a load
(R350), placement (R216 to R221), resets of a port or a function (R354), and warm or cold removal of contexts.
-/
namespace Sys2Proof.Machine

/-! ### The image (Tables 13.12, 13.13) -/

/-- The number in bytes `at` to `at + n - 1` of an image. -/
def imgNum (b : List Byte) (off n : Nat) : Nat := natOfBytes ((b.drop off).take n)

/-- A section entry. -/
structure Section where
  kind : Nat
  unit : Nat
  off : Nat
  len : Nat
  zero : Bool
  deriving DecidableEq, Repr

def imgSections (b : List Byte) : List Section :=
  (List.range (imgNum b 6 2)).map (fun i =>
    let o := 64 + 16 * i
    { kind := imgNum b o 1, unit := imgNum b (o + 2) 2, off := imgNum b (o + 8) 4, len := imgNum b (o + 12) 4
      zero := decide (imgNum b (o + 1) 1 = 0) && decide (imgNum b (o + 4) 4 = 0) })

def imgSection (b : List Byte) (kind unit : Nat) : Option Section :=
  (imgSections b).find? (fun q => decide (q.kind = kind) && decide (q.unit = unit))

/-- The largest UNIT rule of a section (Table 13.13). -/
def unitOk (n : Nat) (q : Section) : Bool :=
  match q.kind with
  | 1 | 2 => decide (q.unit < 2 ^ 14) && cellExists n (BitVec.ofNat 14 q.unit)
  | 3 => decide (q.unit < n)
  | 4 => decide (q.unit = 0)
  | 5 => decide (q.unit ≤ 14)
  | _ => false

def lenOk (q : Section) : Bool :=
  match q.kind with
  | 1 => decide (q.len ≤ 65536) && decide (q.len % 32 = 0)
  | 2 => decide (q.len ≤ 16384) && decide (q.len % 4 = 0)
  | 3 => decide (q.len = 512)
  | 4 => decide (q.len = 8160)
  | _ => decide (q.len = 128)

/-- The port of hop `i` of the route entry at `o`. -/
def hopPort (b : List Byte) (o i : Nat) : Nat := imgNum b (o + 8) 16 / 16 ^ i % 16

/-- The latency of a hop that leaves through a port, with the fibre allowances X, Y, Z, W in metres (Table 2.2). -/
def hopLatency (allow : List Nat) (p : Nat) : Nat := if p ≤ 6 then 960 else 832 + 40 * allow.getD ((p - 7) / 2) 0

/-- The route entry at `o`, as the route table holds it. -/
def routeAt (b : List Byte) (o : Nat) : Route :=
  let hops := imgNum b o 1
  { hops := hops, ports := (List.range hops).map (hopPort b o), dest := imgNum b (o + 1) 3, lat := imgNum b (o + 4) 4
    ret := imgNum b (o + 24) 1 }

/-- The format checks of a route entry (Table 13.13). -/
def routeOk (b : List Byte) (allow : List Nat) (o : Nat) : Bool :=
  let r := routeAt b o
  if r.hops = 0 then decide (imgNum b o 32 = 0)
  else decide (r.hops ≤ 32) && decide (imgNum b (o + 25) 7 = 0) && r.ports.all (fun p => decide (p ≠ 15)) &&
    decide (imgNum b (o + 8) 16 / 16 ^ r.hops = 0) && decide (r.lat = sumNat (r.ports.map (hopLatency allow)))

/-- The routes of an image. -/
def imgRoutes (b : List Byte) : Mem Route :=
  match imgSection b 4 0 with
  | none => []
  | some q => ((List.range 255).map (fun i => (i + 1, routeAt b (q.off + 32 * i)))).filter (fun e => decide (e.2.hops ≠ 0))

/-- The slot word of a pair in the section of a port. -/
def slotWord (b : List Byte) (q : Section) (pair : Nat) : Word := BitVec.ofNat 32 (imgNum b (q.off + 4 * pair) 4)

/-- The format checks of a slot entry (Table 13.13). -/
def slotOk (routes : Mem Route) (n port : Nat) (w : Word) : Bool :=
  if fld w 31 30 = 0 then decide (w = 0)
  else decide (fld w 31 30 ≠ 3) && decide (fld w 7 0 = 0) &&
    (match Mem.find routes (fld w 29 22) with
     | some r => decide (r.ports.head? = some port)
     | none => false) &&
    (decide (fld w 31 30 ≠ 1) || cellExists n (BitVec.ofNat 14 (fld w 21 8)))

/-- The slot plans of an image, keyed 32 * port + pair. -/
def imgSlots (b : List Byte) : Mem SlotEntry :=
  (List.range 15).flatMap (fun p =>
    match imgSection b 5 p with
    | none => []
    | some q => ((List.range 32).map (fun k =>
        let w := slotWord b q k
        (32 * p + k, ({ kind := fld w 31 30, route := fld w 29 22, cell := BitVec.ofNat 14 (fld w 21 8) } : SlotEntry)))).filter
        (fun e => decide (e.2.kind ≠ 0)))

def imgAllow (b : List Byte) : List Nat := (List.range 4).map (fun d => imgNum b (34 + d) 1)

/-- QUE_CMBqCFG of a region (Table 13.13). -/
def imgComb (b : List Byte) (region : Nat) : List DWord :=
  match imgSection b 3 region with
  | none => List.replicate 64 0
  | some q => (List.range 64).map (fun k => BitVec.ofNat 64 (imgNum b (q.off + 8 * k) 8))

/-- The header passes its format checks, with the command's IMAGE_LEN (R350, Tables 13.12, 13.13). -/
def headerOk (imageLen : Nat) (b : List Byte) : Bool :=
  let len := imgNum b 8 4
  let n := imgNum b 27 1
  let group := imgNum b 38 1
  let mask := imgNum b 39 1
  let own := imgNum b 24 3 % 8
  decide (64 ≤ b.length) && decide (len ≤ b.length) && decide (len ≤ imageLen) && decide (64 + 16 * imgNum b 6 2 ≤ len) &&
  decide (imgNum b 0 4 = 0x33424C59) && decide (imgNum b 4 2 = 1) &&
  decide ((crc32c ((b.take 12 ++ [0, 0, 0, 0] ++ b.drop 16).take len)).toNat = imgNum b 12 4) &&
  decide (1 ≤ n) && decide (n ≤ 32) && (decide (imgNum b 31 1 = 1) || decide (imgNum b 31 1 = 2)) &&
  decide (imgNum b 32 2 ≠ 0xFFFF) && decide (group ≤ 2) && decide (mask / 2 ^ own % 2 = 1) &&
  (decide (group ≠ 0) || decide (mask = 2 ^ own)) && decide (imgNum b 52 12 = 0)

/-- No two entries have the same type and unit. -/
def distinctUnits : List Section → Bool
  | [] => true
  | q :: l => l.all (fun o => decide (o.kind ≠ q.kind) || decide (o.unit ≠ q.unit)) && distinctUnits l

/-- Check 2 of R350. -/
def imageOk (imageLen : Nat) (b : List Byte) : Bool :=
  let n := imgNum b 27 1
  headerOk imageLen b &&
  (imgSections b).all (fun q => q.zero && unitOk n q && lenOk q && decide (q.off + q.len ≤ imgNum b 8 4)) &&
  distinctUnits (imgSections b) &&
  (match imgSection b 4 0 with
   | some q => (List.range 255).all (fun i => routeOk b (imgAllow b) (q.off + 32 * i))
   | none => true) &&
  (List.range 15).all (fun p => match imgSection b 5 p with
    | some q => (List.range 32).all (fun k => slotOk (imgRoutes b) n p (slotWord b q k))
    | none => true) &&
  (List.range n).all (fun r => combValid (imgRoutes b) n (imgComb b r))

/-- Words of a section as a memory of units of `w` bits. -/
def imgMem (w : Nat) (b : List Byte) (kind unit : Nat) : Mem (BitVec w) :=
  match imgSection b kind unit with
  | none => []
  | some q =>
    ((List.range (q.len / (w / 8))).map (fun k => (k, BitVec.ofNat w (imgNum b (q.off + w / 8 * k) (w / 8))))).filter
      (fun e => decide (e.2 ≠ 0))

/-! ### LOAD (R334, R335, R350) -/

/-- The thermal class of a region from its hottest sensor (R217). -/
def State.thermalClass (s : State) (p : Nat) : Nat :=
  let od := s.lantern.od
  ((List.range 64).filter (fun k => decide (Config.sensorRegion k = p))).foldl (fun c k =>
    let t := Mem.rd 0 s.power.sensors k
    max c (if t < 10 * od.class1 then 0 else if t < 10 * od.class2 then 1 else if t < 10 * od.class3 then 2 else 3)) 0

/-- LOAD is accepted: the context takes the lowest free number, the inputs of its placement are latched, and the image is read
(R217, R227, R334, Table 9.3). -/
def execLoad (f : FnRef) (seq : Nat) (s : State) : Host.Outcome State Fault Refusal :=
  .next (s.withCmd f seq 0x10 (fun c m =>
    match (List.range 32).find? (fun n => (Mem.find s.ctxs n).isNone) with
    | none => s.finish f seq 5 m 0
    | some n =>
      let classes := (List.range 32).map s.thermalClass
      let service := (List.range 32).map (fun p => (offered (s.region p), (s.region p).spares))
      let s := s.setCtx n {
        state := .loading, owner := f, handle := cmdHandle c, session := cmdPar c 20 20, acceptDome := c.acceptedAt
        acceptClk := c.acceptClk, acceptNum := c.acceptNum
        classes := classes, service := service, dumpAddr := cmdPar c 24 31, dumpLen := cmdPar c 32 35, imageLen := cmdPar c 16 19 }
      let s := s.onFn f (fun q => { q with handles := Mem.put q.handles (cmdHandle c) n })
      let s := (List.range 32).foldl (fun s p => s.onRegion p (fun r => { r with thermal := classes.getD p 0 })) s
      { s with
        plcMap := Mem.put s.plcMap n 0, plcInfo := Mem.put s.plcInfo n 0
        out := s.out ++ [.hostRead n (cmdPar c 8 15) (cmdPar c 16 19)] }))

/-- A refused load: the handle returns to FREE and the number is given back; the record carries the number (R334,
R350). -/
def State.refuseLoad (s : State) (n status : Nat) : State := (s.finishOn n 0x10 status 0).dropCtx n

/-- Regions that the functions of a port own (R335). -/
def State.portRegions (s : State) (h : Fin 2) : Nat :=
  ((List.range 32).filter (fun p => match (s.region p).owner with
    | some n => decide ((s.ctx n).owner.host = h)
    | none => false)).length

def State.fnRegions (s : State) (f : FnRef) : Nat :=
  ((List.range 32).filter (fun p => match (s.region p).owner with
    | some n => decide ((s.ctx n).owner = f)
    | none => false)).length

/-- A limit of R335 would be exceeded. -/
def overQuota (s : State) (f : FnRef) (n : Nat) : Bool :=
  let q := s.fn f
  decide ((if f.host = 0 then s.lantern.od.h0Regions else s.lantern.od.h1Regions) < s.portRegions f.host + n) ||
  (decide (f.fn ≠ 0) && (decide (q.maxContexts < q.handles.length) || decide (q.maxRegions < s.fnRegions f + n)))

/-- A full mode (Table 11.1). -/
def fullMode (mode : Nat) : Bool := decide (mode = 1) || decide (mode = 2)

/-- Check 7 of R350: LINK_MODE, ROUTE_PORT, LINK_LENGTH. -/
def linkStatus (s : State) (b : List Byte) : Option Nat :=
  let masked := ((imgSlots b).map (fun e => e.1 / 32)).eraseDups
  let first := ((imgRoutes b).filterMap (fun e => e.2.ports.head?)).eraseDups
  let long (p : Nat) : Bool := decide (7 ≤ p) && decide (p ≤ 14) && decide (10 * (imgAllow b).getD ((p - 7) / 2) 0 < (s.port p).len.toNat)
  if masked.any (fun p => decide ((s.port p).state ≠ .active) || !fullMode (s.port p).mode) then some 0x0015
  else if first.any (fun p => decide ((s.port p).state ≠ .active)) then some 0x0016
  else if (masked ++ first).any long then some 0x0017
  else none

/-- Runnable profiles (Table 12.13). -/
def runnable (st : Stepping) (profile : Nat) : Bool := decide (profile = 1) || (decide (profile = 2) && decide (st = .b0))
def nativeProfile : Stepping → Nat
  | .a1 => 1
  | .b0 => 2

/-- Checks 2 to 5 of R350, in order: the status of the first that fails. -/
def imageStatus (s : State) (n : Nat) (b : List Byte) : Option Nat :=
  if !imageOk (s.ctx n).imageLen b then some 0x0010
  else if imgNum b 24 3 ≠ s.lantern.address.toNat then some 0x0011
  else if imgNum b 28 1 ≠ 3 ∨ imgNum b 29 1 ≠ 3 ∨ imgNum b 30 1 ≠ 1 then some 0x0012
  else if !runnable s.stepping (imgNum b 31 1) then some 0x0013
  else if (s.tagged (BitVec.ofNat 16 (imgNum b 32 2))).isSome then some 0x0014
  else none

/-- Checks 6 and 7 of R350. -/
def loadStatus (s : State) (n : Nat) (b : List Byte) : Option Nat :=
  let x := s.ctx n
  if Mem.find s.sessions x.session ≠ some x.owner then some 0x0004
  else if overQuota s x.owner (imgNum b 27 1) then some 0x0005
  else linkStatus s b

/-! ### Placement (R217 to R221) -/

/-- A region is free for the placement of a context: by the service map of the acceptance, and not where it has finished
CLEARING since (R217, Table 9.3). -/
def State.regionFree (s : State) (x : Ctx) (p : Nat) : Bool :=
  let r := s.region p
  (x.service.getD p (offered r, [])).1 && r.retrain.isEmpty && r.owner.isNone && !r.clearing && !x.cleared.contains p &&
  (match s.leaseOf p with | some (_, l) => decide (l.session = x.session) | none => true)

/-- Bind the leased regions of the session: none where one of them is not free, or two claim one logical region (R218). -/
def bindLeases (s : State) (x : Ctx) (n : Nat) : Option (List (Nat × Nat)) :=
  let wanted := (s.leases.filter (fun e => decide (e.2.session = x.session))).flatMap
    (fun e => e.2.regions.filter (fun r => decide (r.2 < n)))
  if wanted.all (fun r => s.regionFree x r.1 && decide ((wanted.filter (fun q => decide (q.2 = r.2))).length = 1)) then
    some wanted else none

/-- Bind the other logical regions in ascending order, each to the candidate with the lowest class and number (R218). A
leased region is offered only for the logical region that its lease records. -/
def bindRest (s : State) (x : Ctx) : List Nat → List (Nat × Nat) → Option (List (Nat × Nat))
  | [], acc => some acc
  | i :: rest, acc =>
    if acc.any (fun e => decide (e.2 = i)) then bindRest s x rest acc
    else
      let ok (p : Nat) : Bool := s.regionFree x p && (s.leaseOf p).isNone && !acc.any (fun e => decide (e.1 = p))
      match sortBy (fun p => 32 * x.classes.getD p 0 + p) ((List.range 32).filter ok) with
      | p :: _ => bindRest s x rest (acc ++ [(p, i)])
      | [] => none

/-- The slot masks of two contexts meet (R221). -/
def slotsMeet (a b : Mem SlotEntry) : Bool := a.any (fun e => b.any (fun o => decide (o.1 = e.1)))

/-- The placement of `n` logical regions, or its result code (R218, R221, Table 9.6). -/
def place (s : State) (x : Ctx) (n : Nat) (slots : Mem SlotEntry) : Except Nat (List Nat) :=
  match bindLeases s x n with
  | none => .error 2
  | some l =>
    match bindRest s x (List.range n) l with
    | none => .error 1
    | some l =>
      if s.ctxs.any (fun e => slotsMeet e.2.slots slots) then .error 3
      else .ok ((sortBy (fun (e : Nat × Nat) => e.2) l).map (·.1))

/-- The channel and bank maps of a binding (R220). -/
def chmapOf (z : Nat) : BitVec 24 := packFields 24 ((List.range 8).map (fun k => (3 * k + 2, 3 * k, k ^^^ (z % 8))))
def bankxorOf (z : Nat) : Word := packFields 32 ((List.range 8).map (fun k => (4 * k + 3, 4 * k, (z / 8 + 5 * k) % 16)))

/-- The cells of logical region `i` at binding: memories from the image, leased rows as they stand (R60, R201, R202,
R219). -/
def newCells (s : State) (x : Ctx) (b : List Byte) (n i p : Nat) : List (Nat × Cell) :=
  (List.range 24).flatMap (fun blk => (List.range 16).map (fun k =>
    let id := cellIdOf i blk k
    let key := physKey (s.physCell x id)
    let r := s.region p
    let take {α : Type} (m : Mem α) (size : Nat) : Mem α :=
      (m.filter (fun e => decide (e.1 / size = key))).map (fun e => (e.1 % size, e.2))
    (n * 16384 + id.toNat, { id := id, imem := imgMem 256 b 1 id.toNat, dmem := imgMem 32 b 2 id.toNat
                             spad := { rows := take r.kept 1024, errs := take r.scrubErr 65536 } })))

/-- Windows of a context that ended on this region read 0 from now on (R338). -/
def State.forgetRegion (s : State) (p : Nat) : State :=
  { s with cells := s.cells.filter (fun e =>
      let x := s.ctx (e.1 / 16384)
      !((decide (x.state = .done) || decide (x.state = .failed)) && decide (x.regions.getD (regionOf e.2.id) 32 = p))) }

/-- A placement uses the service map of its acceptance: fences that have taken effect on the region since then are pending
instead, until it leaves the context, and leased rows stand as before (R201, Table 9.3). -/
def State.withdrawFences (s : State) (n p : Nat) : State :=
  let x := s.ctx n
  let back {α : Type} (size : Nat) (l : List (Nat × Nat × α)) (m : Mem α) : Mem α :=
    (l.filter (fun e => decide (e.1 = p) && s.leasedRow p (e.2.1 % size / (size / 1024)))).foldl (fun m e => Mem.put m e.2.1 e.2.2) m
  match x.fences.filter (fun e => decide (e.1 = p)) with
  | [] => s
  | l => s.onRegion p (fun r => { r with
      fenced := false, spares := (x.service.getD p (true, r.spares)).2, pendingFences := r.pendingFences ++ l.map (·.2)
      kept := back 1024 x.keptRows r.kept, scrubErr := back 65536 x.keptErrs r.scrubErr })

/-- Bind region `p` as logical region `i` (R219, R220). -/
def State.bindRegion (s : State) (b : List Byte) (n i p : Nat) : State :=
  let s := (s.forgetRegion p).withdrawFences n p
  let r := s.region p
  let z := if s.lantern.od.mapRotate then r.binds % 64 else 0
  let cells := newCells s (s.ctx n) b n i p
  let s := s.setRegion p { r with
    owner := some n, logical := i, binds := r.binds + 1, chmap := chmapOf z, bankxor := bankxorOf z, delayed := 0, kept := []
    placed := [], scrubErr := [] }
  { s with cells := cells.foldl (fun m e => Mem.put m e.1 e.2) s.cells }

/-- The combining queues of an image (R256). -/
def combOf (b : List Byte) (n : Nat) : Mem CombRegion :=
  (List.range n).map (fun r =>
    let qs := (imgComb b r).zipIdx.map (fun e => (e.2, ({ cfg := combCfg e.1 } : Comb)))
    (r, { qs := qs.filter (fun e => decide (e.2.cfg ≠ 0)) }))

/-- What the header gives. -/
def imageInfo (b : List Byte) : ImageInfo :=
  { binary := imgNum b 16 8, regions := imgNum b 27 1, profile := imgNum b 31 1, tag := BitVec.ofNat 16 (imgNum b 32 2)
    allow := imgAllow b, group := imgNum b 38 1, nodeMask := imgNum b 39 1, dumpLaddr := imgNum b 40 8, dumpLen := imgNum b 48 4 }

/-- PLC_CTXnMAP (Table 9.9). -/
def mapOf (l : List Nat) : BitVec 192 := packFields 192 (l.zipIdx.map (fun e => (6 * e.2 + 5, 6 * e.2, 32 + e.1)))

/-- Bind the context and write its memories, routes and plans; the handle enters LOADED (R350). -/
def State.bindContext (s : State) (n : Nat) (b : List Byte) (l : List Nat) : State :=
  let info := imageInfo b
  let s := s.onCtx n (fun x => { x with
    image := info, passedTag := true, regions := l, runProfile := info.profile
    padded := decide (info.profile ≠ nativeProfile s.stepping), routes := imgRoutes b, slots := imgSlots b
    expects := (Config.expectedPairs info.binary s.ownAddress).map (fun e => ⟨e.1, e.2.1, e.2.2.1, e.2.2.2⟩)
    comb := combOf b info.regions })
  let s := l.zipIdx.foldl (fun s e => s.bindRegion b n e.2 e.1) s
  let s := { s.refreshService with
    plcMap := Mem.put s.plcMap n (mapOf l), plcInfo := Mem.put s.plcInfo n (BitVec.ofNat 32 l.length) }
  (s.onCtx n (fun x => { x with state := .loaded })).finishOn n 0x10 0 (mapOf l).toNat

/-- A LOAD goes before another one: in the order of acceptance, of one cycle H0 first (Table 9.3). -/
def goesBefore (a b : Ctx) : Bool :=
  decide (a.acceptClk < b.acceptClk) || (decide (a.acceptClk = b.acceptClk) &&
    (decide (a.owner.host < b.owner.host) || (decide (a.owner.host = b.owner.host) && decide (a.acceptNum < b.acceptNum))))

/-- LOADs that go before that of context `n` and are not placed yet (Table 9.3). -/
def loadsBefore (s : State) (n : Nat) : Bool :=
  s.ctxs.any (fun e => decide (e.1 ≠ n) && decide (e.2.state = .loading) && goesBefore e.2 (s.ctx n))

/-- The last checks of a load, and its placement (R218, R221, R350). -/
def placeLoad (s : State) (n : Nat) (b : List Byte) : State :=
  match loadStatus s n b with
  | some st => s.refuseLoad n st
  | none =>
    match place s (s.ctx n) (imgNum b 27 1) (imgSlots b) with
    | .ok l => s.bindContext n b l
    | .error code =>
      { s with plcInfo := Mem.put s.plcInfo n (packFields 32 [(31, 24, code)]) }.refuseLoad n
        (if code = 1 then 0x0018 else if code = 2 then 0x0007 else 0x0019)

/-- Checks 1 to 5 of R350 on the image that has been read. The context has its tag once it passes them, and a kept
KILL_NOTICE for the tag ends it at once (R366). -/
def readImage (s : State) (n : Nat) (image : Option (List Byte)) : State :=
  let x := s.ctx n
  match image with
  | none => s.refuseLoad n 9
  | some b =>
    match imageStatus s n b with
    | some st => s.refuseLoad n st
    | none =>
      let tag : BitVec 16 := BitVec.ofNat 16 (imgNum b 32 2)
      let s := s.setCtx n { x with image := imageInfo b, passedTag := true, got := some b }
      match s.oldKills.find? (fun e => decide (e.1 = tag) && decide (x.acceptDome ≤ e.2.1)) with
      | some (_, dome, p) =>
        s.beginKill n 3
          { code := 3, unit := 9, free := false, cell := 0, detail := 16 * fld (s.port p).partnerWord 44 27 + p, cc := 0
            dome := s.clock.dome } (some (p, dome))
      | none => s

/-- LOAD_COMPLETE: the image is checked; placement serves loads in the order of their acceptance, so a load whose image has
come waits until those before it are placed or refused (R350, R354, R366). -/
def loadComplete (s : State) (n : Nat) (image : Option (List Byte)) : State :=
  if (s.ctx n).state ≠ .loading ∨ s.lantern.restarting ∨ s.unrecoverable then s
  else
    let s := if (s.ctx n).got.isSome then s else readImage s n image
    match (s.ctx n).got with
    | some b => if (s.ctx n).state = .loading ∧ !loadsBefore s n then placeLoad s n b else s
    | none => s

def execLoadComplete (n : Fin 32) (image : Option (List Byte)) (s : State) : Host.Outcome State Fault Refusal :=
  .next (loadComplete s n.val image)

/-! ### Resets of a port or a function (R354) -/

/-- The function registers at their reset values (R357); the contexts that the reset kills stay on their handles until
RELEASE. The quotas of a VF are its PF's. -/
def resetFn (q : Fn) (quota : Bool) : Fn :=
  { handles := q.handles, nextSeq := q.nextSeq
    maxContexts := if quota then 0 else q.maxContexts, maxRegions := if quota then 0 else q.maxRegions }

/-- Reset the functions `hit` names: loads are abandoned, contexts are killed with RESET, sessions and leases end, and the
registers return to their reset values (R354, R356). -/
def State.resetFns (s : State) (hit : FnRef → Bool) (quota : Bool) (flr : Nat) : State :=
  let mine := s.ctxs.filter (fun e => hit e.2.owner)
  let s := mine.foldl (fun s e =>
    if e.2.state = .loading then s.dropCtx e.1
    else if killable e.2 then s.beginKill e.1 5 (hostKillErr s e.1 2 e.2.owner.host.val flr) none
    else s) s
  let s := (s.sessions.filter (fun e => hit e.2)).foldl (fun s e => s.endSession e.1) s
  { s with fns := s.fns.map (fun e =>
      if hit ⟨Fin.ofNat 2 (e.1 / 16), Fin.ofNat 16 e.1⟩ then (e.1, resetFn e.2 quota) else e) }

/-- A reset of a PCIe port (R354). -/
def State.resetPort (s : State) (h : Fin 2) (flr : Nat) : State :=
  s.resetFns (fun f => decide (f.host = h)) true flr

/-- FUNCTION_LEVEL_RESET (R354). -/
def execFunctionLevelReset (f : FnRef) (s : State) : Host.Outcome State Fault Refusal :=
  .next (if f.fn = 0 then s.resetPort f.host 1 else s.resetFns (fun g => decide (g = f)) false 1)

end Sys2Proof.Machine
end

