-- ==== Sys2Proof/Machine/Link.lean ====
section
/-!
DEFINITION. Sys2Proof/Machine/Link.lean: the negotiation of a port (R269 to R277, R299), RETRAIN and ports that are down
for contexts (R302, R303), and the comparison of partners (R408).
-/
namespace Sys2Proof.Machine

/-- CLASS of a port (Table 11.3). -/
def portClass (p : Nat) : Nat := if p ≤ 6 then 0 else if p ≤ 14 then 1 else 2

/-- The modes of a class: bit r - 1 for rank r (Table 11.1). -/
def classModes (c : Nat) : Byte := if c = 0 then 0xFA else 0xFF

/-- MODES that a port offers (R275). -/
def offeredModes (q : Port) (p : Nat) : Byte := classModes (portClass p) &&& q.mask

/-- The capability word of a port (Table 11.3). -/
def capabilityWord (s : State) (p : Nat) : DWord :=
  packFields 64 [(63, 60, 1), (59, 52, (offeredModes (s.port p) p).toNat), (51, 47, p), (46, 45, portClass p),
    (44, 27, s.ownAddress), (26, 23, 3), (22, 22, b01 (decide (s.clock.refState = 1)))]

/-- The eight bytes of a capability word with their CRC (R276). -/
def wordCrc (w : DWord) : Word := crc32 (bytesOf w.toNat 8)

/-- A port sends its capability word with its CRC (R276, Table 11.2). -/
def State.sendWord (s : State) (p : Nat) : State :=
  let w := capabilityWord s p
  (s.onPort p (fun q => { q with wordAt := s.clock.clk })).emitOut [.capability p w (wordCrc w)]

/-- A port that has been in CAPABILITY for 1 µs since its last word sends it again (Table 11.2). A microsecond is counted in
core clock cycles, since the dome count does not run before S10 (R21). -/
def State.wordTimer (s : State) (p : Nat) : State :=
  let q := s.port p
  if q.state = .capability ∧ q.wordAt + (s.clock.khz + 999) / 1000 ≤ s.clock.clk then s.sendWord p else s

/-- Lanes of a mode (Table 11.1). -/
def modeLanes (r : Nat) : Nat := if r = 1 ∨ r = 2 ∨ r = 4 ∨ r = 6 then 2 else 1

def laneCount (l : BitVec 2) : Nat := b01 (bit l 0) + b01 (bit l 1)

/-- The candidate mode (R273). -/
def candidate (q : Port) (p : Nat) (good : BitVec 2) : Option Nat :=
  let both := offeredModes q p &&& BitVec.ofNat 8 (fld q.partnerWord 59 52) &&& classModes (fld q.partnerWord 46 45)
  ((List.range 9).filter (fun r => decide (1 ≤ r))).find? (fun r => bit both (r - 1) && decide (modeLanes r ≤ laneCount good))

/-- The lanes that a mode uses (R273). -/
def useLanes (r : Nat) (good : BitVec 2) : BitVec 2 :=
  if modeLanes r = 2 then 3 else if bit good 0 then 1 else 2

/-! ### Ports that are down for contexts (R303) -/

/-- LINK_DOWN (Table 14.11). -/
def linkDownErr (s : State) (x : Ctx) (p : Nat) : ErrRec :=
  { code := 0x0031, unit := 9, free := false, cell := 0, detail := p, cc := x.cc, dome := s.clock.dome }

/-- A context has a slot mask or a route on the port. -/
def usesPort (x : Ctx) (p : Nat) : Bool :=
  x.slots.any (fun e => decide (e.1 / 32 = p)) || x.routes.any (fun e => decide (e.2.ports.head? = some p))

/-- The port is down for contexts: those that use it end with LINK_DOWN, and its flits of theirs are dropped (R303). -/
def State.downForContexts (s : State) (p : Nat) : State :=
  (s.ctxs.filter (fun e => usesPort e.2 p)).foldl (fun s e =>
    (s.onPort p (fun q => dropTag q e.2.image.tag)).killOrJoin e.1 6 (linkDownErr s e.2 p)) s

/-- The port enters DOWN (R272, R303). -/
def State.portDown (s : State) (p : Nat) (mismatch : Bool) : State :=
  (s.onPort p (fun q => { q with
    state := .down, mode := 0, lanes := 0, retraining := none, kept := false, partnerLocked := false, partnerRole := none
    mismatched := q.mismatched || mismatch })).downForContexts p

/-- The port enters DETECT, with the mode mask as it stands; with no mode to offer it stays in DOWN (R272, R275). -/
def State.enterDetect (s : State) (p : Nat) : State :=
  s.onPort p (fun q =>
    let mask : Byte := Mem.rd 0xFF s.lantern.od.modeMask p
    { q with
      mask := mask, state := if classModes (portClass p) &&& mask = 0 then .down else .detect, good := 3, rounds := 0, mode := 0
      lanes := 0, mismatched := false, kept := false, retraining := none })

/-! ### Negotiation (Table 11.2) -/

/-- SIGNAL_DETECT: lanes of a port in DETECT see a signal. -/
def execSignalDetect (p : Fin 16) (lanes : BitVec 2) (s : State) : Host.Outcome State Fault Refusal :=
  .next (if (s.port p.val).state = .detect ∧ lanes ≠ 0 then
      (s.onPort p.val (fun q => { q with state := .capability, good := lanes })).sendWord p.val
    else s)

/-- CAPABILITY_ACCEPT: 8 identical copies of the partner's word, each with a good CRC (R276). A word of another class is not
taken (Table 11.8). It says whether the partner is locked (R300). -/
def execCapabilityAccept (p : Fin 16) (word : DWord) (crc : Word) (copies : Nat) (s : State) : Host.Outcome State Fault Refusal :=
  .next (s.onPort p.val (fun q =>
    if q.state = .capability ∧ 8 ≤ copies ∧ crc = wordCrc word ∧ fld word 46 45 = portClass p.val then
      { q with state := .select, partnerWord := word, partnerLocked := bit word 22, partnerRole := none }
    else q))

/-- MODE_SELECT: the candidate modes are compared; `partnerLanes` are the lanes that are good at the partner (R273). Where
they differ, the port is in CAPABILITY again, and sends its word. -/
def execModeSelect (p : Fin 16) (partnerMode : BitVec 4) (partnerLanes : BitVec 2) (s : State) :
    Host.Outcome State Fault Refusal :=
  .next (let q := s.port p.val
    if q.state = .select then
      let good := q.good &&& partnerLanes
      match candidate q p.val good with
      | none => s.portDown p.val false
      | some r =>
        if r = partnerMode.toNat then
          (s.setPort p.val { q with state := .train, mode := r, lanes := useLanes r good }).emitOut [.candidate p.val r]
        else ((s.setPort p.val { q with state := .capability }).emitOut [.candidate p.val r]).sendWord p.val
    else s)

/-- The most bit errors among 10^9 bits with which a lane passes: a ratio of 2.4e-4 in an RS mode, of 4.8e-3 in a
concatenated one (R274). -/
def errorLimit (mode : Nat) : Nat := if concatenated mode then 4800000 else 240000

/-- The lanes in which TRAIN has counted no more errors than the mode allows (R274). -/
def lanesPass (mode e0 e1 : Nat) : BitVec 2 :=
  BitVec.ofNat 2 (b01 (decide (e0 ≤ errorLimit mode)) + 2 * b01 (decide (e1 ≤ errorLimit mode)))

/-- TRAIN_ROUND: each lane's errors over 10^9 bits decide whether it passes; both ends exchange their results; at most four
rounds take place (R274). Pairs that are found inverted are corrected (R428). -/
def execTrainRound (p : Fin 16) (errors0 errors1 : Nat) (inverted partnerPass : BitVec 2) (s : State) :
    Host.Outcome State Fault Refusal :=
  .next (let q := { s.port p.val with polarity := inverted }
    let failed := q.lanes &&& ~~~ (lanesPass q.mode errors0 errors1 &&& partnerPass)
    if q.state = .train then
      if failed = 0 then s.setPort p.val { q with state := .align, rounds := q.rounds + 1 }
      else if 4 ≤ q.rounds + 1 then s.portDown p.val false
      else s.setPort p.val { q with state := .select, good := q.good &&& ~~~ failed, rounds := q.rounds + 1 }
    else if q.state = .retrain then
      s.setPort p.val (if failed = 0 then q else { q with state := .select, good := q.good &&& ~~~ failed, rounds := 0 })
    else s)

/-- The partner is the expected one, or is not checked (R408). -/
def portMatches (s : State) (p : Nat) : Bool :=
  let e : Word := Mem.rd 0xFFFFFFFF s.lantern.od.expect p
  let w := (s.port p).partnerWord
  decide (e = 0xFFFFFFFF) || (decide (fld w 44 27 = fld e 22 5) && decide (fld w 51 47 = fld e 4 0))

/-- The link layer at a port that comes up new: nothing sent, nothing received, and every buffer advertised (R279, R283).
-/
def freshLink (q : Port) : Port :=
  { q with
    txSeq := 0, replay := [], naked := false, resend := none, resends := [], credSched := 0, credLoose := 0, current := []
    rxNext := 0, nakSent := false, sendNak := false, rx := [], stamps := [], parts := []
    retSched := 2048 - q.landing, retLoose := 512, looseBuf := 0 }

/-- LENGTH in 0.1 m of a round trip in ns: (round trip - factory round trip) / 2 / 5 ns (R299). -/
def fibreLength (p rttNs : Nat) : Nat := if p ≤ 6 then 0 else rttNs - Config.factoryRtt p

/-- ALIGN_DONE: the port enters ACTIVE with its round trip and length, as a new link or, after a RETRAIN, with the state of
the old one (R272, R299, R302). A port that first reaches ACTIVE after S9 has its partner compared at once (R408), and a port
that carries slots must be in a full mode (R303). -/
def execAlignDone (p : Fin 16) (rttNs : BitVec 16) (s : State) : Host.Outcome State Fault Refusal :=
  .next (let q := s.port p.val
    if q.state = .align ∨ q.state = .retrain then
      let same := match q.retraining with | some (m, _) => decide (m = q.mode) | none => false
      let q := { q with
        state := .active, rtt := rttNs, len := BitVec.ofNat 16 (fibreLength p.val rttNs.toNat), lastHeader := s.clock.ns
        fecIn := [], laneIn := Vector.replicate 2 [] }
      let q := if q.kept then { q with sendNak := true, resends := [], kept := false } else freshLink q
      let first := decide (9 ≤ s.clock.stage) && !q.compared
      let s := s.setPort p.val { q with retraining := if same then none else q.retraining, compared := q.compared || first }
      if first ∧ !portMatches s p.val then s.portDown p.val true
      else if q.mode ≠ 1 ∧ q.mode ≠ 2 ∧ s.ctxs.any (fun e => e.2.slots.any (fun o => decide (o.1 / 32 = p.val))) then
        s.downForContexts p.val
      else s
    else s)

/-- NEGOTIATION_TIMEOUT: 250 ms have passed since DETECT (R272). -/
def execNegotiationTimeout (p : Fin 16) (s : State) : Host.Outcome State Fault Refusal :=
  .next (let st := (s.port p.val).state
    if st = .detect ∨ st = .capability ∨ st = .select ∨ st = .train ∨ st = .align then s.portDown p.val false else s)

/-- DOWN_WAIT: one second in DOWN has passed; a mismatched port stays (R272, R408). -/
def execDownWait (p : Fin 16) (s : State) : Host.Outcome State Fault Refusal :=
  .next (if (s.port p.val).state = .down ∧ !(s.port p.val).mismatched then s.enterDetect p.val else s)

/-! ### RETRAIN (R302, R303) -/

/-- RETRAIN: one flit has been resent 16 times, or the FEC has been out of lock for 1 µs (R302). A port that has not been back
in its mode since an earlier one keeps that one's mode and time (R303). -/
def execRetrain (p : Fin 16) (fecLost : Bool) (s : State) : Host.Outcome State Fault Refusal :=
  .next (s.onPort p.val (fun q =>
    if q.state = .active ∧ (fecLost ∨ q.resends.any (fun e => decide (16 ≤ e.2))) then
      { q with
        state := .retrain, retrained := true, retrains := satInc 0xFFFF q.retrains, kept := true
        retraining := q.retraining.orElse (fun _ => some (q.mode, s.clock.ns)) }
    else q))

/-- RETRAIN_TIMEOUT: the port has not returned to ACTIVE in its mode within RETRAIN_MS (R303). -/
def execRetrainTimeout (p : Fin 16) (s : State) : Host.Outcome State Fault Refusal :=
  .next (let q := s.port p.val
    match q.retraining with
    | some (_, t) =>
      if t + 1000000 * s.lantern.od.retrainMs ≤ s.clock.ns then
        (s.setPort p.val { q with retraining := none }).downForContexts p.val
      else s
    | none => s)

end Sys2Proof.Machine
end

