-- ==== Sys2Proof/Machine/Message.lean ====
section
/-!
DEFINITION. Sys2Proof/Machine/Message.lean: what the messages of Table 11.7 do where they arrive (R230, R240, R249 to R258,
R260, R288, R291 to R294, R311, R313, R365, R366, R379, R437).

A port's messages stand in the order of their acceptance in `Port.rx`; a command takes the first one if it is of its
kind. Messages that travel on the module itself stand in `State.transit`.
-/
namespace Sys2Proof.Machine

/-! ### Fields of ARG (Table 11.7) -/

def argCell (a : DWord) : CellId := BitVec.ofNat 14 (fld a 31 18)
def argRow (a : DWord) : Nat := fld a 17 8
def argSig (a : DWord) : BitVec 6 := BitVec.ofNat 6 (fld a 5 0)

/-- The cell is a logical cell of context `n` on this module (R437). -/
def State.hasCell (s : State) (n : Nat) (id : CellId) : Bool := cellExists (s.ctx n).regions.length id

/-- RET of a message: 0, or a route of the module's part; another value is a LINK_PLAN error (R437). -/
def retOf (x : Ctx) (f : Flit) : Option Nat :=
  let r := f.due.toNat / 16384
  if r = 0 || (Mem.find x.routes r).isSome then some r else none

/-- The cases of LINK_PLAN that a flit itself shows (R437). A row of 640 or more is one at every hop; the cell of an arrival
and RET are those of the module at the end of the route (R291). -/
def planBroken (s : State) (n : Nat) (f : Flit) : Bool :=
  let x := s.ctx n
  if (decide (f.mtype = 0x02) || decide (f.mtype = 0x03)) && decide (640 ≤ argRow f.arg) then true
  else if f.hop ≠ 0 then (forwardPort x f).isNone
  else if f.mtype = 0x01 then bit f.arg 6 && !s.hasCell n (argCell f.arg)
  else if f.mtype = 0x0A then !s.hasCell n (BitVec.ofNat 14 (fld f.arg 43 30))
  else if f.mtype = 0x02 ∨ f.mtype = 0x03 ∨ f.mtype = 0x04 ∨ f.mtype = 0x06 then !s.hasCell n (argCell f.arg)
  else if f.mtype = 0x05 ∨ f.mtype = 0x07 then (retOf x f).isNone
  else false

/-! ### Taking a message -/

/-- A flit that leaves the port's buffers, with its credit (R283). -/
def State.leavePort (s : State) (p : Nat) (f : Flit) (k : Nat) : State := s.onPort p (fun q => freeRx q f k)

/-- The context still forwards its flits: its routes are in the ports until RELEASE or the end of a kill (R291, R349). -/
def forwards (s : State) (x : Ctx) : Bool := !s.unrecoverable && (takesMessages s x || decide (x.state = .done))

/-- The context takes the flit, or forwards it (R291, R349). -/
def admitsFlit (s : State) (n : Nat) (f : Flit) : Bool :=
  if f.hop ≠ 0 then forwards s (s.ctx n) else takesMessages s (s.ctx n)

/-- Take a scheduled flit: one that has hops to travel is forwarded, one of a context that no longer takes messages is
dropped, one in a case of R437 ends its context; `act` answers for the others, and frees what does not stay (R288, R291,
R437). -/
def scheduled (s : State) (p : Nat) (mtype : BitVec 6) (act : State → Nat → Flit → State) : State :=
  match s.takeRx p mtype with
  | none => s
  | some (f, s) =>
    match s.tagged f.ctx with
    | none => s.leavePort p f 1
    | some n =>
      if !admitsFlit s n f then s.leavePort p f 1
      else if planBroken s n f then (s.leavePort p f 1).linkPlan n p f
      else if f.hop ≠ 0 then (s.leavePort p f 1).forward n p [f]
      else act s n f

/-- The place of a flit in its message (Table 11.7). -/
def flitIndex (f : Flit) : Nat :=
  if f.mtype = 0x03 then b01 (bit f.arg 7) else if f.mtype = 0x05 ∨ f.mtype = 0x07 then fld f.arg 16 12 else 0

/-- The flit goes on with the message that has begun to arrive: a sender that has dropped the rest of one begins another
(R294, R363). -/
def goesOn (parts : List Flit) (f : Flit) : Bool :=
  parts.all (fun g => decide (g.ctx = f.ctx) && decide (g.mtype = f.mtype)) && decide (flitIndex f = parts.length)

/-- What has arrived of a message that is not going to be whole is dropped, with its credits (R283, R294). -/
def dropParts (q : Port) : Port := { q.parts.foldl (fun q g => freeRx q g 1) q with parts := [] }

/-- Take a flit of a loose message. A flit in a case of R437 ends its context when it is received. Once the last flit is
there the message is forwarded, dropped, or handled by `act` with all its flits; its flits leave the buffer (R283, R284,
R291, R437). -/
def looseMsg (s : State) (p : Nat) (mtype : BitVec 6) (act : State → Nat → List Flit → State) : State :=
  match s.takeRx p mtype with
  | none => s
  | some (f, s) =>
    let q := if goesOn (s.port p).parts f then s.port p else dropParts (s.port p)
    let fs := q.parts ++ [f]
    let s := if !goesOn q.parts f then s.setPort p (freeRx q f 1)
      else if lastFlit f then s.setPort p (freeRx { q with parts := [] } f fs.length) else s.setPort p { q with parts := fs }
    match s.tagged f.ctx with
    | none => s
    | some n =>
      if !admitsFlit s n f then s
      else if planBroken s n f then s.linkPlan n p f
      else if !lastFlit f || !goesOn q.parts f || fs.any (planBroken s n) then s
      else if f.hop ≠ 0 then s.forward n p fs
      else act s n fs

/-- Take a control flit of a context that travels on a route: it is forwarded or handled (R291, R293). -/
def controlMsg (s : State) (p : Nat) (mtype : BitVec 6) (act : State → Nat → Flit → State) : State :=
  match s.takeRx p mtype with
  | none => s
  | some (f, s) =>
    match s.tagged f.ctx with
    | none => s
    | some n => if f.hop ≠ 0 then s.forward n p [f] else act s n f

/-- Take an item that travels on the module, of the kind that `want` accepts. The items of one channel are taken in order
(R254): `first` says that none before it is of its channel. -/
def State.takeTransit (s : State) (i : Nat) (want : Loose → Bool) : Option (Loose × State) :=
  match s.transit[i]? with
  | some l => if want l then some (l, { s with transit := s.transit.eraseIdx i }) else none
  | none => none

/-- A row from its halves. -/
def rowOf (lo hi : BitVec 2048) : Row := hi ++ lo

/-- The rows of the flits of a message, two flits for each. -/
def rowsOf : List Flit → List Row
  | a :: b :: l => rowOf a.payload b.payload :: rowsOf l
  | _ => []

/-! ### Scheduled messages (R288, R311, R313) -/

/-- D rebuilt from DUE: within 2^21 cycles of the current one (R288). -/
def rebuildDue (cc : Nat) (due : BitVec 22) : Int :=
  let lo : Int := (cc : Int) - 2097152
  lo + ((due.toNat : Int) - lo) % 4194304

/-- The expected pair that a scheduled flit's instance belongs to, with D (R288). The current cycle is the one before the
next to execute: a hold may begin at D itself, and then waits for this very message (R35, R40). -/
def expectedFor (s : State) (x : Ctx) (p : Nat) (f : Flit) : Option (Expect × Nat) :=
  let d := rebuildDue x.cc f.due
  if d < schedCc s x then none
  else (x.expects.find? (fun e => decide (e.port = p) && decide (e.route = f.route.toNat) && expectedAt e d.toNat)).map
    (fun e => (e, d.toNat))

/-- A message with its due cycle at least 48 cycles ahead ends the lagging of its route (R41). -/
def catchUp (x : Ctx) (p : Nat) (f : Flit) (due : Nat) : Ctx :=
  if x.cc + 48 ≤ due then { x with lagging := x.lagging.filter (fun r => decide (r ≠ 256 * p + f.route.toNat)) } else x

/-- The instance that a flit is part of, with the flit entered in its half. -/
def enterHalf (x : Ctx) (p due half : Nat) (f : Flit) : Instance :=
  let i := (x.instances.find? (fun i => decide (i.port = p) && decide (i.route = f.route.toNat) && decide (i.due = due))).getD
    { port := p, route := f.route.toNat, due := due, mtype := f.mtype, half0 := none, half1 := none }
  if half = 0 then { i with half0 := some (f.arg, f.payload) } else { i with half1 := some (f.arg, f.payload) }

/-- Put an instance into the context's list. -/
def putInstance (l : List Instance) (i : Instance) : List Instance :=
  l.filter (fun o => !(decide (o.port = i.port) && decide (o.route = i.route) && decide (o.due = i.due))) ++ [i]

/-- VACANT: the instance is present from now on; an arrival that it carries takes effect at D (R172, R288). -/
def vacantArrives (s : State) (p : Nat) : State :=
  scheduled s p 0x01 (fun s n f =>
    let x := s.ctx n
    match expectedFor s x p f with
    | none => (s.leavePort p f 1).linkPlan n p f
    | some (_, d) =>
      let i : Instance := { port := p, route := f.route.toNat, due := d, mtype := 0x01, half0 := some (f.arg, 0), half1 := none }
      let s := s.setCtx n { catchUp x p f d with instances := putInstance x.instances i }
      if bit f.arg 6 then
        s.emit n { arrs := [{ due := d, own := false, cell := argCell f.arg, sig := argSig f.arg, n := 1, bytes := fld f.arg 63 32 }] }
      else s)

def execVacant (p : Fin 16) (s : State) : Host.Outcome State Fault Refusal := .next (vacantArrives s p.val)

/-- An SSTOP may have cut the row short: 64 bytes of it are zero (R161). -/
def maybeCut (v : Row) : Bool := (List.range 8).any (fun k => decide (v.extractLsb' (512 * k) 512 = 0))

/-- Bytes that a row of a link adds to LANDED: those of its issued elements, 512 of a whole row (R161, R230). The flits do not say
whether a row was cut short: where it may have been, the count is a free value (log entry 56). -/
def linkRowBytes (free : Nat) (cut : Bool) : Nat := if cut then 64 * (1 + (Config.freeValue free).toNat % 8) else 512

/-- A scheduled row may be cut short: it carries its group's arrival, and the group's bytes are no whole rows. -/
def rowMaybeCut (a0 a1 : DWord) (v : Row) : Bool := bit a0 63 && decide (fld a1 63 32 % 512 ≠ 0) && maybeCut v

/-- The landing and the arrival of a row that is in the landing buffer whole (R25, R172, R230, Table 8.2). -/
def rowEmit (e : Expect) (free due : Nat) (a0 a1 : DWord) (lo hi : BitVec 2048) : Emit :=
  let land : Landing :=
    { due := due, own := false, cell := argCell a0, row := argRow a0, data := rowOf lo hi, rank := 3, issued := due - e.lat
      tie := e.port, src := e.port, sig := if bit a0 6 then some (argSig a0) else none, bytes := linkRowBytes free (rowMaybeCut a0 a1 (rowOf lo hi)) }
  { lands := [land]
    arrs := if bit a0 63 then
        [{ due := due, own := false, cell := argCell a0, sig := argSig a0, n := 1, bytes := fld a1 63 32 }] else [] }

/-- ROW: one half of a scheduled row enters the landing buffer (R168, R288). -/
def rowArrives (s : State) (p : Nat) : State :=
  scheduled s p 0x02 (fun s n f =>
    let x := s.ctx n
    match expectedFor s x p f with
    | none => (s.leavePort p f 1).linkPlan n p f
    | some (e, d) =>
      let i := enterHalf x p d (b01 (bit f.arg 7)) f
      let s := s.setCtx n { catchUp x p f d with instances := putInstance x.instances i }
      match i.half0, i.half1 with
      | some (a0, lo), some (a1, hi) =>
        { s with free := s.free + b01 (rowMaybeCut a0 a1 (rowOf lo hi)) }.emit n (rowEmit e s.free d a0 a1 lo hi)
      | _, _ => s)

def execRow (p : Fin 16) (s : State) : Host.Outcome State Fault Refusal := .next (rowArrives s p.val)

/-- What a whole REDUCE message brings: an exponent message, or a row with its tag and OVER (R311, R313, R324). -/
def reduceEmit (x : Ctx) (e : Expect) (due : Nat) (a0 : DWord) (lo hi : BitVec 2048) : Ctx × Emit :=
  let id := BitVec.ofNat 14 (fld a0 43 30)
  let tag := fld a0 63 48
  let k := fld a0 47 45
  if bit a0 44 then
    (x, { lands := [{ due := due, own := false, cell := id, row := fld a0 29 20, data := rowOf lo hi, rank := 3
                      issued := due - e.lat, tie := e.port, src := e.port, bucket := some (k, BitVec.ofNat 32 tag)
                      ovf := bit a0 17 }] })
  else
    ({ x with exps := x.exps ++ [{
        due := due, cell := id, k := k, tag := tag, e := sext 16 (fld lo 15 0), nan := bit lo 18, pinf := bit lo 17
        ninf := bit lo 16, ovf := bit lo 19 }] }, {})

/-- REDUCE: one half of a reduction message enters the landing buffer (R311, R313). -/
def reduceArrives (s : State) (p : Nat) : State :=
  scheduled s p 0x0A (fun s n f =>
    let x := s.ctx n
    match expectedFor s x p f with
    | none => (s.leavePort p f 1).linkPlan n p f
    | some (e, d) =>
      let i := enterHalf x p d (b01 (bit f.arg 19)) f
      let x := { catchUp x p f d with instances := putInstance x.instances i }
      match i.half0, i.half1 with
      | some (a0, lo), some (_, hi) =>
        let r := reduceEmit x e d a0 lo hi
        (s.setCtx n r.1).emit n r.2
      | _, _ => s.setCtx n x)

def execReduce (p : Fin 16) (s : State) : Host.Outcome State Fault Refusal := .next (reduceArrives s p.val)

/-! ### Loose rows and signals (R171, R172) -/

/-- A loose row reaches its cell, where it waits for an idle write access (R171). -/
def State.bringRow (s : State) (n : Nat) (id : CellId) (r : LooseRow) : State :=
  s.onCell ⟨Fin.ofNat 32 n, id⟩ (fun cl => { cl with sync := { cl.sync with looseRows := cl.sync.looseRows ++ [r] } })

/-- A loose signal arrives in the cycle in which it reaches its cell (Table 10.1). -/
def State.bringSignal (s : State) (n : Nat) (id : CellId) (k : BitVec 6) (bytes : Nat) : State :=
  s.emit n { arrs := [{ due := 0, own := true, cell := id, sig := k, n := 1, bytes := bytes }] }

/-- ROW_LOOSE: a loose row arrives over a port or from the module (R171). -/
def rowLooseArrives (s : State) (src : MsgSrc) : State :=
  match src with
  | .port p => looseMsg s p.val 0x03 (fun s n fs =>
      match fs with
      | [a, b] =>
        let v := rowOf a.payload b.payload
        { s with free := s.free + b01 (maybeCut v) }.bringRow n (argCell a.arg)
          { row := argRow a.arg, data := v, sig := if bit a.arg 6 then some (argSig a.arg) else none
            bytes := linkRowBytes s.free (maybeCut v), reply := .none }
      | _ => s)
  | .onModule i =>
    match s.takeTransit i (fun l => match l with | .row .. => true | _ => false) with
    | some (.row n id r, s) => s.bringRow n id r
    | _ => s

def execRowLoose (src : MsgSrc) (s : State) : Host.Outcome State Fault Refusal := .next (rowLooseArrives s src)

/-- SIGNAL: a loose signal arrives over a port or from the module (R172, R229). -/
def signalArrives (s : State) (src : MsgSrc) : State :=
  match src with
  | .port p => looseMsg s p.val 0x04 (fun s n fs =>
      match fs with
      | [f] => s.bringSignal n (argCell f.arg) (argSig f.arg) (fld f.arg 63 32)
      | _ => s)
  | .onModule i =>
    match s.takeTransit i (fun l => match l with | .signal .. => true | _ => false) with
    | some (.signal n id k bytes, s) => s.bringSignal n id k bytes
    | _ => s

def execSignal (src : MsgSrc) (s : State) : Host.Outcome State Fault Refusal := .next (signalArrives s src)

/-! ### Queue messages, contributions and results (R249 to R258) -/

/-- The channel of an item that travels on the module: its sender, and the queue it goes to (R254). -/
def channelOf : Loose → Option (Nat × Nat × Nat × Nat × Bool)
  | .qmsg n id m => some (n, m.src.id.toNat, id.toNat, b01 m.q, m.src.comb)
  | .contrib n r q src _ _ => some (n, src.id.toNat, r, 2 + q, src.comb)
  | _ => none

/-- The result is that of the oldest send of its channel without one: the results of a channel follow send order (R254). -/
def resultNext (s : State) (l : Loose) : Bool :=
  match l with
  | .result (.cell n id seq) _ => (s.cell? ⟨Fin.ofNat 32 n, id⟩).all (fun c =>
      match c.sync.sends.find? (fun r => decide (r.seq = seq)) with
      | some r => decide ((c.sync.sends.find? (fun q => decide (q.target = r.target) && q.result.isNone)).map (·.seq) = some seq)
      | none => true)
  | _ => true

/-- No earlier item of the same channel is under way. -/
def firstOfChannel (s : State) (i : Nat) (l : Loose) : Bool :=
  (s.transit.take i).all (fun o => decide (channelOf o ≠ channelOf l))

/-- QMSG: a queue message arrives over a port or from the module (R248, R251). -/
def qmsgArrives (s : State) (src : MsgSrc) : State :=
  match src with
  | .port p => looseMsg s p.val 0x05 (fun s n fs =>
      match fs with
      | f :: _ =>
        let sender : CellId := BitVec.ofNat 14 (fld f.arg 47 34)
        let tag : BitVec 16 := BitVec.ofNat 16 (fld f.arg 63 48)
        match retOf (s.ctx n) f with
        | none => s
        | some r => arriveMessage s n (argCell f.arg)
            { q := bit f.arg 17, tag := tag, src := ⟨f.route, bit f.arg 33, sender⟩, rows := rowsOf fs
              reply := .link p.val r sender tag (fld f.arg 7 0), accepted := false, ringRow := 0 }
      | [] => s)
  | .onModule i =>
    match s.takeTransit i (fun l => (match l with | .qmsg .. => true | _ => false) && firstOfChannel s i l) with
    | some (.qmsg n id m, s) => arriveMessage s n id m
    | _ => s

def execQmsg (src : MsgSrc) (s : State) : Host.Outcome State Fault Refusal := .next (qmsgArrives s src)

/-- CONTRIB: a contribution arrives over a port or from the module (R255, R257). -/
def contribArrives (s : State) (src : MsgSrc) : State :=
  match src with
  | .port p => looseMsg s p.val 0x07 (fun s n fs =>
      match fs with
      | f :: _ =>
        let sender : CellId := BitVec.ofNat 14 (fld f.arg 47 34)
        match retOf (s.ctx n) f with
        | none => s
        | some r => arriveContrib s n (fld f.arg 31 27)
            { q := fld f.arg 26 21, src := ⟨f.route, false, sender⟩, rows := rowsOf fs, reply := .link p.val r sender 0 0 }
      | [] => s)
  | .onModule i =>
    match s.takeTransit i (fun l => (match l with | .contrib .. => true | _ => false) && firstOfChannel s i l) with
    | some (.contrib n region q src rows reply, s) => arriveContrib s n region { q := q, src := src, rows := rows, reply := reply }
    | _ => s

def execContrib (src : MsgSrc) (s : State) : Host.Outcome State Fault Refusal := .next (contribArrives s src)

/-- The send of a cell that a QRESULT answers. The result of a contribution names neither tag nor number: it answers the
oldest contribution without a result that left the module (R249, R254). -/
def answeredSend (cell : Cell) (tag : BitVec 16) (seq : Nat) : Option SendRec :=
  let away (r : SendRec) : Bool := r.result.isNone && decide (tRoute r.target ≠ 0)
  (cell.sync.sends.find? (fun r =>
    away r && decide (tKind r.target ≠ 2) && decide (r.tag = tag) && decide (r.seq % 256 = seq))).orElse (fun _ =>
    if tag = 0 ∧ seq = 0 then cell.sync.sends.find? (fun r => away r && decide (tKind r.target = 2)) else none)

/-- A result that came over a link: for a send of the cell, else for a combining queue of its region whose sum has this
tag (R249, R258). -/
def linkResult (s : State) (n : Nat) (f : Flit) : State :=
  let id := argCell f.arg
  let tag : BitVec 16 := BitVec.ofNat 16 (fld f.arg 63 48)
  let res : BitVec 2 := BitVec.ofNat 2 (fld f.arg 17 16)
  match (s.cell? ⟨Fin.ofNat 32 n, id⟩).bind (fun cl => answeredSend cl tag (fld f.arg 7 0)) with
  | some r => applyResult s (.cell n id r.seq) res
  | none =>
    let q := fld id 8 0
    let u := Mem.rd {} (s.comb n (regionOf id)).qs q
    if u.pending ∧ tag.toNat = 64 * ((u.gen + 1023) % 1024) + q then combResult s n (regionOf id) q res else s

/-! ### Barriers beyond the module (R236, R238 to R241) -/

/-- The values of an arrival that must agree (R239). -/
def flitKey (f : Flit) : Nat × Nat × Bool := (fld f.arg 63 48, 0, bit f.arg 47)

/-- Enter a module's arrival into the instances: it is for the current or for the next generation. -/
def hearModule (x : Ctx) (b scope gen addr : Nat) (key : Nat × Nat × Bool) : List BarInst × Bool :=
  let same (i : BarInst) : Bool := decide (i.b = b) && !i.rejoin && decide (i.scope = scope)
  let l := if x.bars.any same then x.bars else x.bars ++ [{
    b := b, rejoin := false, scope := scope, unit := 0, gen := 0, cur := [], nxt := [], curKey := none, nxtKey := none
    opened := x.cc, lastDone := none, due := [], j := none, checked := false, heard := [], heardNext := [], sent := false }]
  match l.find? same with
  | none => (l, true)
  | some i =>
    let now := decide (i.gen % 4 = gen)
    let next := decide ((i.gen + 1) % 4 = gen)
    let fits := if now then i.curKey.all (fun k => decide (k = key)) else if next then i.nxtKey.all (fun k => decide (k = key)) else true
    let i' := if now then { i with curKey := some key, heard := if i.heard.contains addr then i.heard else i.heard ++ [addr] }
      else if next then { i with nxtKey := some key, heardNext := if i.heardNext.contains addr then i.heardNext else i.heardNext ++ [addr] }
      else i
    (if fits then l.map (fun o => if same o then i' else o) else l, fits)

/-- Every participant of a partner has arrived (R236, R238, R239). -/
def partnerArrived (s : State) (n : Nat) (f : Flit) : State :=
  let x := s.ctx n
  let b := fld f.arg 43 41
  let r := hearModule x b (fld f.arg 46 44) (fld f.arg 40 39) (fld f.payload 17 0) (flitKey f)
  let s := s.setCtx n { x with bars := r.1 }
  if r.2 then s
  else s.emit n { errs := [{ code := 0x0015, unit := 10, free := false, cell := 0, detail := b, cc := x.cc, dome := s.clock.dome }] }

/-- A generation that has gathered every participant of this module is released (R240, R241). -/
def partnerReleased (s : State) (n : Nat) (f : Flit) : State :=
  let mine (i : BarInst) : Bool :=
    decide (i.b = fld f.arg 43 41) && !i.rejoin && decide (i.scope = fld f.arg 46 44) && decide (i.gen % 4 = fld f.arg 40 39)
  match (s.ctx n).bars.find? mine with
  | none => s
  | some i =>
    if i.cur.isEmpty || !(missing s n i).isEmpty then s
    else
      let s := releaseGen s n (releaseCells s n i) (i.curKey.getD (0, 0, false)).2.2
      s.onCtx n (fun x => { x with bars := x.bars.map (fun o => if mine o then nextGen o x.btime else o) })

/-! ### Delivery at the receive side (Table 2.3) -/

/-- The context is in a hold that stops its loose traffic (R36). -/
def loosePaused (x : Ctx) : Bool := x.hold.held && !overrunOnly x.hold

/-- A result or a barrier message takes effect. -/
def takeEffect (s : State) (n : Nat) (f : Flit) : State :=
  if f.mtype = 0x06 then linkResult s n f
  else if f.mtype = 0x08 then partnerArrived s n f
  else if f.mtype = 0x09 then partnerReleased s n f
  else s

/-- A result or a barrier message reaches the context's receive side: it waits there during a hold (R36, Table 2.3). -/
def State.deliver (s : State) (n p : Nat) (f : Flit) : State :=
  if loosePaused (s.ctx n) then s.onCtx n (fun x => { x with waiting := x.waiting ++ [(p, f)] }) else takeEffect s n f

/-- After the release, what has waited is delivered in the order of its arrival (Table 2.3). -/
def State.deliverWaiting (s : State) (n : Nat) : State :=
  if loosePaused (s.ctx n) then s
  else (s.ctx n).waiting.foldl (fun s e => takeEffect s n e.2) (s.onCtx n (fun x => { x with waiting := [] }))

/-- BAR_ARRIVE (R236, R238, R239). -/
def execBarArrive (p : Fin 16) (s : State) : Host.Outcome State Fault Refusal :=
  .next (looseMsg s p.val 0x08 (fun s n fs => fs.foldl (fun s f => s.deliver n p.val f) s))

/-- BAR_RELEASE (R240, R241). -/
def execBarRelease (p : Fin 16) (s : State) : Host.Outcome State Fault Refusal :=
  .next (looseMsg s p.val 0x09 (fun s n fs => fs.foldl (fun s f => s.deliver n p.val f) s))

/-- QRESULT: the result of a send returns (R249, R250, R258); during a hold it waits, on the module in transit (Table 2.3). -/
def qresultArrives (s : State) (src : MsgSrc) : State :=
  match src with
  | .port p => looseMsg s p.val 0x06 (fun s n fs => fs.foldl (fun s f => s.deliver n p.val f) s)
  | .onModule i =>
    match s.takeTransit i (fun l => (match l with | .result .. => !loosePaused (s.ctx l.of) | _ => false) && resultNext s l) with
    | some (.result goal res, s) => applyResult s goal res
    | _ => s

def execQresult (src : MsgSrc) (s : State) : Host.Outcome State Fault Refusal := .next (qresultArrives s src)

/-! ### Summaries (R260) -/

/-- SUMMARY: the summary of a module of the node. -/
def summaryArrives (s : State) (p : Nat) : State :=
  looseMsg s p 0x0B (fun s n fs =>
    match fs with
    | [f] =>
      let count (k : Nat) : Nat := fld f.payload (24 + 128 * k + 63) (24 + 128 * k)
      let back (k : Nat) : Nat := fld f.payload (24 + 128 * k + 127) (24 + 128 * k + 64)
      let ks := List.range 8
      s.onCtx n (fun x =>
        if x.state = .running ∧ x.image.group = 1 then
          enterSummary x (s.partnerAt p) (bit f.payload 16) (ks.map count) (ks.map back)
        else x)
    | _ => s)

def execSummary (p : Fin 16) (s : State) : Host.Outcome State Fault Refusal := .next (summaryArrives s p.val)

/-! ### Notices (R41, R293, R294, R365, R366) -/

/-- HOLD_NOTICE: the sender's route lags (R41). -/
def holdNotice (s : State) (p : Nat) : State :=
  controlMsg s p 0x11 (fun s n f =>
    s.onCtx n (fun x =>
      if takesMessages s x then
        let r := 256 * p + f.route.toNat
        { x with hold := { x.hold with notice := true }, lagging := if x.lagging.contains r then x.lagging else x.lagging ++ [r] }
      else x))

def execHoldNotice (p : Fin 16) (s : State) : Host.Outcome State Fault Refusal := .next (holdNotice s p.val)

/-- RELEASE_NOTICE: a partner goes on (R41); its routes stop lagging with their messages. -/
def execReleaseNotice (p : Fin 16) (s : State) : Host.Outcome State Fault Refusal :=
  .next (controlMsg s p.val 0x12 (fun s _ _ => s))

/-- Keep a notice for a tag of no context: the last 64 of them (R366). -/
def State.keepNotice (s : State) (tag : BitVec 16) (dome p : Nat) : State :=
  { (s.onPort p (fun q => { q with discard := satInc 0xFFFF q.discard })) with
    oldKills := (s.oldKills ++ [(tag, dome, p)]).drop (s.oldKills.length - 63) }

/-- KILL_NOTICE: the context of the tag is killed, unless the notice is older than its LOAD; the kill's receipt sends the
notice on (R294, R365, R366). -/
def killNotice (s : State) (p : Nat) : State :=
  match s.takeRx p 0x13 with
  | none => s
  | some (f, s) =>
    let dome := fld f.payload 63 0
    match s.tagged f.ctx with
    | none => s.keepNotice f.ctx dome p
    | some n =>
      let x := s.ctx n
      if dome < x.acceptDome then s
      else if killable x then
        s.beginKill n 3 { code := 3, unit := 9, free := false, cell := 0, detail := 16 * fld (s.port p).partnerWord 44 27 + p
                          cc := x.cc, dome := s.clock.dome } (some (p, dome))
      else s

def execKillNotice (p : Fin 16) (s : State) : Host.Outcome State Fault Refusal := .next (killNotice s p.val)

end Sys2Proof.Machine
end

