-- ==== Sys2Proof/Machine/Timing.lean ====
section
/-!
DEFINITION. Sys2Proof/Machine/Timing.lean: time alignment (R295 to R300, R415 to R417), the clock that the module proposes
and the group's agreement (R24, R301, R411, R414), and frequency changes (R19, R43).
-/
namespace Sys2Proof.Machine

/-! ### The proposed clock (R20, R411) -/

/-- The grade maximum in kHz (R20). -/
def maxClock (g : Grade) : Nat := match g with | .liquid => 1500000 | .air => 900000

/-- The core clock steps of R411. -/
def clockStep (g : Grade) (khz : Nat) : Bool := decide (400000 ≤ khz) && decide (khz ≤ maxClock g) && decide (khz % 25000 = 0)

/-- The core clock changes: the part of a tick that has passed keeps its length (R4, R43). -/
def Clocks.setKhz (c : Clocks) (khz : Nat) : Clocks :=
  let scale (a : Nat) : Nat := if c.khz = 0 then a else a * khz / c.khz
  { c with khz := khz, domeAcc := scale c.domeAcc, nsAcc := scale c.nsAcc }

/-- The highest step of R411 up to a clock, and the lowest one where none is. -/
def stepUpTo (g : Grade) (khz : Nat) : Nat := 400000 + 25000 * ((min khz (maxClock g) - 400000) / 25000)

/-- The model cap at an envelope: the highest step that the factory calibrated for it (R411). -/
def State.modelCapAt (s : State) (w : Nat) : Nat := stepUpTo s.grade (Config.modelCap (decide (s.grade = .liquid)) w)

/-- The model cap at the envelope in force (R19). -/
def State.modelCap (s : State) : Nat := s.modelCapAt s.clock.envelope

/-- The lowest of the four caps, which the module proposes. The model cap is that of the envelope as it is stored: it comes
into force with the change that the proposal brings about (R19, R24, R411; log entry 75). -/
def State.lowestCap (s : State) : Nat :=
  min (min (maxClock s.grade) (s.modelCapAt s.lantern.od.envelope)) (min s.clock.measured s.clock.thermal)

/-- The partner is up, and its link carries flits. -/
def State.portActive (s : State) (p : Nat) : Bool := decide ((s.port p).state = .active)

/-- This module is the root of R296. -/
def State.isRoot (s : State) : Bool :=
  decide (s.lantern.od.timeMode = 1) && decide (s.ownAddress = s.lantern.od.rootAddress.toNat % 2 ^ 18)

/-- Send a control flit that belongs to no context over one hop. -/
def State.sendHop (s : State) (p : Nat) (mtype : BitVec 6) (arg payload : Nat) : State :=
  s.onPort p (fun q => { q with ctrl := q.ctrl ++ [{ idleFlit with
    cls := 1, mtype := mtype, arg := BitVec.ofNat 64 arg, payload := BitVec.ofNat 2048 payload }] })

/-- Payload of a CLOCK_AGREE flit (Table 11.7). -/
def agreePayload (khz f addr : Nat) : Nat := khz % 2 ^ 32 + 2 ^ 32 * (f % 2 ^ 64) + 2 ^ 96 * (addr % 2 ^ 24)

/-- The port over which proposals travel: 15, or the way to the root (R301). -/
def State.agreePort (s : State) : Option Nat := if s.lantern.od.timeMode = 1 then s.clock.input else some 15

/-- The sync groups of the module's contexts are the module alone (R414). -/
def State.groupAlone (s : State) : Bool := s.ctxs.all (fun e => decide (e.2.state = .free) || decide (e.2.image.group = 0))

/-- A change at F to a clock is agreed: the envelope that is stored now comes into force with it (R19, R43). -/
def State.agree (s : State) (f khz : Nat) : State :=
  { s with clock := { s.clock with
      pendingF := insertBy (·.f) { f := f, khz := khz, envelope := s.lantern.od.envelope } s.clock.pendingF } }

/-- Nodes round dimension `d` of the torus (R18). -/
def torusSize (d : Nat) : Nat := if d = 3 then 8 else 16

/-- The torus port from a node towards the root: along the first dimension in which the nodes differ, the shorter way round
(R296; log entry 76). -/
def towardsRoot (addr root : Nat) : Option Nat :=
  ((List.range 4).find? (fun d => decide (coordOf addr d ≠ coordOf root d))).map (fun d =>
    let n := torusSize d
    if 2 * ((coordOf root d + n - coordOf addr d) % n) ≤ n then 7 + 2 * d else 8 + 2 * d)

/-- The port of a module that leads to its time input under R296: position 0 of the node over the node port, and from there
the torus port towards the root. -/
def rootInput (addr root : Nat) : Option Nat :=
  if addr % 8 = 0 then towardsRoot addr root else some ((15 - addr % 8) % 8)

/-- Under R296, the ports of this module behind which a module has its time input over that very link: its own neighbours
down the paths. -/
def State.downPorts (s : State) : List Nat :=
  (List.range 15).filter (fun p =>
    let w := (s.port p).partnerWord
    s.portActive p && decide (rootInput (fld w 44 27) (s.lantern.od.rootAddress.toNat % 2 ^ 18) = some (fld w 51 47)))

/-- Send a decision down the paths of R296, and where a proposal has come from. -/
def State.sendDown (s : State) (payload : Nat) : State :=
  ((s.downPorts ++ s.clock.below).eraseDups).foldl (fun s p => s.sendHop p 0x14 1 payload) s

/-- The root of R296 decides: the lowest of the clocks proposed, at a dome count 100 µs ahead (R24, R301). -/
def State.decideClock (s : State) : State :=
  let khz := s.clock.proposals.foldl (fun m e => min m e.2) s.clock.proposed
  let f := s.clock.dome + 100000
  (s.agree f khz).sendDown (agreePayload khz f s.ownAddress)

/-- Send the module's proposal on its way (R301). -/
def State.sendProposal (s : State) : State :=
  if s.isRoot then s.decideClock
  else match s.agreePort with
    | some p => s.sendHop p 0x14 0 (agreePayload s.clock.proposed 0 s.ownAddress)
    | none => s

/-- Choose the clock to propose; a change is sent, and a module whose group is itself alone applies it 100 µs later
(R301, R411, R414). -/
def State.propose (s : State) : State :=
  let khz := s.lowestCap
  if khz = s.clock.proposed then s
  else
    let s := { s with clock := { s.clock with proposed := khz } }
    let s := s.sendProposal
    if s.groupAlone ∧ !s.isRoot then s.agree (s.clock.dome + 100000) khz else s

/-- FREQUENCY_CHANGE: at dome count F the module switches its core clock, and the envelope that went with the agreement
comes into force (R19, R43). A clock that a POWER hold has lowered stays so until the release (R44). -/
def frequencyChange (s : State) : State :=
  match s.clock.pendingF with
  | e :: rest =>
    if e.f ≤ s.clock.dome then
      let c := if s.clock.khz = s.clock.groupKhz then s.clock.setKhz e.khz else s.clock
      { s with clock := { c with groupKhz := e.khz, pendingF := rest, envelope := e.envelope } }
    else s
  | [] => s

def execFrequencyChange (s : State) : Host.Outcome State Fault Refusal := .next (frequencyChange s)

/-- CLOCK_AGREE: a proposal on its way to the root, or a decision, which comes from the port that proposals leave over
(R301). A decision that breaks a condition is ignored, and the module proposes again. -/
def clockAgree (s : State) (p : Nat) : State :=
  match s.takeRx p 0x14 with
  | none => s
  | some (f, s) =>
    let khz := fld f.payload 31 0
    let at' := fld f.payload 95 32
    let root := decide (s.lantern.od.timeMode = 1)
    if fld f.arg 1 0 = 0 then
      if !root then s
      else
        let s := { s with clock := { s.clock with below := if s.clock.below.contains p then s.clock.below else s.clock.below ++ [p] } }
        if s.isRoot then
          { s with clock := { s.clock with proposals := Mem.put s.clock.proposals (fld f.payload 119 96) khz } }.decideClock
        else match s.clock.input with
          | some q => s.sendHop q 0x14 0 f.payload.toNat
          | none => s
    else if fld f.arg 1 0 = 1 ∧ s.agreePort = some p then
      let s := if root then s.sendDown f.payload.toNat else s
      if s.clock.dome + 50000 ≤ at' ∧ clockStep s.grade khz then s.agree at' khz else s.sendProposal
    else s

def execClockAgree (p : Fin 16) (s : State) : Host.Outcome State Fault Refusal := .next (clockAgree s p.val)

/-! ### Time roles and inputs (R295, R296, R300) -/

/-- The node port that leads to a position of the node (R277). -/
def State.nodePort (s : State) (pos : Nat) : Nat := (pos + 15 - s.ownAddress % 8) % 8

/-- The role that a time input gives: 1 member over a node port, 2 node master over port 15 or, under R296, a torus
port. -/
def roleOf (p : Nat) : Nat := if p ≤ 6 then 1 else 2

/-- The bound of a role in 1/64 ns: 0.875 ns for a master, 0.125 ns for a member (R295, R296). -/
def roleBound (role : Nat) : Int := if role = 1 then 8 else 56

/-- Node positions that may be the node master, `lost` being a port that can no longer be an input: those that have said
over their node port that they are locked and, where they have said their role, that it is not that of a member; and this
one where its port 15 is ACTIVE and its partner there is locked (R295, R300; log entry 42). -/
def State.masters (s : State) (lost : Option Nat) : List Nat :=
  (List.range 8).filter (fun k =>
    let p := if k = s.ownAddress % 8 then 15 else s.nodePort k
    s.portActive p && (s.port p).partnerLocked && decide (lost ≠ some p) &&
    (decide (p = 15) || decide ((s.port p).partnerRole ≠ some 1)))

/-- The time role that the module takes, with its input (R295, R296, R300). -/
def State.chooseInput (s : State) (lost : Option Nat) : Nat × Option Nat :=
  let own := s.ownAddress % 8
  if s.lantern.od.timeMode = 1 then
    if s.isRoot then (3, none)
    else (if own = 0 then 2 else 1, rootInput s.ownAddress (s.lantern.od.rootAddress.toNat % 2 ^ 18))
  else match s.masters lost with
    | k :: _ => if k = own then (2, some 15) else (1, some (s.nodePort k))
    | [] => if own = 0 then (0, none) else (1, some (s.nodePort 0))

/-- The module takes port `r.2` as its time input in role `r.1`. -/
def State.takeInput (s : State) (r : Nat × Option Nat) : State :=
  let s := (List.range 16).foldl (fun s p => s.onPort p (fun q => { q with timeIn := decide (r.2 = some p) })) s
  { s with clock := { s.clock with role := r.1, input := r.2, exchange := none, lastSync := s.clock.dome } }

/-- What the partners have said of their roles is out of date: a position whose master is gone may take the role (R300). -/
def State.forgetRoles (s : State) : State := s.onPorts (fun q => { q with partnerRole := none })

/-- The reference is gone: the module is in HOLDOVER, and steers no longer (R416). -/
def Clocks.lose (c : Clocks) : Clocks := { c with refState := 2, refLost := true, steer := 0 }

/-- The module follows a time input: it is LOCKED, or steers back to it, or S10 locks it (R409, R416, R417, Table 16.6). -/
def State.follows (s : State) : Bool :=
  decide (s.clock.refState = 1) || decide (s.clock.steer ≠ 0) || (decide (s.bring.at_ = .stage 10) && !s.isRoot)

/-- TIME_INPUT_LOST: no valid TIME_SYNC for 10 µs; the module chooses again (R300). -/
def timeInputLost (s : State) : State :=
  match s.clock.input with
  | none => s
  | some p =>
    if s.clock.lastSync + 10000 ≤ s.clock.dome then
      let s := (s.onPort p (fun q => { q with partnerLocked := false })).forgetRoles
      let s := s.takeInput (s.chooseInput (some p))
      { s with clock := if s.follows then s.clock.lose else s.clock }
    else s

def execTimeInputLost (s : State) : Host.Outcome State Fault Refusal := .next (timeInputLost s)

/-- REFERENCE_LOST: the recovered clock of the time input is gone (R416). -/
def execReferenceLost (s : State) : Host.Outcome State Fault Refusal :=
  .next (if s.follows then { s with clock := s.clock.lose } else s)

/-- The signed value of OFFSET in 1/64 ns (Table 11.14). -/
def offsetInt (o : BitVec 24) : Int := o.toInt

/-- A measured offset: within the role's bound a module in HOLDOVER is LOCKED again, beyond it the count is steered back
at 50 ppm (R298, R417). -/
def State.takeOffset (s : State) (p : Nat) (o : BitVec 24) : State :=
  let c := s.clock
  let v := offsetInt o
  let close := decide (-(roleBound c.role) ≤ v) && decide (v ≤ roleBound c.role)
  { s with clock := { c with
      offset := o, lastSync := c.dome
      refState := if c.refState = 2 ∧ close then 1 else c.refState
      refPort := if c.refState = 2 ∧ close then p else c.refPort
      steer := if close ∨ c.refState ≠ 2 then 0 else if 0 < v then 50 else -50 } }

/-- REFERENCE_RESTORED: a new or restored time input is valid: a module in HOLDOVER takes the one that its role gives, one
in FREE_RUN after S10 only notes it (R417). -/
def referenceRestored (s : State) (o : BitVec 24) : State :=
  let r := s.chooseInput none
  match r.2 with
  | none => s
  | some p =>
    if s.clock.refState = 2 then (s.takeInput r).takeOffset p o
    else if s.clock.refState = 0 ∧ s.clock.domeValid then { s with clock := { s.clock with lateInput := true } }
    else s

def execReferenceRestored (offset : BitVec 24) (s : State) : Host.Outcome State Fault Refusal :=
  .next (referenceRestored s offset)

/-! ### TIME_SYNC exchanges (R297) -/

/-- Payload of a TIME_SYNC flit: t1 to t4, TIME_LOCKED and the role (Table 11.7). Its own time is put in where it crosses
the PHY (`stampSync`). -/
def syncPayload (s : State) (t1 t2 : Nat) : Nat :=
  t1 + 2 ^ 64 * t2 + 2 ^ 256 * b01 (decide (s.clock.refState = 1)) + 2 ^ 264 * s.clock.role

/-- TIME_SYNC_TIMER: every 1,024 ns the module asks its time input (R297). -/
def timeSyncTimer (s : State) : State :=
  match s.clock.input with
  | none => s
  | some p =>
    if s.portActive p ∧ s.clock.syncStart + 1024 ≤ s.clock.dome then
      { s.sendHop p 0x10 0 (syncPayload s 0 0) with
        clock := { s.clock with exchange := none, syncStart := s.clock.dome } }
    else s

def execTimeSyncTimer (s : State) : Host.Outcome State Fault Refusal := .next (timeSyncTimer s)

/-- The partner's offset ((t2 - t1) - (t4 - t3)) / 2, as OFFSET holds it (R297, Table 11.14). -/
def syncOffset (t1 t2 t3 t4 : DWord) : BitVec 24 := (((t2 - t1) - (t4 - t3)).sshiftRight 1).setWidth 24

/-- The round trip (t4 - t1) - (t3 - t2) (R297). -/
def syncRoundTrip (t1 t2 t3 t4 : DWord) : Nat := ((t4 - t1) - (t3 - t2)).toNat

/-- The time at which the oldest TIME_SYNC flit of a port crossed the PHY (R297). -/
def syncStamp (q : Port) : Nat := q.stamps.headD 0

/-- A member whose time input turns out to be a member itself chooses again (R295, R300). -/
def State.leaveMember (s : State) (p : Nat) : State :=
  let r := s.chooseInput none
  if s.lantern.od.timeMode ≠ 1 ∧ (s.port p).partnerRole = some 1 ∧ s.clock.input = some p ∧ r.2 ≠ some p then s.takeInput r else s

/-- TIME_SYNC: a request is answered with t2, when it came; t3 is put in as the reply leaves. A reply that ends the exchange
in progress gives the offset and the round trip, with t4, when it came (R297). Every flit says whether its sender is locked,
and its role (R300). -/
def timeSync (s : State) (p : Nat) : State :=
  match s.takeRx p 0x10 with
  | none => s
  | some (f, s) =>
    let t := syncStamp (s.port p)
    let s := s.onPort p (fun q => { q with
      stamps := q.stamps.tail, partnerLocked := decide (fld f.payload 263 256 ≠ 0), partnerRole := some (fld f.payload 271 264) })
    let word (k : Nat) : DWord := f.payload.extractLsb' (64 * k) 64
    if fld f.arg 1 0 = 0 then s.sendHop p 0x10 1 (syncPayload s (word 0).toNat t)
    else if fld f.arg 1 0 = 1 ∧ s.clock.exchange = some (p, (word 0).toNat) then
      (({ s with clock := { s.clock with
          exchange := none, roundTrip := syncRoundTrip (word 0) (word 1) (word 2) (BitVec.ofNat 64 t) } }).takeOffset p
        (syncOffset (word 0) (word 1) (word 2) (BitVec.ofNat 64 t))).leaveMember p
    else s

def execTimeSync (p : Fin 16) (s : State) : Host.Outcome State Fault Refusal := .next (timeSync s p.val)

end Sys2Proof.Machine
end

