-- ==== Sys2Proof/Machine/Power.lean ====
section
/-!
DEFINITION. Sys2Proof/Machine/Power.lean: supplies (R402, R403, R424), power and thermal caps and holds (R411 to R413, R432).
Voltages are in mV, powers in W, temperatures in 0.1 °C, times in µs or dome counts.
-/
namespace Sys2Proof.Machine

/-! ### Supplies (Table 16.1) -/

/-- The lantern's part that survives a loss of power: the persistent store, the log, the firmware slots and the fuses
(R387, R393 to R395, R402). -/
def Lantern.kept (l : Lantern) : Lantern :=
  { copyA := l.copyA, copyB := l.copyB, seqA := l.seqA, seqB := l.seqB, crcA := l.crcA, crcB := l.crcB, wear := l.wear, log := l.log, slotA := l.slotA
    slotB := l.slotB, activeB := l.activeB, committed := l.committed, fuses := l.fuses }

/-- Everything volatile is lost; bring-up stands at `goal` (R402, R403, R372). Commands that wait, and what has left the
module, are not part of the module. -/
def State.lose (s : State) (goal : BringUp) : State :=
  { grade := s.grade, stepping := s.stepping, lantern := s.lantern.kept
    power := { v54mv := s.power.v54mv, v12mv := s.power.v12mv, first := s.power.first, present := s.power.present }
    bring := { at_ := goal }, out := s.out, free := s.free, pending := s.pending }

/-- 54 V and 12 V within their operating ranges (R402). -/
def supplyRange (v54 v12 : Nat) : Bool :=
  decide (50000 ≤ v54) && decide (v54 ≤ 58000) && decide (11400 ≤ v12) && decide (v12 ≤ 12600)

/-- SUPPLY_IN_RANGE: both supplies have been in range for 20 ms, and S0 begins (R402) unless PRESENT# is not mated yet (R424).
In a module that runs already the event only brings the inputs that PWR_INPUT shows (Table 16.11). -/
def supplyInRange (s : State) (first : Byte) (v54 v12 : Nat) : State :=
  if supplyRange v54 v12 then
    let s := { s with power := { s.power with
      first := if s.bring.at_ = .off then first else s.power.first, v54mv := v54, v12mv := v12 } }
    if s.bring.at_ = .off ∧ s.power.present then { s with bring := { s.bring with at_ := .stage 0 } } else s
  else s

def execSupplyInRange (first : Byte) (v54mv v12mv : Nat) (s : State) : Host.Outcome State Fault Refusal :=
  .next (supplyInRange s first v54mv v12mv)

/-- A supply is outside its range: during S0 the stage is going to fail (Table 16.2). -/
def State.leaveRange (s : State) : State :=
  if s.bring.at_ = .stage 0 then { s with bring := { s.bring with supplyLeft := true } } else s

/-- SUPPLY_LOW: 54 V at or above 44.0 V and below 50.0 V holds every context with cause POWER (Table 16.1, R44). -/
def supplyLow (s : State) (mv : Nat) : State :=
  if 44000 ≤ mv ∧ mv < 50000 ∧ s.bring.at_ ≠ .off then
    { s.leaveRange with power := { s.power with v54mv := mv, supplyLow := true } }.holdAll .power 0
  else s

def execSupplyLow (mv : Nat) (s : State) : Host.Outcome State Fault Refusal := .next (supplyLow s mv)

/-- SUPPLY_RESTORED: 54 V back at or above 50.5 V clears POWER, and the group clock is restored (Table 16.1, R44). -/
def supplyRestored (s : State) (mv : Nat) : State :=
  if 50500 ≤ mv then
    { s with
      power := { s.power with v54mv := mv, supplyLow := false }
      clock := if s.power.supplyLow then s.clock.setKhz s.clock.groupKhz else s.clock }
  else s

def execSupplyRestored (mv : Nat) (s : State) : Host.Outcome State Fault Refusal := .next (supplyRestored s mv)

/-- The events of Table 16.1 that shut the module down, and removal (R424). -/
def shutsDown : ShutCause → Bool
  | .v54 mv us => decide (mv < 44000) || decide (60000 < mv) || (decide (mv < 50000) && decide (20000 < us))
  | .v12 mv us => (decide (mv < 10800) || decide (13200 < mv)) && decide (50 < us)
  | .removal => true

/-- SHUTDOWN: every clock stops (R403). -/
def shutdown (s : State) (cause : ShutCause) : State :=
  if shutsDown cause then
    let s := s.lose .off
    match cause with
    | .v54 mv _ => { s with power := { s.power with v54mv := mv } }
    | .v12 mv _ => { s with power := { s.power with v12mv := mv } }
    | .removal => { s with power := { s.power with v54mv := 0, v12mv := 0, present := false } }
  else s

def execShutdown (cause : ShutCause) (s : State) : Host.Outcome State Fault Refusal := .next (shutdown s cause)

/-- V12_EXCURSION: 12 V outside its range without a shutdown sets V12_RANGE (Table 16.1). -/
def v12Excursion (s : State) (mv us : Nat) : State :=
  let outside := decide (mv < 11400) || decide (12600 < mv)
  if outside && !shutsDown (.v12 mv us) && decide (s.bring.at_ ≠ .off) then
    { s.leaveRange with power := { s.power with v12mv := mv, v12Range := true } }
  else s

def execV12Excursion (mv us : Nat) (s : State) : Host.Outcome State Fault Refusal := .next (v12Excursion s mv us)

/-- V54_HIGH: 54 V above 58.0 V and at or below 60.0 V (Table 16.1). -/
def v54High (s : State) (mv : Nat) : State :=
  if 58000 < mv ∧ mv ≤ 60000 ∧ s.bring.at_ ≠ .off then { s.leaveRange with power := { s.power with v54mv := mv, v54High := true } } else s

def execV54High (mv : Nat) (s : State) : Host.Outcome State Fault Refusal := .next (v54High s mv)

/-- S0 begins at a time after the supplies entered their range that nothing has told the module: START_US of S0 is a free value
(R406; log entry 7). -/
def State.lateStart (s : State) : State :=
  { s with bring := { s.bring with at_ := .stage 0, startUs := (Config.freeValue s.free).toNat % 2 ^ 32 }, free := s.free + 1 }

/-- PRESENT_MATE: PRESENT# has been mated for 20 ms, and 54 V current may be drawn (R424): where the supplies have been in
range before, S0 begins now (R402). -/
def presentMate (s : State) : State :=
  let starts := !s.power.present && decide (s.bring.at_ = .off) && supplyRange s.power.v54mv s.power.v12mv
  let s := { s with power := { s.power with present := true } }
  if starts then s.lateStart else s

def execPresentMate (s : State) : Host.Outcome State Fault Refusal := .next (presentMate s)

/-! ### Input power (R412) -/

/-- 110 % of the grade's ceiling. -/
def powerLimit (g : Grade) : Nat := match g with | .liquid => 3740 | .air => 1760

/-- POWER_SAMPLE: the averages over 100 µs, 1 ms and 10 ms. Above 110 % of the ceiling every context is held with cause
POWER, which clears once the 1 ms average falls below the envelope. -/
def powerSample (s : State) (a100 a1 a10 : Nat) : State :=
  let s := { s with power := { s.power with
    p54 := a1, p54avg10 := a10
    peaks := s.power.peaks.filter (fun e => decide (s.clock.ns < e.1 + 10000000)) ++ [(s.clock.ns, a100)] } }
  if powerLimit s.grade < a100 then { s with power := { s.power with overPower := true } }.holdAll .power 0
  else if a1 < s.clock.envelope then { s with power := { s.power with overPower := false } }
  else s

def execPowerSample (avg100us avg1ms avg10ms : BitVec 16) (s : State) : Host.Outcome State Fault Refusal :=
  .next (powerSample s avg100us.toNat avg1ms.toNat avg10ms.toNat)

/-- One step down, not below 0.4 GHz, or one step up, not above a limit (R411). -/
def stepDown (khz : Nat) : Nat := max 400000 (khz - 25000)
def stepUp (khz limit : Nat) : Nat := if khz + 25000 ≤ limit then khz + 25000 else khz

/-- So many nanoseconds have passed since a cap's last step; the first one is possible at once (log entry 65). -/
def Clocks.passed (c : Clocks) (last : Option Nat) (span : Nat) : Bool := last.all (fun t => decide (t + span ≤ c.ns))

/-- MEASURED_CAP_STEP: one step down every 10 ms while the 10 ms average exceeds the envelope, one step up every 100 ms
while it stays 100 W below (R412). -/
def measuredCapStep (s : State) : State :=
  let c := s.clock
  if c.envelope < s.power.p54avg10 ∧ c.passed c.measuredAt 10000000 then
    { s with clock := { c with measured := stepDown c.measured, measuredAt := some c.ns } }.propose
  else if s.power.p54avg10 + 100 < c.envelope ∧ c.passed c.measuredAt 100000000 then
    { s with clock := { c with measured := stepUp c.measured s.modelCap, measuredAt := some c.ns } }.propose
  else s

def execMeasuredCapStep (s : State) : Host.Outcome State Fault Refusal := .next (measuredCapStep s)

/-! ### Sensors (R413, R432) -/

/-- The reading of sensor `k`, 0 to 63, in 0.1 °C. -/
def State.sensor (s : State) (k : Nat) : Int := Mem.rd 0 s.power.sensors k

/-- Every sensor reads below RELEASE_C. -/
def State.allCool (s : State) : Bool := (List.range 64).all (fun k => decide (s.sensor k < 10 * s.lantern.od.releaseC))

/-- THERMAL_CAP_STEP: one step down every 10 ms while any sensor reads above HOLD_C - 5 °C, one step up every 100 ms while
every sensor reads below RELEASE_C (R413). -/
def thermalCapStep (s : State) : State :=
  let c := s.clock
  let hot := (List.range 64).any (fun k => decide (10 * s.lantern.od.holdC - 50 < s.sensor k))
  if hot ∧ c.passed c.thermalAt 10000000 then
    { s with clock := { c with thermal := stepDown c.thermal, thermalAt := some c.ns } }.propose
  else if s.allCool ∧ c.passed c.thermalAt 100000000 then
    { s with clock := { c with thermal := stepUp c.thermal (maxClock s.grade), thermalAt := some c.ns } }.propose
  else s

def execThermalCapStep (s : State) : Host.Outcome State Fault Refusal := .next (thermalCapStep s)

/-- A sensor has a new reading. -/
def State.readSensor (s : State) (k : Nat) (tenths : BitVec 16) : State :=
  { s with power := { s.power with sensors := Mem.put s.power.sensors k tenths.toInt } }

/-- SENSOR_HOLD: a sensor at or above HOLD_C holds every context with cause THERMAL (R44, R413). -/
def sensorHold (s : State) (k : Nat) (tenths : BitVec 16) : State :=
  let s := s.readSensor k tenths
  if 10 * s.lantern.od.holdC ≤ tenths.toInt then
    { s with power := { s.power with
        thermalHold := true, thermalSrc := if s.power.thermalHold then s.power.thermalSrc else k } }.holdAll .thermal k
  else s

def execSensorHold (sensor : BitVec 6) (tenths : BitVec 16) (s : State) : Host.Outcome State Fault Refusal :=
  .next (sensorHold s sensor.toNat tenths)

/-- SENSOR_RELEASE: THERMAL clears once every sensor reads below RELEASE_C (R413). -/
def sensorRelease (s : State) (k : Nat) (tenths : BitVec 16) : State :=
  let s := s.readSensor k tenths
  if s.allCool then { s with power := { s.power with thermalHold := false } } else s

def execSensorRelease (sensor : BitVec 6) (tenths : BitVec 16) (s : State) : Host.Outcome State Fault Refusal :=
  .next (sensorRelease s sensor.toNat tenths)

/-- OVERTEMP_SHUTDOWN: a sensor at 120 °C or more for 1 ms shuts the module down (R432). -/
def overtempShutdown (s : State) (k : Nat) (tenths : BitVec 16) : State :=
  if 1200 ≤ tenths.toInt then s.lose .off else s.readSensor k tenths

def execOvertempShutdown (sensor : BitVec 6) (tenths : BitVec 16) (s : State) : Host.Outcome State Fault Refusal :=
  .next (overtempShutdown s sensor.toNat tenths)

end Sys2Proof.Machine
end

