-- ==== Sys2Proof/Machine/BringUp.lean ====
section
/-!
DEFINITION. Sys2Proof/Machine/BringUp.lean: the persistent store at a start (R389, R390, R393), the boot ROM (R394 to R396),
stages S0 to S11 (R404 to R409), warm re-entry (R410), resets of the PCIe ports (R354, R407) and crossing timeouts (R420).
-/
namespace Sys2Proof.Machine

/-! ### Stage records (Table 16.3) -/

/-- Put a stage's record: RESULT 1 PASS, 2 WARN, 3 FAIL; `detail` as bit fields of the record. The stage's start and the
next stage's start follow from the durations (R406). -/
def State.stageRecord (s : State) (stage result dur : Nat) (detail : List (Nat × Nat × Nat)) : State :=
  let r : Codeword := packFields 512 ([(7, 0, stage), (15, 8, result), (23, 16, b01 s.bring.warm), (63, 32, s.lantern.od.startCount),
    (95, 64, s.bring.startUs), (127, 96, dur)] ++ detail)
  { s with bring := { s.bring with records := Mem.put s.bring.records stage r, startUs := s.bring.startUs + dur } }

/-- A stage ends well: STAGE shows it, and the next one begins. -/
def State.stageDone (s : State) (stage : Nat) : State :=
  { s with clock := { s.clock with stage := stage }, bring := { s.bring with at_ := .stage (stage + 1) } }

/-- A fatal failure stops bring-up (R405). -/
def State.stageFatal (s : State) : State := { s with bring := { s.bring with at_ := .fatal } }

/-- Run a stage's work where bring-up stands at it. -/
def State.atStage (s : State) (stage : Nat) (body : State → State) : State :=
  if s.bring.at_ = .stage stage then body s else s

/-- Bit `8 * byte` of a record and up, `n` bytes. -/
def recBytes (byte n v : Nat) : Nat × Nat × Nat := (8 * (byte + n) - 1, 8 * byte, v)

/-! ### S0: the persistent store (R389, R390, R393) -/

/-- The defaults of Table 15.4 for a grade. -/
def defaultOd (g : Grade) : OdVals := { envelope := match g with | .liquid => 3400 | .air => 1600 }

/-- The values of group `g` at a start: the intact copy with the higher sequence number, else the defaults. -/
def pickGroup (grade : Grade) (l : Lantern) (od : OdVals) (g : Nat) : OdVals :=
  if l.usesA g then groupFrom g l.copyA od
  else if l.intactB g then groupFrom g l.copyB od
  else groupFrom g (defaultOd grade) od

/-- The store has damaged copies of groups, bits 2g and 2g + 1, and records of the log: their check words fail. -/
def Lantern.decay (l : Lantern) (copies : BitVec 18) (logs : DWord) : Lantern :=
  let hit (i : Nat) (l' : Vector Word 8) (ok : Nat → Bool) : Vector Word 8 :=
    (List.range 8).foldl (fun v g => if bit copies (2 * g + i) && ok g then vecSet v g (vecAt v g ^^^ 1) else v) l'
  { l with
    crcA := hit 0 l.crcA l.intactA, crcB := hit 1 l.crcB l.intactB
    log := l.log.map (fun e => if bit logs (e.1 - 1) && e.2.intact then (e.1, { e.2 with crc := e.2.crc ^^^ 1 }) else e) }

/-- A group of which neither copy is intact takes its defaults, which go to both copies, and the log records it (R390). -/
def State.defaultGroup (s : State) (g : Nat) : State :=
  let l := s.lantern
  let d := defaultOd s.grade
  { s with lantern := { (l.putA g d 1).putB g d 0 with
      wear := vecSet l.wear g (vecAt l.wear g + 2), defaults := l.defaults ||| BitVec.ofNat 16 (2 ^ g) } }.logEvent 6 g

/-- The log at a start: LOG_NEXT follows the newest intact record. A damaged record reads 0 and keeps its count of writes
(R388, R393). -/
def Lantern.loadLog (l : Lantern) : Lantern :=
  let newest := (l.log.filter (fun e => e.2.intact)).foldl (fun (m : Nat × Nat) e =>
    if m.1 < e.2.seq then (e.2.seq, e.1) else m) (0, 64)
  { l with
    logSeq := newest.1, logNext := newest.2 % 64 + 1
    logStopped := l.log.any (fun e => decide (1000000 ≤ e.2.writes)) }

/-- START_COUNT counts this start, up to its group's write limit (R388). -/
def State.countStart (s : State) : State :=
  let l := s.lantern
  if l.worn 0 then s else { s with lantern := l.store 0 { l.od with startCount := l.od.startCount + 1 } }

/-- STAGE_S0: the persistent groups are checked and loaded. A supply that has left its range is fatal (Table 16.2). -/
def stageS0 (s : State) (dur : Nat) (bad : BitVec 18) (badLogs : DWord) : State :=
  s.atStage 0 (fun s =>
    let l := s.lantern.decay bad badLogs
    let lost := (List.range 8).filter (fun g => !l.intactA g && !l.intactB g)
    let od := (List.range 8).foldl (pickGroup s.grade l) (defaultOd s.grade)
    let l := { l with od := od, address := od.address, defaults := 0, activeB := l.activeB != l.committed, committed := false }
    let s := lost.foldl State.defaultGroup { s with lantern := l.loadLog }
    let s := s.countStart
    let s := s.stageRecord 0 (if s.bring.supplyLeft then 3 else 1) dur [recBytes 16 1 s.power.first.toNat,
      recBytes 17 2 s.lantern.defaults.toNat, recBytes 20 4 s.power.v54mv]
    if s.bring.supplyLeft then s.stageFatal else s.stageDone 0)

def execStageS0 (durUs : Word) (badCopies : BitVec 18) (badLogs : DWord) (s : State) : Host.Outcome State Fault Refusal :=
  .next (stageS0 s durUs.toNat badCopies badLogs)

/-! ### S1: the boot ROM (R394 to R396) -/

/-- The number in `n` bytes of a slot. -/
def FwSlot.num (f : FwSlot) (off n : Nat) : Nat := natOfBytes ((List.range n).map (fun i => Mem.rd 0 f.bytes (off + i)))

/-- The bytes of a slot's image. -/
def FwSlot.image (f : FwSlot) : List Byte := (List.range (f.num 12 4)).map (fun i => Mem.rd 0 f.bytes i)

/-- OD 0x8000.02: SHA3-512 of the root public key, in the boot ROM. -/
def rootHash : List Byte := sha3 (mlKey Config.rootSeed).pub

/-- The digest that SIGNATURE signs: of the image with the signature taken as 0 (R394). -/
def FwSlot.digest (f : FwSlot) : List Byte :=
  sha3 (f.image.zipIdx.map (fun e => if 2608 ≤ e.2 ∧ e.2 ≤ 7234 then 0 else e.1))

/-- The checks of the boot ROM: 0 pass, 1 MAGIC or LENGTH, 2 root hash, 3 signature, 4 rollback (R395, Table 16.4). -/
def FwSlot.check (f : FwSlot) (fuses : Nat) : Nat :=
  let len := f.num 12 4
  let key := (f.image.drop 16).take 2592
  if f.num 0 4 ≠ 0x57464C59 ∨ 8388608 < len ∨ len < 7235 then 1
  else if sha3 key ≠ rootHash then 2
  else if !mlVerify key f.digest ((f.image.drop 2608).take 4627) then 3
  else if f.num 8 1 < fuses then 4
  else 0

/-- The slot that the boot ROM runs: the active one, else the other one; `some true` is B (R395). -/
def Lantern.bootSlot (l : Lantern) : Option Bool :=
  let ok (b : Bool) : Bool := decide ((if b then l.slotB else l.slotA).check l.fuses = 0)
  if ok l.activeB then some l.activeB else if ok (!l.activeB) then some (!l.activeB) else none

/-- The running firmware's slot, version and security version. -/
def Lantern.run (l : Lantern) (b : Bool) : Lantern :=
  let f := if b then l.slotB else l.slotA
  { l with runningB := b, fwVersion := f.num 4 4, runSv := f.num 8 1 }

/-- STAGE_S1: the firmware is chosen and verified, or the module enters recovery (R395, R396). -/
def stageS1 (s : State) (dur : Nat) : State :=
  s.atStage 1 (fun s =>
    let l := s.lantern
    let a := l.slotA.check l.fuses
    let b := l.slotB.check l.fuses
    match l.bootSlot with
    | none =>
      let s := s.stageRecord 1 3 dur [recBytes 18 1 a, recBytes 19 1 b]
      { s with bring := { s.bring with at_ := .recovery } }
    | some slot =>
      let l := l.run slot
      let s := { s with lantern := l }
      (s.stageRecord 1 (if slot = l.activeB then 1 else 2) dur [recBytes 16 1 (b01 slot), recBytes 17 1 l.runSv, recBytes 18 1 a,
        recBytes 19 1 b, recBytes 20 4 l.fwVersion]).stageDone 1)

def execStageS1 (durUs : Word) (s : State) : Host.Outcome State Fault Refusal := .next (stageS1 s durUs.toNat)

/-! ### S2 to S6 -/

/-- STAGE_S2: the oscillator runs and the synthesizers are locked: the core clock runs at the clock that the caps give
(R404, R411). -/
def stageS2 (s : State) (dur : Nat) (ok : Bool) (ppb : Word) : State :=
  s.atStage 2 (fun s =>
    let s := s.stageRecord 2 (if ok then 1 else 3) dur [recBytes 16 4 ppb.toNat]
    if ok then
      let m := maxClock s.grade
      let s := { s with clock := { s.clock with on := true, envelope := s.lantern.od.envelope, measured := m, thermal := m } }
      let khz := s.lowestCap
      { s with clock := { s.clock with khz := khz, groupKhz := khz, proposed := khz } }.stageDone 2
    else s.stageFatal)

def execStageS2 (durUs : Word) (ok : Bool) (ppb : Word) (s : State) : Host.Outcome State Fault Refusal :=
  .next (stageS2 s durUs.toNat ok ppb)

/-- The regions of a set leave service until the next start. -/
def State.fenceRegions (s : State) (l : List Nat) : State := l.foldl State.fenceRegionNow s

/-- STAGE_S3: a channel that fails to train fences its region (R404, Table 9.2). -/
def stageS3 (s : State) (dur : Nat) (failed : BitVec 256) : State :=
  s.atStage 3 (fun s =>
    let bad := (List.range 32).filter (fun p => decide (fld failed (8 * p + 7) (8 * p) ≠ 0))
    let s : State := { s.fenceRegions bad with bring := { s.bring with failedChannels := failed } }
    let k := s.offeredCount
    let s := s.stageRecord 3 (if k = 0 then 3 else if bad.isEmpty then 1 else 2) dur [recBytes 16 32 failed.toNat]
    if k = 0 then s.stageFatal else s.stageDone 3)

def execStageS3 (durUs : Word) (failed : BitVec 256) (s : State) : Host.Outcome State Fault Refusal :=
  .next (stageS3 s durUs.toNat failed)

/-- The position that a fence record names. -/
def recordCell (w : Word) : PhysCell :=
  { region := Fin.ofNat 32 (fld w 28 24), block := Fin.ofNat 24 (fld w 23 19), pos := Fin.ofNat 17 (fld w 18 14) }

/-- The persistent fences are reapplied (R224). -/
def State.reapply (s : State) : State :=
  let od := s.lantern.od
  (od.cellFences.foldl (fun s w => s.fenceCellNow (recordCell w)) s).fenceRegions
    ((List.range 32).filter (fun p => bit od.regionFences p))

/-- STAGE_S4: the cells that fail their self-test are fenced with the persistent ones (R404, R224). -/
def stageS4 (s : State) (dur : Nat) (failed : List PhysCell) : State :=
  s.atStage 4 (fun s =>
    let s := (failed.foldl State.fenceCellNow s).reapply
    let k := s.offeredCount
    let first := match failed with
      | c :: _ => c.region.val * 65536 + c.block.val * 256 + c.pos.val
      | [] => 0
    let s := s.stageRecord 4 (if k = 0 then 3 else if failed.isEmpty then 1 else 2) dur
      [recBytes 16 4 failed.length, recBytes 20 4 k, recBytes 24 3 first]
    if k = 0 then s.stageFatal else s.stageDone 4)

def execStageS4 (durUs : Word) (failed : List PhysCell) (s : State) : Host.Outcome State Fault Refusal :=
  .next (stageS4 s durUs.toNat failed)

/-- STAGE_S5: PLC_INSERVICE and the placement tables (R225, R404). -/
def stageS5 (s : State) (dur : Nat) : State :=
  s.atStage 5 (fun s =>
    let m := s.offeredMask
    let s := { s with inService := BitVec.ofNat 32 m, plcRegions := s.offeredCount }
    let s := s.stageRecord 5 (if m = 0 then 3 else 1) dur [recBytes 16 4 m]
    if m = 0 then s.stageFatal else s.stageDone 5)

def execStageS5 (durUs : Word) (s : State) : Host.Outcome State Fault Refusal := .next (stageS5 s durUs.toNat)

/-- STAGE_S6: skew and crossing depth are set, and PCIE_READY asserts (R407, R419). The depth is a free value. -/
def stageS6 (s : State) (dur : Nat) (ok : Bool) (skew : Word) : State :=
  s.atStage 6 (fun s =>
    let depth := (Config.freeValue s.free).toNat % 65536
    let s := { s with bring := { s.bring with depth := depth }, free := s.free + 1 }
    let s := s.stageRecord 6 (if ok then 1 else 3) dur [recBytes 16 2 depth, recBytes 18 4 skew.toNat]
    if ok then { s with bring := { s.bring with pcieReady := true } }.stageDone 6 else s.stageFatal)

def execStageS6 (durUs : Word) (ok : Bool) (skewPs : Word) (s : State) : Host.Outcome State Fault Refusal :=
  .next (stageS6 s durUs.toNat ok skewPs)

/-! ### S7 to S9 -/

/-- SPEED and WIDTH of a port as HOST_FN_STATUS shows them. -/
def trainBytes : PcieTrain → Nat
  | .trained speed width _ => speed.toNat + 256 * width.toNat
  | _ => 0

/-- STAGE_S7: the PCIe ports have trained, failed, or are still held in reset; S8 puts every Silide port into DETECT (R272,
R407). Bit h of `refclk` says that REFCLK was present at H(h) when its PERST# deasserted (R427). -/
def stageS7 (s : State) (dur : Nat) (h0 h1 : PcieTrain) (refclk : BitVec 2) : State :=
  s.atStage 7 (fun s =>
    let held := b01 (decide (h0 = .held)) + 2 * b01 (decide (h1 = .held))
    let up : BitVec 2 := BitVec.ofNat 2 (3 - held)
    let s := { s with bring := { s.bring with h0 := h0, h1 := h1, common := refclk &&& up } }
    let s := s.stageRecord 7 (if h0 = .failed ∨ h1 = .failed then 2 else 1) dur
      [recBytes 16 2 (trainBytes h0), recBytes 18 2 (trainBytes h1), recBytes 20 1 held]
    (List.range 16).foldl State.enterDetect (s.stageDone 7))

def execStageS7 (durUs : Word) (h0 h1 : PcieTrain) (refclk : BitVec 2) (s : State) : Host.Outcome State Fault Refusal :=
  .next (stageS7 s durUs.toNat h0 h1 refclk)

/-- A set of ports as a bit mask. -/
def portMask (l : List Nat) : Nat := sumNat (l.map (fun p => 2 ^ p))

/-- STAGE_S8: what the negotiation has reached (R404). -/
def stageS8 (s : State) (dur : Nat) : State :=
  s.atStage 8 (fun s =>
    let up := (List.range 16).filter s.portActive
    let full := up.filter (fun p => decide ((s.port p).mode = 1) || decide ((s.port p).mode = 2))
    (s.stageRecord 8 (if up.length = 16 then 1 else 2) dur ([recBytes 16 2 (portMask up), recBytes 18 2 (portMask full)] ++
      up.map (fun p => recBytes (20 + p) 1 (s.port p).mode))).stageDone 8)

def execStageS8 (durUs : Word) (s : State) : Host.Outcome State Fault Refusal := .next (stageS8 s durUs.toNat)

/-- The ports whose partner is compared (R408). -/
def State.checkedPorts (s : State) : List Nat :=
  (List.range 16).filter (fun p => decide (Mem.rd 0xFFFFFFFF s.lantern.od.expect p ≠ 0xFFFFFFFF))

/-- STAGE_S9: partners are compared; mismatched ACTIVE ports go DOWN (R408). -/
def stageS9 (s : State) (dur : Nat) : State :=
  s.atStage 9 (fun s =>
    let checked := s.checkedPorts
    let dark := checked.filter (fun p => !s.portActive p)
    let wrong := checked.filter (fun p => s.portActive p && !portMatches s p)
    let bad := checked.filter (fun p => !s.portActive p || !portMatches s p)
    let s := s.onPorts (fun q => { q with compared := q.compared || decide (q.state = .active) })
    let s := wrong.foldl (fun s p => s.portDown p true) s
    (s.stageRecord 9 (if bad.isEmpty then 1 else 2) dur
      [recBytes 16 2 (portMask bad), recBytes 18 2 (portMask dark), recBytes 20 2 (portMask checked)]).stageDone 9)

def execStageS9 (durUs : Word) (s : State) : Host.Outcome State Fault Refusal := .next (stageS9 s durUs.toNat)

/-! ### S10 and S11 -/

/-- The dome count and the reference at the end of S10: role, input, count, REF_STATE (R409, R410, Table 16.6). `time` is the time that
the input gives, where one is valid; `offset` is what steering has left of the offset, which must lie within the bound of
the role. -/
def lockDome (s : State) (time : Option Nat) (offset : BitVec 24) : Nat × Option Nat × Nat × Nat :=
  let c := s.clock
  let r := s.chooseInput none
  let lock := if decide (-(roleBound r.1) ≤ offsetInt offset) && decide (offsetInt offset ≤ roleBound r.1) then 1 else 2
  if s.isRoot then (3, none, c.dome, 0)
  else match r.2, time with
    | some p, some t =>
      if !s.bring.warm then (r.1, some p, t, lock)
      else if s.bring.wasState ≠ 0 then (r.1, some p, c.dome, lock)
      else if c.dome < t ∧ c.pendingF.isEmpty then (r.1, some p, t, lock)
      else (0, none, c.dome, 0)
    | _, _ => (0, none, c.dome, if c.refState = 0 then 0 else 2)

/-- STAGE_S10: the module takes its time role, and its dome count is set once (R295, R296, R298, R409, R410). -/
def stageS10 (s : State) (dur : Nat) (time : Option Nat) (offset : BitVec 24) : State :=
  s.atStage 10 (fun s =>
    let r := lockDome s time offset
    let s := { s with clock := { s.clock with dome := r.2.2.1, refState := r.2.2.2, domeValid := true } }.takeInput (r.1, r.2.1)
    let s := { s with clock := { s.clock with
      refPort := if r.2.2.2 = 1 then r.2.1.getD 0 else s.clock.refPort
      offset := if r.2.1.isSome then offset else s.clock.offset, syncStart := r.2.2.1 } }
    (s.stageRecord 10 (if r.2.2.2 = 1 ∨ r.1 = 3 then 1 else 2) dur
      [recBytes 16 1 r.2.2.2, recBytes 17 1 r.1, recBytes 18 1 (r.2.1.getD 0),
       recBytes 20 4 (BitVec.ofInt 32 (offsetInt s.clock.offset)).toNat, recBytes 24 8 s.clock.dome]).stageDone 10)

def execStageS10 (durUs : Word) (time : Option DWord) (offset : BitVec 24) (s : State) : Host.Outcome State Fault Refusal :=
  .next (stageS10 s durUs.toNat (time.map BitVec.toNat) offset)

/-- Fuses are blown up to the security version of firmware that reaches S11 (R395). -/
def State.advanceSecurity (s : State) : State :=
  if s.lantern.fuses < s.lantern.runSv then
    { s with lantern := { s.lantern with fuses := min 64 s.lantern.runSv } }.logEvent 8 (min 64 s.lantern.runSv)
  else s

/-- STAGE_S11: commands are accepted, and both PFs hear of the regions in service (R404). -/
def stageS11 (s : State) (dur : Nat) : State :=
  s.atStage 11 (fun s =>
    let s := s.stageRecord 11 1 dur [recBytes 16 4 ((s.bring.startUs + dur) / 1000)]
    let s := { s with
      clock := { s.clock with stage := 11, warm := false }, bring := { s.bring with at_ := .ready, warm := false } }
    s.advanceSecurity.serviceChange)

def execStageS11 (durUs : Word) (s : State) : Host.Outcome State Fault Refusal := .next (stageS11 s durUs.toNat)

/-! ### Warm re-entry (R410) -/

/-- REENTER: a PF restarts bring-up at S8 (R410). -/
def reenter (s : State) (f : FnRef) (v : Word) : State :=
  if f.fn = 0 ∧ bit v 0 ∧ s.bring.at_ = .ready ∧ s.clock.stage = 11 then
    let s := (s.ctxs.filter (fun e => !e.2.slots.isEmpty || !e.2.routes.isEmpty)).foldl (fun s e =>
      s.beginKill e.1 6 (linkDownErr s e.2 ((tagPorts e.2).headD 0)) none) s
    let s := (List.range 16).foldl State.enterDetect (s.onPorts (fun q => { q with compared := false }))
    { s with
      clock := { s.clock with stage := 7, warm := true, refState := if s.clock.refState = 1 then 2 else s.clock.refState }
      bring := { s.bring with at_ := .stage 8, startUs := 0, warm := true, wasState := s.clock.refState } }
  else s

def execReenter (f : FnRef) (value : Word) (s : State) : Host.Outcome State Fault Refusal := .next (reenter s f value)

/-- REGISTER_WRITE (R6): a write to CLK_CTRL may re-enter bring-up (R410, Table 16.10); every other one acts on its register. -/
def execRegisterWrite (t : RegTarget) (value : DWord) (s : State) : Host.Outcome State Fault Refusal :=
  .next (match t with
    | .moduleWin f off => if off.toNat = 0x3010 then reenter s f (value.setWidth 32) else writeTarget t value s
    | _ => writeTarget t value s)

/-! ### Resets of the PCIe ports (R354, R372, R407) -/

/-- What a PCIe port has trained to. -/
def State.train (s : State) (h : Fin 2) : PcieTrain := if h = 0 then s.bring.h0 else s.bring.h1
def State.setTrain (s : State) (h : Fin 2) (t : PcieTrain) : State :=
  { s with bring := if h = 0 then { s.bring with h0 := t } else { s.bring with h1 := t } }

/-- REFCLK as a port finds it when PERST# deasserts: a common clock, or none, and the port runs under SRIS (R427). -/
def State.sampleRefclk (s : State) (h : Fin 2) (present : Bool) : State :=
  let b : BitVec 2 := if h = 0 then 1 else 2
  { s with bring := { s.bring with common := if present then s.bring.common ||| b else s.bring.common &&& ~~~ b } }

/-- PERST_DEASSERT: a port that was held in reset at S7 trains, with the clock that it finds (R407, R427). Before PCIE_READY
the port ignores it. -/
def execPerstDeassert (host : Fin 2) (refclk : Bool) (t : PcieTrain) (s : State) : Host.Outcome State Fault Refusal :=
  .next (if s.bring.pcieReady ∧ s.train host = .held then (s.sampleRefclk host refclk).setTrain host t else s)

/-- PORT_RESET: a reset of a PCIe port; in UNRECOVERABLE a hot or a fundamental reset restarts the module at S0 (R354,
R372). After a hot reset or a link down the port trains anew, to `t` (R332); a fundamental reset holds it until PERST#
deasserts. -/
def portReset (s : State) (h : Fin 2) (k : ResetKind) (t : PcieTrain) : State :=
  if s.unrecoverable ∧ k ≠ .linkDown then (s.lose .off).lateStart
  else (s.resetPort h 0).setTrain h (if k = .fundamental then .held else t)

def execPortReset (host : Fin 2) (k : ResetKind) (t : PcieTrain) (s : State) : Host.Outcome State Fault Refusal :=
  .next (portReset s host k t)

/-! ### The lantern's restart (R377) -/

/-- The lantern restarts from its boot ROM: requests answer BUSY, and unit records are buffered (R377). -/
def State.restartLantern (s : State) (memoryError : Bool) : State :=
  { s with lantern := { s.lantern with
      restarting := true, recovery := false, inbox := [], restartAt := s.clock.dome, restarts := s.lantern.restarts + 1 } }.logEvent 5 (b01 memoryError)

/-! ### Crossing timeouts (R420, Table 16.5) -/

/-- A channel whose HBM PHY crossing has timed out: the owning context ends, and the channel retrains before the region is
offered again. -/
def hbmCrossing (s : State) (p ch : Nat) : State :=
  let r := s.region p
  let s := s.setRegion p { r with retrain := if r.retrain.contains ch then r.retrain else r.retrain ++ [ch] }
  let s := match r.owner with
    | some n => s.emit n { errs := [{ code := 0x0024, unit := 8, free := false, cell := 0, detail := r.logical * 2 ^ 34
                                      cc := (s.ctx n).cc, dome := s.clock.dome }] }
    | none => s
  s.refreshService

/-- CROSSING_TIMEOUT: a crossing saw no acknowledgement for 2,048 edges (R420). -/
def crossingTimeout (s : State) (x : Crossing) : State :=
  let s := { s with clock := { s.clock with cdcTimeout := true } }
  match x with
  | .pcie h => s.resetPort h 0
  | .silide p => s.portDown p.val false
  | .hbm r ch => hbmCrossing s r.val ch.val
  | .lantern => s.restartLantern false

def execCrossingTimeout (x : Crossing) (s : State) : Host.Outcome State Fault Refusal := .next (crossingTimeout s x)

/-- HBM_CHANNEL_RETRAIN: the channel has trained again, or its region is fenced as at S3 (R420, Table 9.2). A fence waits
until the region leaves its context (R223). -/
def hbmChannelRetrain (s : State) (p ch : Nat) (ok : Bool) : State :=
  let r := s.region p
  if r.retrain.contains ch then
    let s := s.setRegion p { r with retrain := r.retrain.filter (fun k => decide (k ≠ ch)) }
    let s := if ok then s
      else match r.owner with
        | some _ => s.onRegion p (fun r => { r with pendingFences := r.pendingFences ++ [(none, 0)] })
        | none => s.fenceFree p none 0
    s.refreshService
  else s

def execHbmChannelRetrain (region : Fin 32) (ch : Fin 8) (ok : Bool) (s : State) : Host.Outcome State Fault Refusal :=
  .next (hbmChannelRetrain s region.val ch.val ok)

end Sys2Proof.Machine
end

