-- ==== Sys2Proof/Machine/Lantern.lean ====
section
/-!
DEFINITION. Sys2Proof/Machine/Lantern.lean: the lantern: unit records (R223, R377), the object dictionary (R378 to R388,
Table 15.4), fence commands (R392), firmware (R394 to R397) and attestation (R399, R400).
-/
namespace Sys2Proof.Machine

/-! ### Unit records (R223, R377, Table 9.2) -/

/-- What a unit record fences, and its cause (Tables 9.2, 15.6). -/
def fenceTarget : FenceEvent → Nat × Option PhysCell × Nat
  | .residueCell c => (c.region.val, some c, 2)
  | .uncorrectable c => (c.region.val, some c, 3)
  | .ceLimit c => (c.region.val, some c, 4)
  | .residueComb r => (r.val, none, 5)
  | .secondHbmUe r => (r.val, none, 7)

/-- The lantern takes a unit record. -/
def State.takeRecord (s : State) (e : FenceEvent) : State :=
  let t := fenceTarget e
  s.fence t.1 t.2.1 t.2.2

/-- FENCE_RECORD: a unit's record reaches the lantern. During a restart the I/O die keeps 256 of them (R377). -/
def execFenceRecord (e : FenceEvent) (s : State) : Host.Outcome State Fault Refusal :=
  .next (let s := { s with reports := s.reports.erase e }
    if s.lantern.restarting then
      if s.lantern.buffered.length < 256 then { s with lantern := { s.lantern with buffered := s.lantern.buffered ++ [e] } }
      else { s with lantern := { s.lantern with lost := s.lantern.lost + 1 } }
    else s.takeRecord e)

/-! ### Access (R378, R381, R384, R396, R405) -/

/-- The path reaches the lantern: over I3C once the boot ROM has run, over a trained PCIe port, over an ACTIVE port 15. A
module in recovery, or with a fatal failure, answers on I3C only (R396; for a restart without firmware, log entry 67). -/
def State.pathOpen (s : State) (q : ReqPath) : Bool :=
  let up : Bool := match s.bring.at_ with
    | .stage k => decide (2 ≤ k)
    | .ready => true
    | _ => false
  let trained (h : Fin 2) : Bool := match s.train h with | .trained .. => true | _ => false
  if s.lantern.recovery then decide (q = .i3c)
  else match q with
  | .i3c => up || decide (s.bring.at_ = .recovery) || decide (s.bring.at_ = .fatal)
  | .pf h => up && trained h
  | .vf h _ => up && trained h
  | .port15 => up && s.portActive 15

/-- Class M: every path but a VF's. -/
def pathM : ReqPath → Bool
  | .vf _ _ => false
  | _ => true

/-- Entries that recovery serves, and after a fatal failure the stage records too (R396, R405). -/
def servedWhenDown (s : State) (idx sub : Nat) : Bool :=
  (decide (idx = 0x1000) && decide (1 ≤ sub) && decide (sub ≤ 5)) || (decide (idx = 0x8000) && decide (sub = 2)) ||
  decide (idx = 0x8003) || decide (idx = 0x8010) || (decide (idx = 0x8011) && decide (sub = 1)) ||
  (decide (s.bring.at_ = .fatal) && decide (idx = 0x7010))

/-- A request for this entry answers BUSY (R377, R396). -/
def State.busy (s : State) (idx sub : Nat) : Bool :=
  (s.lantern.restarting && (!s.lantern.recovery || !servedWhenDown s idx sub)) || ((decide (s.bring.at_ = .recovery) || decide (s.bring.at_ = .fatal)) && !servedWhenDown s idx sub)

/-- A response (Table 15.1). -/
def odResponse (op tag : Byte) (status : Nat) (data : List Byte) : List Byte :=
  (op + 0x80) :: tag :: BitVec.ofNat 8 status :: 0 :: (bytesOf data.length 2 ++ data)

/-- A MGMT flit with one MCTP packet (Table 11.7). -/
def mgmtFlit (pkt : List Byte) : Flit :=
  { idleFlit with cls := 3, mtype := 0x18, payload := BitVec.ofNat 2048 (min 254 pkt.length + 65536 * natOfBytes (pkt.take 254)) }

/-- The packets of an answer: the header of DSP0236 (version 1, destination, source, start, end, sequence and tag) before 64
bytes of the message each (R378; log entry 59). -/
def mctpPackets (dest src : Byte) (tag : BitVec 3) (msg : List Byte) : List (List Byte) :=
  let n := (msg.length + 63) / 64
  ((List.range n).map (fun i => (msg.drop (64 * i)).take 64)).zipIdx.map (fun e =>
    [0x01, dest, src, BitVec.ofNat 8 (128 * b01 (decide (e.2 = 0)) + 64 * b01 (decide (e.2 + 1 = n)) + 16 * (e.2 % 4) + tag.toNat)] ++ e.1)

/-- An MCTP message leaves over a path. Over port 15 its packets wait as MGMT flits in the port's management queue, under
the tag 0xFFFF (R284, R292, R378). -/
def State.mctpOut (s : State) (q : ReqPath) (msg : List Byte) : State :=
  if q = .port15 then
    s.onPort 15 (fun o => (mctpPackets s.lantern.peerEid s.lantern.eidLink s.lantern.peerTag msg).foldl
      (fun o pkt => enqueueLoose o 0xFFFF [mgmtFlit pkt]) o)
  else s.emitOut [.mctp q msg]

/-- Message type 0x7E, Vendor Defined - PCI, and the vendor ID of the module's functions, most significant byte first
(R378; log entry 59). -/
def vendorHead : List Byte :=
  [0x7E, BitVec.ofNat 8 (Config.vendorId.toNat / 256), BitVec.ofNat 8 Config.vendorId.toNat]

/-- Serve a request: the state after it, its status and its data. A request over a path that is not up is not heard. -/
def State.served (s : State) (q : ReqPath) (r : OdReq) (body : State → State × Nat × List Byte) : State :=
  if !s.pathOpen q then s
  else
    let a := if s.busy r.index.toNat r.sub.toNat then (s, 6, []) else body s
    a.1.mctpOut q (vendorHead ++ odResponse r.op r.tag a.2.1 a.2.2)

/-! ### The listing (Tables 15.3, 15.4) -/

/-- An entry: type, size in bytes, classes (0 nobody, 1 M, 2 A), group and default. -/
structure OdDef where
  kind : Nat
  size : Nat
  read : Nat
  write : Nat
  group : Option Nat := none
  dflt : Nat := 0
  deriving DecidableEq, Repr

/-- Entries without a write class. -/
def odRo (kind size : Nat) (dflt : Nat := 0) : Option OdDef := some { kind := kind, size := size, read := 2, write := 0, dflt := dflt }
/-- Persistent entries that M writes. -/
def odRwp (kind size group dflt : Nat) : Option OdDef :=
  some { kind := kind, size := size, read := 2, write := 1, group := some group, dflt := dflt }
/-- Persistent entries that the hardware keeps. -/
def odHw (kind size group : Nat) (dflt : Nat := 0) : Option OdDef :=
  some { kind := kind, size := size, read := 2, write := 0, group := some group, dflt := dflt }
/-- Entries that M, or every path, only writes. -/
def odWo (kind size cls : Nat) : Option OdDef := some { kind := kind, size := size, read := 0, write := cls }

/-- The determinism key (Table 12.13). -/
def keyPart (st : Stepping) (sub : Nat) : Nat :=
  match sub with
  | 1 => 3 | 2 => 3 | 3 => 1
  | 4 => nativeProfile st
  | 5 => (match st with | .a1 => 1 | .b0 => 3)
  | _ => (match st with | .a1 => 0x03030111 | .b0 => 0x03030123)

/-- The entry at an index and subindex (Table 15.4); subindex 0x00 of an entry with subindexes is none (log entry 86). -/
def odDef (g : Grade) (st : Stepping) (idx sub : Nat) : Option OdDef :=
  let inside (lo hi : Nat) (d : Option OdDef) : Option OdDef := if lo ≤ sub ∧ sub ≤ hi then d else none
  match idx with
  | 0x1000 => match sub with
    | 1 => odRo 7 32 (natOfBytes [0x41, 0x62, 0x61, 0x6E, 0x61, 0x6B])
    | 2 => odRo 7 32 (natOfBytes [0x59, 0x65, 0x6C, 0x73, 0x69, 0x6E])
    | 3 => odRo 2 1 | 4 => odRo 2 1 | 5 => odRo 7 32 | 6 => odRo 4 4 | 7 => odRo 2 1 | _ => none
  | 0x1003 => inside 0 0 (odHw 4 4 0)
  | 0x1010 => inside 0 0 (odRo 3 2)
  | 0x1011 => inside 1 9 (odRo 4 4)
  | 0x1020 => inside 1 2 (odRwp 2 1 1 32)
  | 0x2000 => match sub with
    | 1 => odRwp 3 2 2 (defaultOd g).envelope
    | 2 => odRo 4 4
    | 3 => odRo 4 4 (maxClock g)
    | _ => none
  | 0x3001 => inside 1 0x40 (odRo 6 2)
  | 0x3010 => inside 1 3 (odRwp 6 2 3 (45 + 15 * sub))
  | 0x3011 => inside 1 2 (odRwp 6 2 3 (if sub = 1 then 105 else 95))
  | 0x4000 => inside 1 1 (odRwp 4 4 4 0)
  | 0x4001 => inside 1 0x10 (odRwp 4 4 4 0xFFFFFFFF)
  | 0x4002 => inside 0 0 (odRwp 1 1 4 1)
  | 0x4003 => inside 0 0 (odRwp 3 2 4 1024)
  | 0x4010 => inside 0 0xFF (odHw 4 4 5)
  | 0x4011 => if sub = 1 then odHw 4 4 5 else inside 2 0x21 (odHw 2 1 5)
  | 0x4012 => inside 1 2 (odWo 4 4 1)
  | 0x5000 => if sub = 6 then odRo 4 4 (keyPart st 6) else inside 1 5 (odRo 2 1 (keyPart st sub))
  | 0x6001 => inside 1 0x10 (odRwp 2 1 6 0xFF)
  | 0x6002 => inside 0 0 (odRwp 3 2 6 10)
  | 0x6010 => if sub = 1 then odRwp 2 1 6 0 else inside 2 2 (odRwp 4 4 6 0)
  | 0x7001 => inside 1 2 (odRo 4 4)
  | 0x7010 => inside 1 0x0C (odRo 8 64)
  | 0x7020 => match sub with
    | 1 => odRwp 4 4 7 4096 | 2 => odRwp 4 4 7 4096 | 3 => odRwp 4 4 7 100 | 4 => odRwp 3 2 7 1000 | _ => none
  | 0x7030 => if sub = 0 then odHw 2 1 8 1 else inside 1 0x40 (odHw 8 32 8)
  | 0x8000 => if sub = 1 then odRo 8 2592 else inside 2 2 (odRo 8 64)
  | 0x8001 => inside 0 0 (odRo 8 2592)
  | 0x8002 => inside 0 0 (odRo 8 4627)
  | 0x8003 => inside 1 3 (odRo 2 1)
  | 0x8010 => inside 0 0 (odWo 8 8388608 1)
  | 0x8011 => if sub = 1 then odWo 2 1 1 else inside 2 2 (odRo 2 1)
  | 0x8020 => if sub = 1 then odWo 8 32 2 else inside 2 2 (odRo 8 4851)
  | _ => none

def gradeCode (g : Grade) : Nat := match g with | .liquid => 1 | .air => 2
def steppingCode (st : Stepping) : Nat := match st with | .a1 => 0xA1 | .b0 => 0xB0

/-- A log record as it reads: 0 where its check word fails (R393). -/
def logBytes (l : Lantern) (r : Nat) : List Byte :=
  match Mem.find l.log r with
  | none => List.replicate 32 0
  | some e => if e.intact then e.bytes else List.replicate 32 0

/-- The 32 bytes of SERIAL: ASCII, padded with 0x00 (Table 15.3). -/
def serialBytes : List Byte := (Config.serial.map (· &&& 0x7F) ++ List.replicate 32 0).take 32

/-- OD 0x8001.00: the module's public key (R398). -/
def identityKey : List Byte := (mlKey Config.identitySeed).pub

/-- OD 0x8002.00: the root key's signature over the digest of IDENTITY_KEY followed by SERIAL (R398). -/
def identityCert : List Byte := mlSign Config.rootSeed (sha3 (identityKey ++ serialBytes)) Config.certRandom

/-- The security version of a slot's image, 0xFF where it fails verification. -/
def slotSv (l : Lantern) (b : Bool) : Nat :=
  let f := if b then l.slotB else l.slotA
  if f.check l.fuses = 0 then f.num 8 1 else 0xFF

/-- The slot that the firmware runs from, and the inactive one. -/
def Lantern.runSlot (l : Lantern) : FwSlot := if l.runningB then l.slotB else l.slotA
def Lantern.spareSlot (l : Lantern) : FwSlot := if l.activeB then l.slotA else l.slotB

/-- Attestation state is kept per path and function (R399). -/
def pathKey : ReqPath → Nat
  | .pf h => h.val
  | .i3c => 2
  | .port15 => 3
  | .vf h n => 4 + 16 * h.val + n.val

/-- The value of an entry (Table 15.4); none where it is not ready to be read. -/
def odValue (s : State) (q : ReqPath) (idx sub : Nat) : Option (List Byte) :=
  let l := s.lantern
  let od := l.od
  match idx with
  | 0x1000 => some (match sub with
    | 1 => [0x41, 0x62, 0x61, 0x6E, 0x61, 0x6B] ++ List.replicate 26 0
    | 2 => [0x59, 0x65, 0x6C, 0x73, 0x69, 0x6E] ++ List.replicate 26 0
    | 3 => bytesOf (gradeCode s.grade) 1
    | 4 => bytesOf (steppingCode s.stepping) 1
    | 5 => serialBytes
    | 6 => bytesOf l.fwVersion 4
    | _ => bytesOf (b01 l.runningB) 1)
  | 0x1003 => some (bytesOf od.startCount 4)
  | 0x1010 => some (bytesOf l.defaults.toNat 2)
  | 0x1011 => some (bytesOf (if sub = 9 then l.log.foldl (fun m e => max m e.2.writes) 0 else vecAt l.wear (sub - 1)) 4)
  | 0x1020 => some (bytesOf (if sub = 1 then od.h0Regions else od.h1Regions) 1)
  | 0x2000 => some (match sub with
    | 1 => bytesOf od.envelope 2
    | 2 => bytesOf s.clock.groupKhz 4
    | _ => bytesOf (maxClock s.grade) 4)
  | 0x3001 => some (intBytes (s.sensor (sub - 1)) 2)
  | 0x3010 => some (intBytes (if sub = 1 then od.class1 else if sub = 2 then od.class2 else od.class3) 2)
  | 0x3011 => some (intBytes (if sub = 1 then od.holdC else od.releaseC) 2)
  | 0x4000 => some (bytesOf od.address.toNat 4)
  | 0x4001 => some (bytesOf (Mem.rd 0xFFFFFFFF od.expect (sub - 1)).toNat 4)
  | 0x4002 => some (bytesOf (b01 od.mapRotate) 1)
  | 0x4003 => some (bytesOf od.ceLimit 2)
  | 0x4010 => some (bytesOf (if sub = 0 then od.cellFences.length else (od.cellFences.getD (sub - 1) 0).toNat) 4)
  | 0x4011 => some (if sub = 1 then bytesOf od.regionFences.toNat 4 else bytesOf (Mem.rd 0 od.regionCause (sub - 2)) 1)
  | 0x5000 => some (bytesOf (keyPart s.stepping sub) (if sub = 6 then 4 else 1))
  | 0x6001 => some (bytesOf (Mem.rd 0xFF od.modeMask (sub - 1)).toNat 1)
  | 0x6002 => some (bytesOf od.retrainMs 2)
  | 0x6010 => some (if sub = 1 then bytesOf od.timeMode 1 else bytesOf od.rootAddress.toNat 4)
  | 0x7001 => some (bytesOf (if sub = 1 then l.restarts else l.lost) 4)
  | 0x7010 => some (bytesOf (Mem.rd 0 s.bring.records (sub - 1)).toNat 64)
  | 0x7020 => some (match sub with
    | 1 => bytesOf od.quietCc 4 | 2 => bytesOf od.summaryNs 4 | 3 => bytesOf od.dumpMs 4 | _ => bytesOf od.holdLimitMs 2)
  | 0x7030 => some (if sub = 0 then bytesOf l.logNext 1 else logBytes l sub)
  | 0x8000 => some (if sub = 1 then (l.runSlot.image.drop 16).take 2592 else rootHash)
  | 0x8001 => some identityKey
  | 0x8002 => some identityCert
  | 0x8003 => some (bytesOf (match sub with | 1 => l.fuses | 2 => slotSv l false | _ => slotSv l true) 1)
  | 0x8011 => some (bytesOf l.fwStatus 1)
  | 0x8020 => (Mem.find l.attest (pathKey q)).bind (·.report)
  | _ => some []

/-! ### READ and INFO (R380 to R383) -/

/-- What is wrong with a request before its entry is looked at: a byte that must be 0 (Table 15.2). -/
def badRequest (r : OdReq) : Bool := decide (r.zero ≠ 0)

/-- READ (R380, R381, R383). -/
def odReadBody (q : ReqPath) (r : OdReq) (s : State) : State × Nat × List Byte :=
  let idx := r.index.toNat
  let sub := r.sub.toNat
  let off := r.offset.toNat
  let len := r.length.toNat
  if badRequest r then (s, 8, [])
  else match odDef s.grade s.stepping idx sub with
    | none => (s, 1, [])
    | some d =>
      if d.read = 0 then (s, 2, [])
      else if len = 0 ∨ 1024 < len then (s, 4, [])
      else if (if d.kind = 8 then decide (d.size < off + len) else decide (off ≠ 0) || decide (len < d.size)) then (s, 4, [])
      else match odValue s q idx sub with
        | none => (s, 6, [])
        | some v => (s, 0, if d.kind = 8 then (v.drop off).take len else v)

/-- The 16 bytes of an INFO response (R380). -/
def infoBytes (d : OdDef) : List Byte :=
  bytesOf d.kind 1 ++
  bytesOf (4 * (Config.classCode d.read).toNat + (Config.classCode d.write).toNat + 128 * b01 d.group.isSome) 1 ++
  bytesOf (d.group.getD 0xFF) 1 ++ [0] ++ bytesOf d.size 4 ++ bytesOf (if d.kind = 8 then 0 else d.dflt) 8

/-- INFO (R380, R381). -/
def odInfoBody (r : OdReq) (s : State) : State × Nat × List Byte :=
  if badRequest r then (s, 8, [])
  else match odDef s.grade s.stepping r.index.toNat r.sub.toNat with
    | none => (s, 1, [])
    | some d => if r.length.toNat = 0 ∨ 1024 < r.length.toNat ∨ r.offset ≠ 0 then (s, 4, []) else (s, 0, (infoBytes d).take r.length.toNat)

/-! ### Values that a WRITE sets (R19, R386, Table 15.4) -/

/-- The values with a new value of one entry, or none where it breaks the entry's range. -/
def odSet (g : Grade) (od : OdVals) (idx sub v : Nat) : Option OdVals :=
  let i := sext 16 v
  let when (ok : Bool) (o : OdVals) : Option OdVals := if ok then some o else none
  match idx with
  | 0x1020 => when (decide (v ≤ 32)) (if sub = 1 then { od with h0Regions := v } else { od with h1Regions := v })
  | 0x2000 =>
    let lo := match g with | .liquid => 1600 | .air => 1000
    let hi := match g with | .liquid => 3400 | .air => 1600
    when (decide (lo ≤ v) && decide (v ≤ hi) && decide (v % 100 = 0)) { od with envelope := v }
  | 0x3010 =>
    let o : OdVals := if sub = 1 then { od with class1 := i } else if sub = 2 then { od with class2 := i } else { od with class3 := i }
    when (decide (0 ≤ i) && decide (i ≤ 125) && decide (o.class1 < o.class2) && decide (o.class2 < o.class3)) o
  | 0x3011 =>
    let o : OdVals := if sub = 1 then { od with holdC := i } else { od with releaseC := i }
    when ((decide (sub ≠ 1) || (decide (80 ≤ i) && decide (i ≤ 115))) && decide (o.releaseC + 5 ≤ o.holdC)) o
  | 0x4000 => when (decide (v < 2 ^ 18)) { od with address := BitVec.ofNat 32 v }
  | 0x4001 => some { od with expect := Mem.wr 0xFFFFFFFF od.expect (sub - 1) (BitVec.ofNat 32 v) }
  | 0x4002 => when (decide (v ≤ 1)) { od with mapRotate := decide (v = 1) }
  | 0x4003 => when (decide (1 ≤ v)) { od with ceLimit := v }
  | 0x6001 => some { od with modeMask := Mem.wr 0xFF od.modeMask (sub - 1) (BitVec.ofNat 8 v) }
  | 0x6002 => when (decide (1 ≤ v) && decide (v ≤ 1000)) { od with retrainMs := v }
  | 0x6010 =>
    if sub = 1 then when (decide (v ≤ 1)) { od with timeMode := v }
    else when (decide (v < 2 ^ 18)) { od with rootAddress := BitVec.ofNat 32 v }
  | 0x7020 => match sub with
    | 1 => when (decide (256 ≤ v) && decide (v ≤ 2 ^ 24)) { od with quietCc := v }
    | 2 => when (decide (1024 ≤ v) && decide (v ≤ 2 ^ 20)) { od with summaryNs := v }
    | 3 => when (decide (1 ≤ v) && decide (v ≤ 60000)) { od with dumpMs := v }
    | _ => some { od with holdLimitMs := v }
  | _ => none

/-- Store a group's values unless nothing changes or the group is worn (R387, R388): the state and the status. -/
def State.storeGroup (s : State) (g : Nat) (od : OdVals) : State × Nat :=
  if od = s.lantern.od then (s, 0)
  else if s.lantern.worn g then (s, 7)
  else ({ s with lantern := s.lantern.store g od }, 0)

/-- A WRITE of a persistent scalar. A new ENVELOPE_W is logged, and changes the model cap that the module proposes (R19, R301,
R411); a new CE_LIMIT is in force at once (R385). -/
def writeScalar (s : State) (d : OdDef) (idx sub v : Nat) : State × Nat :=
  match odSet s.grade s.lantern.od idx sub v with
  | none => (s, 3)
  | some od =>
    let r := s.storeGroup (d.group.getD 0) od
    let changed := decide (r.2 = 0) && decide (od ≠ s.lantern.od)
    if changed && decide (idx = 0x2000) then
      let s' := r.1.logEvent 9 v
      (if s'.clock.on then s'.propose else s', 0)
    else if changed && decide (idx = 0x4003) then (r.1.tellAllCe, 0)
    else r

/-! ### FENCE and UNFENCE (R392) -/

/-- The target of a fence command, where it exists (R391, R392). -/
def commandTarget (w : Word) : Option (Nat × Option PhysCell) :=
  let p := fld w 28 24
  if fld w 30 29 ≠ 0 ∨ fld w 13 8 ≠ 0 then none
  else if bit w 31 then (if fld w 23 14 = 0 then some (p, none) else none)
  else if 24 ≤ fld w 23 19 ∨ 17 ≤ fld w 18 14 then none
  else some (p, some (recordCell w))

/-- FENCE: cause 0x08 (R392). -/
def fenceWrite (s : State) (w : Word) : State × Nat :=
  match commandTarget w with
  | none => (s, 3)
  | some (p, c) => if s.lantern.worn 5 then (s, 7) else (s.fence p c 8, 0)

/-- The fence records without a target. -/
def dropRecord (od : OdVals) (p : Nat) (c : Option PhysCell) : OdVals :=
  match c with
  | some c => { od with cellFences := od.cellFences.filter (fun w => !sameCell w c) }
  | none =>
    if bit od.regionFences p then
      { od with regionFences := od.regionFences &&& ~~~ (BitVec.ofNat 32 (2 ^ p)), regionCause := Mem.wr 0 od.regionCause p 0 }
    else od

/-- UNFENCE: the record goes; the fence stays in force until the next start (R224, R392). -/
def unfenceWrite (s : State) (w : Word) : State × Nat :=
  match commandTarget w with
  | none => (s, 3)
  | some (p, c) =>
    let od := dropRecord s.lantern.od p c
    if od = s.lantern.od then (s, 0)
    else if s.lantern.worn 5 then (s, 7)
    else ({ s with lantern := s.lantern.store 5 od }.logEvent 2 (match c with
      | some c => (fenceRecord c 0).toNat
      | none => (packFields 32 [(31, 31, 1), (28, 24, p)]).toNat), 0)

/-! ### Firmware (R396, R397) -/

/-- A segment of the inactive slot (R397). -/
def imageWrite (s : State) (off : Nat) (data : List Byte) : State × Nat :=
  if data.length = 0 ∨ 1024 < data.length ∨ 8388608 < off + data.length then (s, 4)
  else
    let l := s.lantern
    let put (f : FwSlot) : FwSlot := { f with bytes := data.zipIdx.foldl (fun m e => Mem.wr 0 m (off + e.2) e.1) f.bytes }
    let l : Lantern := if l.activeB then { l with slotA := put l.slotA } else { l with slotB := put l.slotB }
    ({ s with lantern := { l with fwStatus := 0, committed := false } }, 0)

/-- FW_COMMIT: the inactive slot is verified, and becomes active at the next start; in recovery the module restarts at S0, with
a START_US that nothing gives (R396, R397, R406). -/
def commitWrite (s : State) (v : Nat) : State × Nat :=
  if v ≠ 1 then (s, 3)
  else if s.lantern.spareSlot.check s.lantern.fuses = 0 then
    let s := { s with lantern := { s.lantern with fwStatus := 1, committed := true } }.logEvent 7 0
    (if s.bring.at_ = .recovery ∨ s.lantern.recovery then (s.lose .off).lateStart else s, 0)
  else ({ s with lantern := { s.lantern with fwStatus := 2, committed := false } }, 9)

/-! ### Attestation (R399, R400) -/

/-- An attestation report (Table 15.9), signed with fresh random bytes. -/
def attestation (s : State) (nonce : BitVec 256) : List Byte :=
  let l := s.lantern
  let head := [0x59, 0x41, 0x54, 0x52, 0x01, 0x00] ++ bytesOf 4851 2 ++ bytesOf nonce.toNat 32 ++ serialBytes ++
    bytesOf (gradeCode s.grade) 1 ++ bytesOf (steppingCode s.stepping) 1 ++ bytesOf l.od.address.toNat 3 ++ [0, 0, 0] ++
    bytesOf (keyPart s.stepping 6) 4 ++ bytesOf l.fwVersion 4 ++ bytesOf l.runSv 1 ++ bytesOf l.fuses 1 ++
    bytesOf (b01 l.runningB) 1 ++ [0] ++ bytesOf s.inService.toNat 4 ++ sha3 l.runSlot.image ++
    (sha3 (((List.range 7).map (· + 1)).flatMap (groupValues l.od))).take 56 ++ bytesOf s.clock.dome 8
  head ++ mlSign Config.identitySeed (sha3 head) (Config.signRandom s.free)

/-- A segment of a nonce, on what the path and function wrote before: the report follows within 20 ms (R383, R399). -/
def nonceWrite (s : State) (q : ReqPath) (off : Nat) (data : List Byte) : State × Nat :=
  let old := match Mem.find s.lantern.attest (pathKey q) with
    | some a => bytesOf a.nonce.toNat 32
    | none => List.replicate 32 0
  let nonce := BitVec.ofNat 256 (natOfBytes (old.take off ++ data ++ old.drop (off + data.length)))
  ({ s with lantern := { s.lantern with
      attest := Mem.put s.lantern.attest (pathKey q) { nonce := nonce, due := s.clock.dome + 20000000, report := none } } }, 0)

/-! ### WRITE (R380, R381, R384) -/

/-- The WRITE of one entry, its class and length being right. -/
def writeEntry (s : State) (q : ReqPath) (d : OdDef) (idx sub off : Nat) (data : List Byte) : State × Nat :=
  let v := natOfBytes data
  if idx = 0x4012 then (if sub = 1 then fenceWrite s (BitVec.ofNat 32 v) else unfenceWrite s (BitVec.ofNat 32 v))
  else if idx = 0x8010 then imageWrite s off data
  else if idx = 0x8011 then commitWrite s v
  else if idx = 0x8020 then nonceWrite s q off data
  else writeScalar s d idx sub v

/-- WRITE: the checks of Table 15.2 in the order no such object, class, length, value; where the persistent store fails to
complete a write, the old values stay in force (STORE_ERROR). -/
def odWriteBody (q : ReqPath) (r : OdReq) (data : List Byte) (fails : Bool) (s : State) : State × Nat × List Byte :=
  let len := r.length.toNat
  if badRequest r then (s, 8, [])
  else match odDef s.grade s.stepping r.index.toNat r.sub.toNat with
    | none => (s, 1, [])
    | some d =>
      if d.write = 0 then (s, 5, [])
      else if d.write = 1 ∧ !pathM q then (s, 2, [])
      else if len ≠ data.length ∨ len = 0 ∨ 1024 < len then (s, 4, [])
      else if (if d.kind = 8 then decide (d.size < r.offset.toNat + len) else decide (r.offset ≠ 0) || decide (len ≠ d.size)) then
        (s, 4, [])
      else
        let w := writeEntry s q d r.index.toNat r.sub.toNat r.offset.toNat data
        if fails && decide (w.2 = 0) && decide (w.1.lantern.kept ≠ s.lantern.kept) then (s, 10, []) else (w.1, w.2, [])

/-- A request, whatever its operation: READ, WRITE, INFO, or one that the dictionary does not have (R380, R381). -/
def odBody (q : ReqPath) (r : OdReq) (data : List Byte) (fails : Bool) (s : State) : State × Nat × List Byte :=
  match r.op.toNat with
  | 1 => odReadBody q r s
  | 2 => odWriteBody q r data fails s
  | 3 => odInfoBody r s
  | _ => (s, 8, [])

def State.odServe (s : State) (q : ReqPath) (r : OdReq) (data : List Byte) (fails : Bool) : State :=
  s.served q r (odBody q r data fails)

/-- The request that bytes spell, and its data (Table 15.1); a byte that is missing counts as 0. -/
def odParse (b : List Byte) : OdReq × List Byte :=
  let num (lo n : Nat) : Nat := natOfBytes ((b.drop lo).take n)
  ({ op := b.getD 0 0, tag := b.getD 1 0, index := BitVec.ofNat 16 (num 2 2), sub := b.getD 4 0, zero := b.getD 5 0
     offset := BitVec.ofNat 32 (num 6 4), length := BitVec.ofNat 16 (num 10 2) }, b.drop 12)

/-- OD_READ: a READ, or a request whose operation is none of the three. -/
def execOdRead (q : ReqPath) (r : OdReq) (s : State) : Host.Outcome State Fault Refusal := .next (s.odServe q r [] false)

/-- OD_INFO. -/
def execOdInfo (q : ReqPath) (r : OdReq) (s : State) : Host.Outcome State Fault Refusal := .next (s.odServe q r [] false)

/-- OD_WRITE; `fails` says that the persistent store fails to complete the write (Table 15.2). -/
def execOdWrite (q : ReqPath) (r : OdReq) (data : List Byte) (fails : Bool) (s : State) : Host.Outcome State Fault Refusal :=
  .next (s.odServe q r data fails)

/-- The WRITE of an entry with a command of its own. -/
def writeRequest (tag : Byte) (idx sub off len : Nat) : OdReq :=
  { op := 2, tag := tag, index := BitVec.ofNat 16 idx, sub := BitVec.ofNat 8 sub, zero := 0, offset := BitVec.ofNat 32 off
    length := BitVec.ofNat 16 len }

/-- FENCE (R392). -/
def execFence (q : ReqPath) (tag : Byte) (target : Word) (fails : Bool) (s : State) : Host.Outcome State Fault Refusal :=
  .next (s.odServe q (writeRequest tag 0x4012 1 0 4) (bytesOf target.toNat 4) fails)

/-- UNFENCE (R392). -/
def execUnfence (q : ReqPath) (tag : Byte) (target : Word) (fails : Bool) (s : State) : Host.Outcome State Fault Refusal :=
  .next (s.odServe q (writeRequest tag 0x4012 2 0 4) (bytesOf target.toNat 4) fails)

/-- FW_IMAGE (R397). -/
def execFwImage (q : ReqPath) (tag : Byte) (offset : Nat) (data : List Byte) (fails : Bool) (s : State) :
    Host.Outcome State Fault Refusal :=
  .next (s.odServe q (writeRequest tag 0x8010 0 offset data.length) data fails)

/-- FW_COMMIT (R397). -/
def execFwCommit (q : ReqPath) (tag : Byte) (value : Byte) (fails : Bool) (s : State) : Host.Outcome State Fault Refusal :=
  .next (s.odServe q (writeRequest tag 0x8011 1 0 1) [value] fails)

/-- ATTEST_NONCE (R399). -/
def execAttestNonce (q : ReqPath) (tag : Byte) (nonce : BitVec 256) (s : State) : Host.Outcome State Fault Refusal :=
  .next (s.odServe q (writeRequest tag 0x8020 1 0 32) (bytesOf nonce.toNat 32) false)

/-- ATTEST_REPORT: the report for the last nonce of a path is signed and becomes readable (R399). -/
def attestReport (s : State) (q : ReqPath) : State :=
  match Mem.find s.lantern.attest (pathKey q) with
  | some a =>
    if a.report.isNone ∧ !s.lantern.restarting then
      { s with
        lantern := { s.lantern with
          attest := Mem.put s.lantern.attest (pathKey q) { a with report := some (attestation s a.nonce) } }
        free := s.free + 1 }
    else s
  | none => s

def execAttestReport (q : ReqPath) (s : State) : Host.Outcome State Fault Refusal := .next (attestReport s q)

/-- A DOE data object: vendor ID, type, a reserved byte and its length in double words, then its bytes padded to a double word
(R400; log entry 62). -/
def doeBytes (vendor : BitVec 16) (type : Byte) (l : List Byte) : List Byte :=
  let n := (l.length + 3) / 4
  bytesOf vendor.toNat 2 ++ [type, 0] ++ bytesOf (n + 2) 4 ++ l ++ List.replicate (4 * n - l.length) 0

/-- DOE Discovery: the object types in turn, 0x00 of PCI-SIG and 0x01 of the module's vendor, each with the next index (R400). -/
def doeDiscovery (index : Byte) : List Byte :=
  doeBytes 1 0 (match index.toNat with
    | 0 => [0x01, 0x00, 0x00, 0x01]
    | 1 => bytesOf Config.vendorId.toNat 2 ++ [0x01, 0x00]
    | _ => [0xFF, 0xFF, 0x00, 0x00])

/-- DOE_REQUEST: Discovery, or the report for the nonce of the request and then IDENTITY_CERT (R400). -/
def execDoeRequest (host : Fin 2) (object : DoeObject) (s : State) : Host.Outcome State Fault Refusal :=
  .next (if s.pathOpen (.pf host) ∧ !s.lantern.restarting then
      match object with
      | .discovery i => s.emitOut [.doe host (doeDiscovery i)]
      | .attest nonce =>
        { s.emitOut [.doe host (doeBytes Config.vendorId 0x01 (attestation s nonce ++ identityCert))] with free := s.free + 1 }
    else s)

/-! ### The lantern's restart (R377) -/

/-- LANTERN_RESTART: the watchdog has expired, or a word of the lantern's memories is uncorrectable. -/
def execLanternRestart (memoryError : Bool) (s : State) : Host.Outcome State Fault Refusal :=
  .next (if s.bring.at_ = .off then s else s.restartLantern memoryError)

/-- RESTART_COMPLETE: the firmware has been verified again, and buffered records are processed in their order (R377). Where no
slot passes, the lantern enters recovery: all that waits for it goes on waiting (R395; log entry 67). -/
def restartComplete (s : State) : State :=
  if s.lantern.restarting ∧ !s.lantern.recovery then
    match s.lantern.bootSlot with
    | none => { s with lantern := { s.lantern with recovery := true } }
    | some slot =>
      s.lantern.buffered.foldl State.takeRecord
        { s with lantern := { s.lantern.run slot with restarting := false, recovery := false, buffered := [] } }
  else s

def execRestartComplete (s : State) : Host.Outcome State Fault Refusal := .next (restartComplete s)

end Sys2Proof.Machine
end

