-- ==== Sys2Proof/Machine/Mctp.lean ====
section
/-!
DEFINITION. Sys2Proof/Machine/Mctp.lean: the lantern as an MCTP endpoint: packets and messages over port 15, control messages,
and the I3C target (R378, R379); and the order of requests that arrive in one cycle (R382).

R378 names DSP0236, whose text spec/ does not repeat: headers, message assembly and control messages are PRESUMED from that
standard (log entry 59).
-/
namespace Sys2Proof.Machine

/-! ### Control messages (R378) -/

def mediumPath : Medium → ReqPath
  | .pcieH0 => .pf 0
  | .pcieH1 => .pf 1
  | .i3c => .i3c
  | .link => .port15

/-- The endpoint ID of a medium. -/
def Lantern.eid (l : Lantern) : Medium → Byte
  | .pcieH0 => l.eidH0
  | .pcieH1 => l.eidH1
  | .i3c => l.eidI3c
  | .link => l.eidLink

def Lantern.setEid (l : Lantern) (m : Medium) (e : Byte) : Lantern :=
  match m with
  | .pcieH0 => { l with eidH0 := e }
  | .pcieH1 => { l with eidH1 := e }
  | .i3c => { l with eidI3c := e }
  | .link => { l with eidLink := e }

/-- A control message is answered where its medium reaches the lantern: message type 0x00, the instance ID of the request, its
command, and what the command answers. -/
def State.control (s : State) (q : ControlReq) (cmd : Byte) (body : State → State × List Byte) : State :=
  if s.pathOpen (mediumPath q.medium) ∧ !s.lantern.restarting then
    let r := body s
    r.1.mctpOut (mediumPath q.medium) ([0x00, q.inst.setWidth 8, cmd] ++ r.2)
  else s

/-- Set Endpoint ID: 0x00 and 0xFF are no endpoint IDs. -/
def setEidBody (m : Medium) (eid : Byte) (s : State) : State × List Byte :=
  if eid = 0 ∨ eid = 0xFF then (s, [0x02]) else ({ s with lantern := s.lantern.setEid m eid }, [0x00, 0x00, eid, 0x00])

def execSetEndpointId (r : ControlReq) (eid : Byte) (s : State) : Host.Outcome State Fault Refusal :=
  .next (s.control r 0x01 (setEidBody r.medium eid))

/-- Get Endpoint ID. -/
def getEidBody (m : Medium) (s : State) : State × List Byte := (s, [0x00, s.lantern.eid m, 0x00, 0x00])

def execGetEndpointId (r : ControlReq) (s : State) : Host.Outcome State Fault Refusal :=
  .next (s.control r 0x02 (getEidBody r.medium))

/-- Get MCTP Version Support. -/
def versionBody (s : State) : State × List Byte := (s, 0x00 :: Config.mctpVersions)

def execGetMctpVersionSupport (r : ControlReq) (s : State) : Host.Outcome State Fault Refusal :=
  .next (s.control r 0x04 versionBody)

/-- Get Message Type Support: message type 0x7E (R378). -/
def typeBody (s : State) : State × List Byte := (s, [0x00, 0x01, 0x7E])

def execGetMessageTypeSupport (r : ControlReq) (s : State) : Host.Outcome State Fault Refusal :=
  .next (s.control r 0x05 typeBody)

/-- A control request by its command; every other command answers that it is not supported. -/
def State.controlRequest (s : State) (r : ControlReq) (cmd : Byte) (data : List Byte) : State :=
  s.control r cmd (match cmd.toNat with
    | 1 => setEidBody r.medium (if (data.getD 0 0).toNat % 4 < 2 then data.getD 1 0 else 0)
    | 2 => getEidBody r.medium
    | 4 => versionBody
    | 5 => typeBody
    | _ => fun s => (s, [0x05]))

/-! ### Messages over port 15 (R378, R379) -/

/-- Packets of one message share the sender's endpoint ID, the tag and its owner. -/
def packetKey (pkt : List Byte) : Byte × Nat := (pkt.getD 2 0, (pkt.getD 3 0).toNat % 16)
/-- The sequence number of a packet. -/
def packetSeq (pkt : List Byte) : Nat := (pkt.getD 3 0).toNat / 16 % 4

/-- Take a packet: the packets that now wait, and the message that the packet ends. A packet of another header version or for
another endpoint, one that continues nothing, and a message of more than 1,088 bytes are dropped. -/
def takePacket (l : Lantern) (pkt : List Byte) : List (List Byte) × Option (List Byte) :=
  let flags := pkt.getD 3 0
  let dest := pkt.getD 1 0
  if pkt.length < 4 ∨ (pkt.getD 0 0).toNat % 16 ≠ 1 ∨ (dest ≠ 0 ∧ dest ≠ l.eidLink) then (l.inbox, none)
  else
    let mine (p : List Byte) : Bool := decide (packetKey p = packetKey pkt)
    let rest := l.inbox.filter (fun p => !mine p)
    let run := if bit flags 7 then [pkt]
      else match (l.inbox.filter mine).getLast? with
        | some p => if packetSeq pkt = (packetSeq p + 1) % 4 then l.inbox.filter mine ++ [pkt] else []
        | none => []
    let msg := run.flatMap (List.drop 4)
    if run.isEmpty ∨ 1088 < msg.length then (rest, none)
    else if bit flags 6 then (rest, some msg)
    else (rest ++ run, none)

/-- A message for the lantern: a control request, or a request to the object dictionary under the vendor's ID. Every other
message is dropped. -/
def State.message (s : State) (msg : List Byte) : State :=
  match msg with
  | 0x7E :: a :: b :: req =>
    if 0x7E :: a :: b :: [] = vendorHead then
      let r := odParse req
      s.odServe .port15 r.1 r.2 false
    else s
  | 0x00 :: flags :: cmd :: data => if bit flags 7 then s.controlRequest ⟨.link, flags.setWidth 5⟩ cmd data else s
  | _ => s

/-- An MCTP packet reaches the lantern over port 15. -/
def State.packet (s : State) (pkt : List Byte) : State :=
  let r := takePacket s.lantern pkt
  let s := { s with lantern := { s.lantern with inbox := r.1 } }
  match r.2 with
  | none => s
  | some msg =>
    { s with lantern := { s.lantern with peerEid := pkt.getD 2 0, peerTag := (pkt.getD 3 0).setWidth 3 } }.message msg

/-- MGMT: port 15 brings the lantern one MCTP packet, and a message that it ends is served (R378). -/
def execMgmt (p : Fin 16) (s : State) : Host.Outcome State Fault Refusal :=
  .next (match s.takeRx p.val 0x18 with
    | none => s
    | some (f, s) =>
      let s := s.leavePort p.val f 1
      if p = 15 ∧ s.pathOpen .port15 then s.packet (bytesOf (f.payload.toNat / 65536) (min 254 (fld f.payload 15 0))) else s)

/-! ### I3C (R378) -/

/-- ENTDAA: the lantern takes its I3C dynamic address (R378). -/
def execEntdaa (addr : BitVec 7) (s : State) : Host.Outcome State Fault Refusal :=
  .next (if s.bring.at_ = .off then s else { s with lantern := { s.lantern with dynAddr := some addr } })

/-! ### Requests of one cycle (R382, R401) -/

/-- The place of a path among requests that reach the lantern in one cycle: H0, H1, I3C, port 15. -/
def pathRank : ReqPath → Nat
  | .pf h => h.val
  | .vf h _ => h.val
  | .i3c => 2
  | .port15 => 3

/-- The path of a command that is a request to the lantern. -/
def requestPath : Instr → Option ReqPath
  | .odRead q _ => some q
  | .odWrite q _ _ _ => some q
  | .odInfo q _ => some q
  | .fence q _ _ _ => some q
  | .unfence q _ _ _ => some q
  | .fwImage q _ _ _ _ => some q
  | .fwCommit q _ _ _ => some q
  | .attestNonce q _ _ => some q
  | .doeRequest h _ => some (.pf h)
  | .mgmt _ => some .port15
  | _ => none

/-- Commands that arrive in one cycle join the queue: those that are no requests to the lantern first, then the requests in
the order of their paths (R382). -/
def State.arrive (s : State) (l : List Instr) : State :=
  let rank (k : Nat) : List Instr := l.filter (fun i => decide ((requestPath i).map pathRank = some k))
  { s with pending := s.pending ++ l.filter (fun i => (requestPath i).isNone) ++ (List.range 4).flatMap rank }

end Sys2Proof.Machine
end

