-- ==== Sys2Proof/Machine/Dispatch.lean ====
section
/-!
DEFINITION. Sys2Proof/Machine/Dispatch.lean: one arm per command. `exec` is the command's effect on everything but the
queue of waiting commands.
-/
namespace Sys2Proof.Machine

def exec (i : Instr) (s : State) : Host.Outcome State Fault Refusal :=
  match i with
  | .nop c slot => Sys2Proof.Machine.execNop c slot s
  | .add c rd ra rb => Sys2Proof.Machine.execAdd c rd ra rb s
  | .sub c rd ra rb => Sys2Proof.Machine.execSub c rd ra rb s
  | .and c rd ra rb => Sys2Proof.Machine.execAnd c rd ra rb s
  | .or c rd ra rb => Sys2Proof.Machine.execOr c rd ra rb s
  | .xor c rd ra rb => Sys2Proof.Machine.execXor c rd ra rb s
  | .sll c rd ra rb => Sys2Proof.Machine.execSll c rd ra rb s
  | .srl c rd ra rb => Sys2Proof.Machine.execSrl c rd ra rb s
  | .sra c rd ra rb => Sys2Proof.Machine.execSra c rd ra rb s
  | .slt c rd ra rb => Sys2Proof.Machine.execSlt c rd ra rb s
  | .sltu c rd ra rb => Sys2Proof.Machine.execSltu c rd ra rb s
  | .min c rd ra rb => Sys2Proof.Machine.execMin c rd ra rb s
  | .max c rd ra rb => Sys2Proof.Machine.execMax c rd ra rb s
  | .minu c rd ra rb => Sys2Proof.Machine.execMinu c rd ra rb s
  | .maxu c rd ra rb => Sys2Proof.Machine.execMaxu c rd ra rb s
  | .addi c rd ra imm => Sys2Proof.Machine.execAddi c rd ra imm s
  | .andi c rd ra imm => Sys2Proof.Machine.execAndi c rd ra imm s
  | .ori c rd ra imm => Sys2Proof.Machine.execOri c rd ra imm s
  | .xori c rd ra imm => Sys2Proof.Machine.execXori c rd ra imm s
  | .slli c rd ra imm => Sys2Proof.Machine.execSlli c rd ra imm s
  | .srli c rd ra imm => Sys2Proof.Machine.execSrli c rd ra imm s
  | .srai c rd ra imm => Sys2Proof.Machine.execSrai c rd ra imm s
  | .slti c rd ra imm => Sys2Proof.Machine.execSlti c rd ra imm s
  | .sltiu c rd ra imm => Sys2Proof.Machine.execSltiu c rd ra imm s
  | .li c rd ra imm => Sys2Proof.Machine.execLi c rd ra imm s
  | .mul c rd ra rb => Sys2Proof.Machine.execMul c rd ra rb s
  | .mulh c rd ra rb => Sys2Proof.Machine.execMulh c rd ra rb s
  | .mulhu c rd ra rb => Sys2Proof.Machine.execMulhu c rd ra rb s
  | .div c rd ra rb => Sys2Proof.Machine.execDiv c rd ra rb s
  | .divu c rd ra rb => Sys2Proof.Machine.execDivu c rd ra rb s
  | .rem c rd ra rb => Sys2Proof.Machine.execRem c rd ra rb s
  | .remu c rd ra rb => Sys2Proof.Machine.execRemu c rd ra rb s
  | .fadd c rd ra rb => Sys2Proof.Machine.execFadd c rd ra rb s
  | .fsub c rd ra rb => Sys2Proof.Machine.execFsub c rd ra rb s
  | .fmul c rd ra rb => Sys2Proof.Machine.execFmul c rd ra rb s
  | .fmin c rd ra rb => Sys2Proof.Machine.execFmin c rd ra rb s
  | .fmax c rd ra rb => Sys2Proof.Machine.execFmax c rd ra rb s
  | .fcvtsw c rd ra rb => Sys2Proof.Machine.execFcvtsw c rd ra rb s
  | .fcvtws c rd ra rb => Sys2Proof.Machine.execFcvtws c rd ra rb s
  | .feq c rd ra rb => Sys2Proof.Machine.execFeq c rd ra rb s
  | .flt c rd ra rb => Sys2Proof.Machine.execFlt c rd ra rb s
  | .fle c rd ra rb => Sys2Proof.Machine.execFle c rd ra rb s
  | .fmvsx c rd ra rb => Sys2Proof.Machine.execFmvsx c rd ra rb s
  | .fmvxs c rd ra rb => Sys2Proof.Machine.execFmvxs c rd ra rb s
  | .fli c rd ra imm => Sys2Proof.Machine.execFli c rd ra imm s
  | .lw c rd ra imm => Sys2Proof.Machine.execLw c rd ra imm s
  | .flw c rd ra imm => Sys2Proof.Machine.execFlw c rd ra imm s
  | .sw c rs ra imm => Sys2Proof.Machine.execSw c rs ra imm s
  | .fsw c rs ra imm => Sys2Proof.Machine.execFsw c rs ra imm s
  | .mfc c rd creg => Sys2Proof.Machine.execMfc c rd creg s
  | .mtc c rd creg => Sys2Proof.Machine.execMtc c rd creg s
  | .beq c ra rb dd target => Sys2Proof.Machine.execBeq c ra rb dd target s
  | .bne c ra rb dd target => Sys2Proof.Machine.execBne c ra rb dd target s
  | .blt c ra rb dd target => Sys2Proof.Machine.execBlt c ra rb dd target s
  | .bge c ra rb dd target => Sys2Proof.Machine.execBge c ra rb dd target s
  | .bltu c ra rb dd target => Sys2Proof.Machine.execBltu c ra rb dd target s
  | .bgeu c ra rb dd target => Sys2Proof.Machine.execBgeu c ra rb dd target s
  | .j c ra rb dd target => Sys2Proof.Machine.execJ c ra rb dd target s
  | .jal c ra rb dd target => Sys2Proof.Machine.execJal c ra rb dd target s
  | .jr c ra rb dd target => Sys2Proof.Machine.execJr c ra rb dd target s
  | .loop c ra reg dd count last => Sys2Proof.Machine.execLoop c ra reg dd count last s
  | .halt c => Sys2Proof.Machine.execHalt c s
  | .ovl c row group => Sys2Proof.Machine.execOvl c row group s
  | .resultLanding c => Sys2Proof.Machine.execResultLanding c s
  | .tpass c mode ofmt wfmt transp desc anchor => Sys2Proof.Machine.execTpass c mode ofmt wfmt transp desc anchor s
  | .passStep c => Sys2Proof.Machine.execPassStep c s
  | .wld c rs rowoff slot half pack6 => Sys2Proof.Machine.execWld c rs rowoff slot half pack6 s
  | .opld c rs rowoff buf pack6 => Sys2Proof.Machine.execOpld c rs rowoff buf pack6 s
  | .scld c rs rowoff dst off => Sys2Proof.Machine.execScld c rs rowoff dst off s
  | .tdrain c bank tr trow dfmt idx clr => Sys2Proof.Machine.execTdrain c bank tr trow dfmt idx clr s
  | .tclr c mask => Sys2Proof.Machine.execTclr c mask s
  | .vchain c chain src srow nrows dst drow => Sys2Proof.Machine.execVchain c chain src srow nrows dst drow s
  | .vld c rs rowoff fmt tr trow sat => Sys2Proof.Machine.execVld c rs rowoff fmt tr trow sat s
  | .vst c rs rowoff fmt tr trow sat => Sys2Proof.Machine.execVst c rs rowoff fmt tr trow sat s
  | .vred c rop axis src srow nrows dst drow mask minv => Sys2Proof.Machine.execVred c rop axis src srow nrows dst drow mask minv s
  | .vreds c rop rd src srow mask minv fb => Sys2Proof.Machine.execVreds c rop rd src srow mask minv fb s
  | .vxacc c axis src srow nrows mask minv => Sys2Proof.Machine.execVxacc c axis src srow nrows mask minv s
  | .vxdrain c raw dst drow xsel clr => Sys2Proof.Machine.execVxdrain c raw dst drow xsel clr s
  | .vxmerge c src srow xsel => Sys2Proof.Machine.execVxmerge c src srow xsel s
  | .vxclr c => Sys2Proof.Machine.execVxclr c s
  | .vmset c md mode off => Sys2Proof.Machine.execVmset c md mode off s
  | .vmop c md ma mb fn => Sys2Proof.Machine.execVmop c md ma mb fn s
  | .afrexp c k src srow nrows mask minv => Sys2Proof.Machine.execAfrexp c k src srow nrows mask minv s
  | .afrxsend c k route dest => Sys2Proof.Machine.execAfrxsend c k route dest s
  | .afrcvt c k src srow rs rowoff mask minv => Sys2Proof.Machine.execAfrcvt c k src srow rs rowoff mask minv s
  | .afrsend c k route dest rs rowoff drow => Sys2Proof.Machine.execAfrsend c k route dest rs rowoff drow s
  | .afradd c k ra aoff rb boff rd doff => Sys2Proof.Machine.execAfradd c k ra aoff rb boff rd doff s
  | .afrfin c k rs rowoff dst drow => Sys2Proof.Machine.execAfrfin c k rs rowoff dst drow s
  | .afrend c k => Sys2Proof.Machine.execAfrend c k s
  | .sgo c m d ra rb => Sys2Proof.Machine.execSgo c m d ra rb s
  | .sarm c m d ra rb skeep dkeep => Sys2Proof.Machine.execSarm c m d ra rb skeep dkeep s
  | .sstop c m d now => Sys2Proof.Machine.execSstop c m d now s
  | .rowPipeIssue c m => Sys2Proof.Machine.execRowPipeIssue c m s
  | .streamBoundary c d => Sys2Proof.Machine.execStreamBoundary c d s
  | .indexRowRead c d => Sys2Proof.Machine.execIndexRowRead c d s
  | .looseRowIssue c d => Sys2Proof.Machine.execLooseRowIssue c d s
  | .looseRowDone c d row r => Sys2Proof.Machine.execLooseRowDone c d row r s
  | .looseLanding c => Sys2Proof.Machine.execLooseLanding c s
  | .wait c sig n => Sys2Proof.Machine.execWait c sig n s
  | .waitr c sig rs => Sys2Proof.Machine.execWaitr c sig rs s
  | .post c sig n => Sys2Proof.Machine.execPost c sig n s
  | .sigsend c sig ra => Sys2Proof.Machine.execSigsend c sig ra s
  | .bar c b => Sys2Proof.Machine.execBar c b s
  | .rejoin c b rs => Sys2Proof.Machine.execRejoin c b rs s
  | .lopen c => Sys2Proof.Machine.execLopen c s
  | .qput c rs rowoff => Sys2Proof.Machine.execQput c rs rowoff s
  | .qsend c ra rb => Sys2Proof.Machine.execQsend c ra rb s
  | .qrecv c q rd => Sys2Proof.Machine.execQrecv c q rd s
  | .qpop c q => Sys2Proof.Machine.execQpop c q s
  | .qres c rd => Sys2Proof.Machine.execQres c rd s
  | .signalArrival c => Sys2Proof.Machine.execSignalArrival c s
  | .waitSatisfied c => Sys2Proof.Machine.execWaitSatisfied c s
  | .barrierRelease n b => Sys2Proof.Machine.execBarrierRelease n b s
  | .rejoinCheck n b => Sys2Proof.Machine.execRejoinCheck n b s
  | .rejoinResume n b => Sys2Proof.Machine.execRejoinResume n b s
  | .messageProcessing c => Sys2Proof.Machine.execMessageProcessing c s
  | .contributionProcessing n region => Sys2Proof.Machine.execContributionProcessing n region s
  | .sumResend n region q => Sys2Proof.Machine.execSumResend n region q s
  | .fill c src dst count => Sys2Proof.Machine.execFill c src dst count s
  | .copy c src dst count => Sys2Proof.Machine.execCopy c src dst count s
  | .copyRowRead c => Sys2Proof.Machine.execCopyRowRead c s
  | .mopComplete c => Sys2Proof.Machine.execMopComplete c s
  | .queRingWrite c q value => Sys2Proof.Machine.execQueRingWrite c q value s
  | .registerWrite t value => Sys2Proof.Machine.execRegisterWrite t value s
  | .transferLanding t => Sys2Proof.Machine.execTransferLanding t s
  | .presenceCheck n => Sys2Proof.Machine.execPresenceCheck n s
  | .refreshDebt region ch => Sys2Proof.Machine.execRefreshDebt region ch s
  | .scrubRead p => Sys2Proof.Machine.execScrubRead p s
  | .scrubStarve p => Sys2Proof.Machine.execScrubStarve p s
  | .hbmScrub region ch unit ecc => Sys2Proof.Machine.execHbmScrub region ch unit ecc s
  | .clearingDone region => Sys2Proof.Machine.execClearingDone region s
  | .holdAccept n => Sys2Proof.Machine.execHoldAccept n s
  | .holdFreeze n => Sys2Proof.Machine.execHoldFreeze n s
  | .holdRelease n => Sys2Proof.Machine.execHoldRelease n s
  | .holdResume n => Sys2Proof.Machine.execHoldResume n s
  | .holdLimit n => Sys2Proof.Machine.execHoldLimit n s
  | .frequencyChange => Sys2Proof.Machine.execFrequencyChange s
  | .contextStart n => Sys2Proof.Machine.execContextStart n s
  | .contextComplete n => Sys2Proof.Machine.execContextComplete n s
  | .killStart n => Sys2Proof.Machine.execKillStart n s
  | .killReceipt n => Sys2Proof.Machine.execKillReceipt n s
  | .killEnd n => Sys2Proof.Machine.execKillEnd n s
  | .killTimer n => Sys2Proof.Machine.execKillTimer n s
  | .quietDetected n => Sys2Proof.Machine.execQuietDetected n s
  | .summaryTimer n => Sys2Proof.Machine.execSummaryTimer n s
  | .quietDump n => Sys2Proof.Machine.execQuietDump n s
  | .signalDetect p lanes => Sys2Proof.Machine.execSignalDetect p lanes s
  | .capabilityAccept p word crc copies => Sys2Proof.Machine.execCapabilityAccept p word crc copies s
  | .modeSelect p partnerMode partnerLanes => Sys2Proof.Machine.execModeSelect p partnerMode partnerLanes s
  | .trainRound p errors0 errors1 inverted partnerPass => Sys2Proof.Machine.execTrainRound p errors0 errors1 inverted partnerPass s
  | .alignDone p rttNs => Sys2Proof.Machine.execAlignDone p rttNs s
  | .negotiationTimeout p => Sys2Proof.Machine.execNegotiationTimeout p s
  | .downWait p => Sys2Proof.Machine.execDownWait p s
  | .retrain p fecLost => Sys2Proof.Machine.execRetrain p fecLost s
  | .retrainTimeout p => Sys2Proof.Machine.execRetrainTimeout p s
  | .flitReceive p w frac => Sys2Proof.Machine.execFlitReceive p w frac s
  | .nakResend p => Sys2Proof.Machine.execNakResend p s
  | .nakRepeat p => Sys2Proof.Machine.execNakRepeat p s
  | .headerTimer p => Sys2Proof.Machine.execHeaderTimer p s
  | .slotCycleSend p n => Sys2Proof.Machine.execSlotCycleSend p n s
  | .idle p w => Sys2Proof.Machine.execIdle p w s
  | .vacant p => Sys2Proof.Machine.execVacant p s
  | .row p => Sys2Proof.Machine.execRow p s
  | .rowLoose src => Sys2Proof.Machine.execRowLoose src s
  | .signal src => Sys2Proof.Machine.execSignal src s
  | .qmsg src => Sys2Proof.Machine.execQmsg src s
  | .qresult src => Sys2Proof.Machine.execQresult src s
  | .contrib src => Sys2Proof.Machine.execContrib src s
  | .barArrive p => Sys2Proof.Machine.execBarArrive p s
  | .barRelease p => Sys2Proof.Machine.execBarRelease p s
  | .reduce p => Sys2Proof.Machine.execReduce p s
  | .summary p => Sys2Proof.Machine.execSummary p s
  | .timeSync p => Sys2Proof.Machine.execTimeSync p s
  | .holdNotice p => Sys2Proof.Machine.execHoldNotice p s
  | .releaseNotice p => Sys2Proof.Machine.execReleaseNotice p s
  | .killNotice p => Sys2Proof.Machine.execKillNotice p s
  | .clockAgree p => Sys2Proof.Machine.execClockAgree p s
  | .mgmt p => Sys2Proof.Machine.execMgmt p s
  | .timeSyncTimer => Sys2Proof.Machine.execTimeSyncTimer s
  | .timeInputLost => Sys2Proof.Machine.execTimeInputLost s
  | .referenceLost => Sys2Proof.Machine.execReferenceLost s
  | .referenceRestored offset => Sys2Proof.Machine.execReferenceRestored offset s
  | .supplyInRange first v54mv v12mv => Sys2Proof.Machine.execSupplyInRange first v54mv v12mv s
  | .supplyLow mv => Sys2Proof.Machine.execSupplyLow mv s
  | .supplyRestored mv => Sys2Proof.Machine.execSupplyRestored mv s
  | .shutdown cause => Sys2Proof.Machine.execShutdown cause s
  | .v12Excursion mv us => Sys2Proof.Machine.execV12Excursion mv us s
  | .v54High mv => Sys2Proof.Machine.execV54High mv s
  | .presentMate => Sys2Proof.Machine.execPresentMate s
  | .powerSample avg100us avg1ms avg10ms => Sys2Proof.Machine.execPowerSample avg100us avg1ms avg10ms s
  | .measuredCapStep => Sys2Proof.Machine.execMeasuredCapStep s
  | .thermalCapStep => Sys2Proof.Machine.execThermalCapStep s
  | .sensorHold sensor tenths => Sys2Proof.Machine.execSensorHold sensor tenths s
  | .sensorRelease sensor tenths => Sys2Proof.Machine.execSensorRelease sensor tenths s
  | .overtempShutdown sensor tenths => Sys2Proof.Machine.execOvertempShutdown sensor tenths s
  | .stageS0 durUs badCopies badLogs => Sys2Proof.Machine.execStageS0 durUs badCopies badLogs s
  | .stageS1 durUs => Sys2Proof.Machine.execStageS1 durUs s
  | .stageS2 durUs ok ppb => Sys2Proof.Machine.execStageS2 durUs ok ppb s
  | .stageS3 durUs failed => Sys2Proof.Machine.execStageS3 durUs failed s
  | .stageS4 durUs failed => Sys2Proof.Machine.execStageS4 durUs failed s
  | .stageS5 durUs => Sys2Proof.Machine.execStageS5 durUs s
  | .stageS6 durUs ok skewPs => Sys2Proof.Machine.execStageS6 durUs ok skewPs s
  | .stageS7 durUs h0 h1 refclk => Sys2Proof.Machine.execStageS7 durUs h0 h1 refclk s
  | .stageS8 durUs => Sys2Proof.Machine.execStageS8 durUs s
  | .stageS9 durUs => Sys2Proof.Machine.execStageS9 durUs s
  | .stageS10 durUs time offset => Sys2Proof.Machine.execStageS10 durUs time offset s
  | .stageS11 durUs => Sys2Proof.Machine.execStageS11 durUs s
  | .perstDeassert host refclk t => Sys2Proof.Machine.execPerstDeassert host refclk t s
  | .portReset host k t => Sys2Proof.Machine.execPortReset host k t s
  | .functionLevelReset f => Sys2Proof.Machine.execFunctionLevelReset f s
  | .crossingTimeout x => Sys2Proof.Machine.execCrossingTimeout x s
  | .reenter f value => Sys2Proof.Machine.execReenter f value s
  | .cmdqTailWrite f value => Sys2Proof.Machine.execCmdqTailWrite f value s
  | .cmdqCfgWrite f value => Sys2Proof.Machine.execCmdqCfgWrite f value s
  | .cplqCfgWrite f value => Sys2Proof.Machine.execCplqCfgWrite f value s
  | .cplqHeadWrite f value => Sys2Proof.Machine.execCplqHeadWrite f value s
  | .commandFetch f entry => Sys2Proof.Machine.execCommandFetch f entry s
  | .commandAccept f seq => Sys2Proof.Machine.execCommandAccept f seq s
  | .eventRecord f => Sys2Proof.Machine.execEventRecord f s
  | .msixTimer f => Sys2Proof.Machine.execMsixTimer f s
  | .hostKill f value => Sys2Proof.Machine.execHostKill f value s
  | .hostMboxGo f value => Sys2Proof.Machine.execHostMboxGo f value s
  | .commandNop f seq => Sys2Proof.Machine.execCommandNop f seq s
  | .openSession f seq => Sys2Proof.Machine.execOpenSession f seq s
  | .closeSession f seq => Sys2Proof.Machine.execCloseSession f seq s
  | .setVfQuota f seq => Sys2Proof.Machine.execSetVfQuota f seq s
  | .load f seq => Sys2Proof.Machine.execLoad f seq s
  | .loadComplete n image => Sys2Proof.Machine.execLoadComplete n image s
  | .setHostWindow f seq => Sys2Proof.Machine.execSetHostWindow f seq s
  | .launch f seq => Sys2Proof.Machine.execLaunch f seq s
  | .kill f seq => Sys2Proof.Machine.execKill f seq s
  | .release f seq => Sys2Proof.Machine.execRelease f seq s
  | .dump f seq => Sys2Proof.Machine.execDump f seq s
  | .dumpDone n => Sys2Proof.Machine.execDumpDone n s
  | .leaseCreate f seq => Sys2Proof.Machine.execLeaseCreate f seq s
  | .leaseRelease f seq => Sys2Proof.Machine.execLeaseRelease f seq s
  | .fenceRecord e => Sys2Proof.Machine.execFenceRecord e s
  | .odRead q r => Sys2Proof.Machine.execOdRead q r s
  | .odWrite q r data fails => Sys2Proof.Machine.execOdWrite q r data fails s
  | .odInfo q r => Sys2Proof.Machine.execOdInfo q r s
  | .fence q tag target fails => Sys2Proof.Machine.execFence q tag target fails s
  | .unfence q tag target fails => Sys2Proof.Machine.execUnfence q tag target fails s
  | .fwImage q tag offset data fails => Sys2Proof.Machine.execFwImage q tag offset data fails s
  | .fwCommit q tag value fails => Sys2Proof.Machine.execFwCommit q tag value fails s
  | .attestNonce q tag nonce => Sys2Proof.Machine.execAttestNonce q tag nonce s
  | .attestReport q => Sys2Proof.Machine.execAttestReport q s
  | .doeRequest host object => Sys2Proof.Machine.execDoeRequest host object s
  | .setEndpointId r eid => Sys2Proof.Machine.execSetEndpointId r eid s
  | .getEndpointId r => Sys2Proof.Machine.execGetEndpointId r s
  | .getMctpVersionSupport r => Sys2Proof.Machine.execGetMctpVersionSupport r s
  | .getMessageTypeSupport r => Sys2Proof.Machine.execGetMessageTypeSupport r s
  | .entdaa addr => Sys2Proof.Machine.execEntdaa addr s
  | .lanternRestart memoryError => Sys2Proof.Machine.execLanternRestart memoryError s
  | .restartComplete => Sys2Proof.Machine.execRestartComplete s
  | .flitTransmit p frac => Sys2Proof.Machine.execFlitTransmit p frac s
  | .hbmReadData n id ecc => Sys2Proof.Machine.execHbmReadData n id ecc s
  | .refreshDebtCleared region ch => Sys2Proof.Machine.execRefreshDebtCleared region ch s
  | .completionTimeout c d row => Sys2Proof.Machine.execCompletionTimeout c d row s
  | .hbmChannelRetrain region ch ok => Sys2Proof.Machine.execHbmChannelRetrain region ch ok s
  | .cellMemoryScrub c dataMemory word => Sys2Proof.Machine.execCellMemoryScrub c dataMemory word s

end Sys2Proof.Machine
end

