-- ==== Sys2Proof/Machine/Clock.lean ====
section
/-!
DEFINITION. Sys2Proof/Machine/Clock.lean: one core clock cycle: what `step` does while no command waits. The cycle that has
executed ends, the counters advance, the next cycle begins, and the commands that the module itself carries out in it are
put into the queue: the slots of every cell's course, the row pipes, presence checks, landings, and what the root, the
timers and the links do without a command from outside. Each of them has its effect only when `step` takes it.
-/
namespace Sys2Proof.Machine

/-! ### The counters -/

/-- The times after one core clock cycle: 10^6 / kHz nanoseconds. The dome count is steered by at most 50 ppm where the clock
does not follow it (R21, R298, R418), and stays before S10 (R21). -/
def advanceDome (c : Clocks) : Clocks :=
  let c := { c with ns := c.ns + (c.nsAcc + 1000000) / c.khz, nsAcc := (c.nsAcc + 1000000) % c.khz }
  if c.domeValid then
    let rate : Int := 1000000 + (if c.refState = 1 then 0 else c.steer)
    let acc := c.domeAcc + rate.toNat
    { c with clk := c.clk + 1, dome := c.dome + acc / c.khz, domeAcc := acc % c.khz }
  else { c with clk := c.clk + 1 }

/-- Every context that a hold can stop is held. -/
def State.allHeld (s : State) : Bool := s.ctxs.all (fun e => !holdable e.2 || e.2.hold.held)

/-- While 54 V is low and every context is held, the clock is 0.4 GHz (Table 16.1, R44). -/
def lowerClock (s : State) : State :=
  if s.power.supplyLow ∧ s.allHeld then { s with clock := s.clock.setKhz (min s.clock.khz 400000) } else s

/-- Held time of a context that has not ended: HELD_NS, and the time that counts for HOLD_LIMIT_MS, which THERMAL and POWER
pause (R42, R362, R369). -/
def holdTime (x : Ctx) (ns : Nat) : Hold :=
  let h := x.hold
  if h.held ∧ x.state = .running then
    let paused := h.opened.any (fun e => decide (e.1 = .thermal) || decide (e.1 = .power))
    { h with ns := h.ns + ns, limit := if paused then h.limit else h.limit + ns }
  else h

/-- Core clock cycles of quiet (R259). -/
def quietTime (q : Quiet) (now : Bool) : Quiet :=
  if now then { q with run := q.run + 1 } else { q with run := 0, quiet := false, dumped := false }

/-- The lowest clock in force during a kill (R371). -/
def killClock (k : Kill) (khz : Nat) : Kill := { k with slowest := min k.slowest khz }

/-- The context's schedule cycle ends in this core clock cycle: it has executed it, or it is DONE and goes on (R349). -/
def cycleEnds (s : State) (x : Ctx) : Bool := running s x || (decide (x.state = .done) && portsRun s x)

/-- The context after one core clock cycle that lasted `ns` by the dome count. A cycle at which a pending hold begins, or K
of a kill, does not execute. -/
def advanceCtx (s : State) (n ns : Nat) : State :=
  let x := s.ctx n
  let ends := cycleEnds s x
  let x' : Ctx := { x with
    cc := if ends then x.cc + 1 else x.cc
    btime := if ends || (x.hold.held && overrunOnly x.hold) then x.btime + 1 else x.btime
    hold := holdTime x ns, quiet := quietTime x.quiet (quietNow s n)
    afrPeak := max x.afrPeak (bktsInFlight (s.cellsOf n))
    kill := if x.state = .killing then x.kill.map (fun k => killClock k s.clock.khz) else x.kill }
  let stops := ends && ((x'.hold.pending && decide (x'.hold.cycle ≤ x'.cc)) ||
    (decide (x.state = .killing) && x'.kill.any (fun k => decide (k.k ≤ x'.cc))))
  s.setCtx n { x' with fresh := x.fresh || stops }

/-- The context begins its cycle: the next schedule cycle, or in an OVERRUN hold the next cycle of its free-running cells.
-/
def beginCtx (s : State) (n : Nat) : State :=
  let x := s.ctx n
  if running s x then openCtx s n else if resumesNow s x then s else openFree s n

/-- The contexts that are not FREE. -/
def State.ctxNums (s : State) : List Nat := (s.ctxs.filter (fun e => decide (e.2.state ≠ .free))).map (·.1)

/-- Cells end the cycle that they have begun; the counters advance; contexts begin their next cycle; ports in CAPABILITY send
their word when a microsecond has passed (Table 11.2). -/
def nextCycle (s : State) : State :=
  let s := { s with cells := s.cells.map (fun e =>
    (e.1, if e.2.begun then closeCell e.2 else { e.2 with spad := { e.2.spad with claims := [] } })) }
  let s := lowerClock s
  let clock := advanceDome s.clock
  let ns := clock.dome - s.clock.dome
  let s := s.ctxNums.foldl (fun s n => advanceCtx s n ns) { s with clock := clock }
  let s := s.ctxNums.foldl (fun s n => (beginCtx s n).deliverWaiting n) s
  (List.range 16).foldl State.wordTimer s

/-! ### The commands of a cycle -/

def ctxFin (n : Nat) : Fin 32 := Fin.ofNat 32 n

/-- What happens before the cells issue: receipts of kills, freezes, starts, resumptions, and rejoins at J. -/
def startEvents (s : State) (n : Nat) : List Instr :=
  let x := s.ctx n
  let k := ctxFin n
  List.flatten [
    if x.state = .killing ∧ x.kill.any (fun q => !q.received && decide (q.startClk + 24 ≤ s.clock.clk)) then [.killReceipt k] else [],
    if freezesNow x ∧ x.state ≠ .armed then [.holdFreeze k] else [],
    if x.state = .armed ∧ s.clock.after (x.launch + 320) then [.contextStart k] else [],
    if resumesNow s x then [.holdResume k] else [],
    ((List.range 8).filter (fun b => x.bars.any (fun i => i.rejoin && decide (i.b = b) && decide (i.j = some x.cc)))).map (.rejoinResume k)]

/-- Run a command on a state. -/
def runOn (s : State) (i : Instr) : State :=
  match exec i s with
  | .next s' => s'
  | _ => s

/-- The slots that a cell issues in this cycle, in the order of R56. -/
def slotEvents (c : CellRef) (cell : Cell) : List Instr :=
  if cell.begun && cell.ctl.live && decide (cell.ctl.empties = 0) then
    (decodeCourse c (Mem.rd 0 cell.imem cell.ctl.pc.toNat)).filterMap (fun e => e.2.2)
  else []

/-- What the units of a cell do after its slots: passes, the one that a slot starts in this cycle among them, streams, COPY,
waits. Index rows are read for M0 before M1 (Table 8.1), and of the streams of one mover for the lower descriptor first (DESIGN
CHOICE, log entry 97). -/
def unitEvents (c : CellRef) (cell : Cell) (slots : List Instr) : List Instr :=
  let st := cell.strm.streams
  let d (e : Nat × Stream) : BitVec 4 := BitVec.ofNat 4 e.1
  let orphan (m : Bool) : Bool := cell.strm.orphans.any (fun e => decide (e.2.mover = m))
  let starts := slots.any (fun i => match i with | .tpass .. => true | _ => false)
  List.flatten [
    if cell.tens.pass.isSome || starts then [.passStep c] else [],
    (st.filter (fun e => !dLoose e.2.desc)).map (fun e => .streamBoundary c (d e)),
    ([false, true].flatMap (fun m => st.filter (fun e => decide (e.2.mover = m) && !e.2.idxPending.isEmpty))).map
    (fun e => .indexRowRead c (d e)),
    ([false, true].filter (fun m => st.any (fun e => decide (e.2.mover = m)) || orphan m)).map (.rowPipeIssue c),
    if cell.spad.mop.any (·.copy) then [.copyRowRead c] else [],
    (st.filter (fun e => dLoose e.2.desc)).map (fun e => .looseRowIssue c (d e)),
    (st ++ cell.strm.orphans).flatMap (fun e =>
    (e.2.outstanding.filter (fun o => decide (o.stage = 2))).map (fun o => .looseRowDone c (d e) o.row .failed)),
    if cell.ctl.waiting.isSome then [.waitSatisfied c] else []]

/-- The last events of the cycle in a cell that has begun it. -/
def lateEvents (c : CellRef) (cell : Cell) : List Instr :=
  [.transferLanding (.cell c)] ++ (if cell.spad.mop.isSome then [.mopComplete c] else []) ++ [.signalArrival c]

/-- Ports on which this cycle is a slot cycle of an owned pair of the context, by ascending pair and port (R287, R289). -/
def sendEvents (s : State) (n : Nat) : List Instr :=
  let x := s.ctx n
  if x.cc % 10 = 0 then
    ((List.range 16).filter (fun p => decide ((Mem.rd {} x.slots (32 * p + x.cc % 320 / 10)).kind = 1))).map
      (fun p => .slotCycleSend (Fin.ofNat 16 p) (ctxFin n))
  else []

/-- The barrier descriptors that this cycle can concern: those of an instance, and those that a slot names. -/
def barNumbers (x : Ctx) (slots : List Instr) : List Nat :=
  (List.range 8).filter (fun b => x.bars.any (fun i => decide (i.b = b)) || slots.any (fun i => match i with
    | .bar _ k => decide (k.toNat = b)
    | .rejoin _ k _ => decide (k.toNat = b)
    | _ => false))

/-- The commands of one context in this cycle: the slots, the units, the links, the barriers, and the end of the cycle, where loose
rows and write-backs look for banks on which nothing else is going to land (R190). -/
def ctxEvents (s : State) (n : Nat) : List Instr :=
  let x := s.ctx n
  let k := ctxFin n
  let cells := (s.cellRefs n).filterMap (fun c => (s.cell? c).map (fun cell => (c, cell)))
  let begun := cells.filter (fun e => e.2.begun)
  let slots := cells.flatMap (fun e => slotEvents e.1 e.2)
  let bars := barNumbers x slots
  List.flatten [
    bars.map (.rejoinCheck k),
    slots,
    cells.flatMap (fun e => unitEvents e.1 e.2 (slotEvents e.1 e.2)),
    sendEvents s n,
    bars.map (.rejoinCheck k),
    bars.map (.barrierRelease k),
    [.presenceCheck k],
    (cells.filter (fun e => e.2.sync.received.any (fun m => !m.accepted))).map (fun e => .messageProcessing e.1),
    (x.comb.filter (fun r => !r.2.stage.isEmpty)).map (fun r => .contributionProcessing k (BitVec.ofNat 5 r.1)),
    x.comb.flatMap (fun r => (r.2.qs.filter (fun q => q.2.resend.isSome)).map
    (fun q => .sumResend k (BitVec.ofNat 5 r.1) (BitVec.ofNat 6 q.1))),
    [.transferLanding (.hbm k)],
    begun.map (fun e => .resultLanding e.1),
    cells.map (fun e => .looseLanding e.1),
    begun.flatMap (fun e => lateEvents e.1 e.2)]

/-- What the root and the timers do for a context at the end of the cycle. -/
def rootEvents (s : State) (n : Nat) : List Instr :=
  let x := s.ctx n
  let k := ctxFin n
  let clk := s.clock.clk
  List.flatten [
    (x.hold.reqs.filter (holdDue clk)).map (fun _ => .holdAccept k),
    if x.hold.pending || x.hold.held then [.holdRelease k, .holdLimit k] else [],
    if x.state = .running then [.contextComplete k, .quietDetected k, .summaryTimer k, .quietDump k] else [],
    (x.kills.filter (killDue clk)).map (fun _ => .killStart k),
    if x.state = .killing then [.killEnd k, .killTimer k] else []]

/-- What the module does beside its contexts. -/
def moduleEvents (s : State) : List Instr :=
  List.flatten [
    if s.clock.pendingF.any (fun e => decide (e.f ≤ s.clock.dome)) then [.frequencyChange] else [],
    s.reports.map .fenceRecord,
    (s.ctxs.filter (fun e => decide (e.2.state = .loading) && e.2.got.isSome && !loadsBefore s e.1)).map
    (fun e => .loadComplete (ctxFin e.1) e.2.got),
    ((List.range 16).filter (fun p => (s.port p).naked)).map (fun p => .nakResend (Fin.ofNat 16 p)),
    (s.fns.filter (fun e => !e.2.records.isEmpty || !e.2.events.isEmpty)).map
    (fun e => .eventRecord ⟨Fin.ofNat 2 (e.1 / 16), Fin.ofNat 16 e.1⟩)]

/-- One core clock cycle. While the core clock does not run, nothing happens (R402). -/
def clockTick (s : State) : State :=
  if !s.clock.on then s
  else
    let s := nextCycle s
    let ns := s.ctxNums
    let starts := ns.flatMap (startEvents s)
    let sEv := starts.foldl runOn s
    { s with pending := starts ++ ns.flatMap (ctxEvents sEv) ++ ns.flatMap (rootEvents sEv) ++ moduleEvents sEv }

end Sys2Proof.Machine
end

