-- ==== Sys2Proof/Machine/Registers.lean ====
section
/-!
DEFINITION. Sys2Proof/Machine/Registers.lean: what a host reads through the BARs (R336 to R338): the value of every register
that a window shows, as the aligned 64-bit word at an offset. A read has no side effect (R6, R337), so the table of
commands has no row for one, and these are functions of the state.
-/
namespace Sys2Proof.Machine

/-- Word `k` of a register wider than 64 bits. -/
def wordOf {w : Nat} (r : BitVec w) (k : Nat) : DWord := r.extractLsb' (64 * k) 64

/-! ### The function window (Table 13.7) -/

/-- HOST_FN_STATUS (Table 13.17). -/
def fnStatus (s : State) (f : FnRef) : Word :=
  let q := s.fn f
  let l := s.hostLink f.host
  packFields 32 [(31, 31, b01 s.unrecoverable), (30, 30, b01 q.wrIgnored), (29, 29, b01 q.cfgErr), (28, 28, b01 q.dmaErr),
    (27, 27, b01 q.evtOverflow), (26, 26, b01 (q.cmds.any (·.mbox))), (19, 16, l.2.1), (15, 12, l.1), (11, 11, l.2.2),
    (10, 10, f.host.val), (4, 4, b01 (decide (f.fn ≠ 0))), (3, 0, f.fn.val)]

/-- The code of a state (Table 13.10). -/
def stateCode : CtxState → Nat
  | .free => 0
  | .loading => 1
  | .loaded => 2
  | .armed => 3
  | .running => 4
  | .killing => 5
  | .done => 6
  | .failed => 7

/-- HOST_HANDLEh (Table 13.20). -/
def handleReg (s : State) (f : FnRef) (h : Nat) : DWord :=
  match s.onHandle f h with
  | none => 0
  | some n =>
    let x := s.ctx n
    packFields 64 [(63, 48, if x.state = .failed then x.error else 0), (31, 28, stateCode x.state), (20, 16, n), (15, 8, x.session)]

def ringCfg (on : Bool) (size : Nat) : DWord := packFields 64 [(31, 31, b01 on), (4, 0, size)]

/-- A word of the function window (Tables 13.7, 13.17 to 13.20). HOST_KILL and HOST_MBOX_GO are write-only, and read
as 0. -/
def readFn (s : State) (f : FnRef) (off : Nat) : DWord :=
  let q := s.fn f
  if off = 0x000 then (fnStatus s f).setWidth 64
  else if off = 0x008 then q.cmdqBase
  else if off = 0x010 then ringCfg q.cmdqOn q.cmdqSize
  else if off = 0x018 then BitVec.ofNat 64 q.cmdqTail
  else if off = 0x020 then BitVec.ofNat 64 q.cmdqHead
  else if off = 0x028 then q.cplqBase
  else if off = 0x030 then ringCfg q.cplqOn q.cplqSize
  else if off = 0x038 then packFields 64 [(16, 16, b01 q.phase), (15, 0, q.cplqTail)]
  else if off = 0x040 then BitVec.ofNat 64 q.cplqHead
  else if off = 0x048 then packFields 64 [(31, 16, q.coalUs), (15, 8, q.coalN), (0, 0, b01 q.intOn)]
  else if 0x080 ≤ off ∧ off < 0x0C0 then wordOf q.mboxCmd ((off - 0x080) / 8)
  else if 0x0C0 ≤ off ∧ off < 0x0E0 then wordOf q.mboxRes ((off - 0x0C0) / 8)
  else if 0x100 ≤ off ∧ off < 0x140 then handleReg s f ((off - 0x100) / 8)
  else 0

/-- A word of the MSI-X table or of the pending bit array (Table 13.2; PRESUMED, log entry 73). -/
def readMsix (q : Fn) (off : Nat) : DWord :=
  let k := off / 16
  if off = 0x1000 then q.msixPend.setWidth 64
  else if 0x20 ≤ off then 0
  else if off % 16 = 0 then (q.msixAddr.toList.getD k 0)
  else packFields 64 [(32, 32, b01 (bit q.msixMask k)), (31, 0, (q.msixData.toList.getD k 0).toNat)]

/-- A field of the configuration space (Table 13.1; PRESUMED, log entry 73). -/
def readCfg (c : PcieCfg) (field : CfgField) : DWord :=
  match field with
  | .busMaster => BitVec.ofNat 64 (b01 c.busMaster)
  | .powerState => if c.d3hot then 3 else 0
  | .maxPayload => c.maxPayload.setWidth 64
  | .maxRead => c.maxRead.setWidth 64
  | .msixEnable => BitVec.ofNat 64 (b01 c.msixOn)
  | .msixFnMask => BitVec.ofNat 64 (b01 c.msixFnMask)
  | .vfEnable => BitVec.ofNat 64 (b01 c.vfOn)
  | .numVfs => c.numVfs.setWidth 64

/-! ### The module window (R227, R305, R422) -/

/-- The code of a port's state (Table 11.9). -/
def portCode : PortState → Nat
  | .detect => 0
  | .capability => 1
  | .select => 2
  | .train => 3
  | .align => 4
  | .active => 5
  | .retrain => 6
  | .down => 7

/-- LNK_PpSLOT: the pairs of the slot masks that contexts hold on a port (Table 11.13). -/
def slotMask (s : State) (p : Nat) : Word :=
  BitVec.ofNat 32 (sumNat ((List.range 32).map (fun q =>
    if s.ctxs.any (fun e => decide ((Mem.rd {} e.2.slots (32 * p + q)).kind ≠ 0)) then 2 ^ q else 0)))

/-- The five registers of a port (Tables 11.9 to 11.13). -/
def readPort (s : State) (p k : Nat) : DWord :=
  let q := s.port p
  if k = 0 then packFields 64 [(31, 28, portCode q.state), (27, 24, q.mode), (23, 22, q.lanes.toNat),
    (21, 21, b01 (decide (q.mode = 1) || decide (q.mode = 2))), (20, 20, b01 q.retrained), (19, 19, b01 q.timeIn)]
  else if k = 1 then q.partnerWord
  else if k = 2 then packFields 64 [(63, 48, q.crcErr), (47, 32, q.retries), (31, 16, q.retrains), (15, 0, q.discard)]
  else if k = 3 then packFields 64 [(31, 16, q.rtt.toNat), (15, 0, q.len.toNat)]
  else if k = 4 then (slotMask s p).setWidth 64
  else 0

/-- LNK_TIME (Table 11.14). -/
def linkTime (s : State) : DWord :=
  packFields 64 [(31, 31, b01 (decide (s.clock.refState = 2))), (30, 30, b01 (decide (s.clock.refState = 1))),
    (29, 28, s.clock.role), (27, 24, s.clock.input.getD 0), (23, 0, s.clock.offset.toNat)]

/-- CLK_STATUS (Table 16.7). -/
def clkStatus (s : State) : DWord :=
  packFields 64 [(31, 30, s.clock.refState), (29, 26, s.clock.refPort), (25, 25, b01 s.clock.refLost),
    (24, 24, b01 s.clock.cdcTimeout), (23, 20, s.clock.stage), (19, 19, b01 s.clock.warm), (18, 18, b01 s.clock.domeValid),
    (17, 17, b01 s.clock.lateInput)]

/-- PWR_STATUS (Table 16.10): every cap that equals the lowest one sets the proposal, which the module makes from S2 on. -/
def pwrStatus (s : State) : DWord :=
  let sets (cap : Nat) : Nat := b01 (s.clock.on && decide (cap = s.lowestCap))
  packFields 64 [(8, 8, b01 s.power.v54High), (7, 7, b01 s.power.v12Range), (6, 6, b01 s.power.thermalHold),
    (5, 5, b01 (s.power.supplyLow || s.power.overPower)), (3, 3, sets s.clock.thermal), (2, 2, sets s.clock.measured),
    (1, 1, sets (s.modelCapAt s.lantern.od.envelope)), (0, 0, sets (maxClock s.grade))]

/-- PWR_INPUT (Table 16.11). The supplies are checked in S0; until it ends the register holds its reset value (R7, R404). -/
def pwrInput (s : State) : DWord :=
  let mv (v : Nat) : Nat := if s.bring.at_ = .off ∨ s.bring.at_ = .stage 0 then 0 else v
  packFields 64 [(63, 48, mv s.power.v54mv / 10), (47, 32, mv s.power.v12mv), (31, 16, s.power.p54),
    (15, 0, s.power.peaks.foldl (fun m e => max m e.2) 0)]

/-- PLC_SPAREp (Table 9.8). -/
def spareReg (s : State) (p : Nat) : BitVec 128 :=
  packFields 128 ((List.range 24).map (fun b => (5 * b + 4, 5 * b, Mem.rd 0 (s.region p).spares b)))

/-- PLC_THERMAL (Table 9.7). -/
def thermalReg (s : State) : DWord :=
  packFields 64 ((List.range 32).map (fun p => (2 * p + 1, 2 * p, (s.region p).thermal)))

/-- A word of the module window of a PF (Table 9.4, R305, R422). -/
def readModule (s : State) (off : Nat) : DWord :=
  if off = 0x000 then packFields 64 [(31, 24, 1), (5, 0, s.plcRegions)]
  else if off = 0x008 then s.inService.setWidth 64
  else if off = 0x010 then thermalReg s
  else if 0x100 ≤ off ∧ off < 0x300 then wordOf (spareReg s ((off - 0x100) / 16)) ((off - 0x100) / 8 % 2)
  else if 0x400 ≤ off ∧ off < 0x800 then
    let n := (off - 0x400) / 32
    let k := (off - 0x400) / 8 % 4
    if k < 3 then wordOf (Mem.rd 0 s.plcMap n) k else (Mem.rd 0 s.plcInfo n).setWidth 64
  else if 0x2000 ≤ off ∧ off < 0x2400 then readPort s ((off - 0x2000) / 64) ((off - 0x2000) / 8 % 8)
  else if off = 0x2400 then linkTime s
  else if off = 0x3000 then BitVec.ofNat 64 s.clock.dome
  else if off = 0x3008 then clkStatus s
  else if off = 0x3018 then packFields 64 [(63, 32, s.clock.proposed), (31, 0, s.clock.khz)]
  else if off = 0x3100 then pwrStatus s
  else if off = 0x3108 then pwrInput s
  else 0

/-! ### The CTX_ registers (Table 13.4, R375) -/

/-- The holds that the CTX_ registers show: of a DONE context as they stood at its completion (R338, R349). -/
def shownHold (x : Ctx) : Hold := x.finalHold.getD x.hold

/-- CTX_HOLD_LOGi (Table 2.7). -/
def holdLogReg (x : Ctx) (i : Nat) : BitVec 256 :=
  match Mem.find (shownHold x).log i with
  | some e => packFields 256 [(255, 192, e.start), (191, 128, e.stop), (127, 64, e.cycle), (63, 56, e.causes.toNat),
      (55, 40, e.src), (0, 0, 1)]
  | none => 0

/-- CTX_HAZ_ENTRYi (Table 2.11). -/
def hazReg (x : Ctx) (i : Nat) : BitVec 192 :=
  match x.haz.log[i]? with
  | some e => packFields 192 [(191, 128, e.event), (127, 64, e.writeDue), (63, 50, e.cell.toNat), (49, 40, e.row), (39, 38, e.kind),
      (0, 0, 1)]
  | none => 0

/-- CTX_KILL (Table 14.9). -/
def killReg (x : Ctx) : BitVec 256 :=
  match x.kill with
  | some k => packFields 256 [(255, 192, k.startDome), (191, 128, k.stopDome), (127, 64, k.k), (63, 48, k.code), (47, 44, k.source),
      (43, 43, b01 k.noexec), (42, 42, b01 k.freeAny), (41, 41, b01 k.duringHold), (0, 0, 1)]
  | none => 0

/-- CTX_ERRLOGi (Table 14.10). -/
def errLogReg (x : Ctx) (i : Nat) : BitVec 256 :=
  match x.errlog[i]? with
  | some e => packFields 256 [(255, 192, e.dome), (191, 128, e.cc), (127, 112, e.code), (111, 108, e.unit), (107, 107, b01 e.free),
      (106, 93, e.cell.toNat), (92, 29, e.detail), (0, 0, 1)]
  | none => 0

/-- CTX_HWINw (Table 13.21). -/
def hwinReg (x : Ctx) (w : Nat) : BitVec 128 :=
  match Mem.find x.hwin w with
  | some e => packFields 128 [(127, 64, e.2), (63, 12, e.1 / 4096)]
  | none => 0

/-- CTX_AFR_STAT (Table 12.12); after the end of the context the value that it had then (R338, R362). -/
def afrStat (s : State) (n : Nat) : DWord :=
  packFields 64 [(28, 16, (s.ctx n).afrPeak), (12, 0, (s.ctx n).finalAfr.getD (bktsInFlight (s.cellsOf n)))]

/-- CTX_HOLD_STAT (Table 2.5). -/
def holdStat (h : Hold) : DWord :=
  packFields 64 [(63, 32, h.count), (31, 28, h.logNext), (15, 8, h.causes.toNat), (2, 2, b01 h.notice), (1, 1, b01 h.pending),
    (0, 0, b01 h.held)]

/-- A word of the CTX_ registers of context `n` (Tables 2.5 to 2.13, 12.12, 13.4, 14.8 to 14.10). -/
def readCtx (s : State) (n off : Nat) : DWord :=
  let x := s.ctx n
  if off = 0x0000 then BitVec.ofNat 64 (schedCc s x)
  else if off = 0x0008 then holdStat (shownHold x)
  else if off = 0x0010 then BitVec.ofNat 64 (shownHold x).ns
  else if off = 0x0018 then packFields 64 [(16, 16, b01 x.padded), (15, 8, x.image.profile), (7, 0, x.runProfile)]
  else if off = 0x0020 then packFields 64 [(31, 16, x.haz.total), (12, 8, x.haz.log.length), (0, 0, b01 x.haz.enable)]
  else if off = 0x0028 then afrStat s n
  else if 0x0040 ≤ off ∧ off < 0x0140 then wordOf (hwinReg x ((off - 0x0040) / 16)) ((off - 0x0040) / 8 % 2)
  else if 0x0200 ≤ off ∧ off < 0x0400 then wordOf (holdLogReg x ((off - 0x0200) / 32)) ((off - 0x0200) / 8 % 4)
  else if 0x0400 ≤ off ∧ off < 0x0600 then wordOf (hazReg x ((off - 0x0400) / 32)) ((off - 0x0400) / 8 % 4)
  else if off = 0x1000 then packFields 64 [(31, 16, x.errors), (2, 0, x.errlog.length)]
  else if 0x1020 ≤ off ∧ off < 0x1040 then wordOf (killReg x) ((off - 0x1020) / 8)
  else if 0x1040 ≤ off ∧ off < 0x10C0 then wordOf (errLogReg x ((off - 0x1040) / 32)) ((off - 0x1040) / 8 % 4)
  else 0

/-! ### Region and cell windows (R215, R268, R338, Table 13.3) -/

/-- Logical region `r` of context `n` still has its windows: the context has the region, or has ended and the physical
region is bound to no other context yet (R338). -/
def windowOpen (s : State) (n r : Nat) : Bool := s.cells.any (fun e => decide (e.1 / 512 = 32 * n + r))

/-- The HBM_ registers that the window of a logical region shows: after the end of its context the values they had then
(R338). -/
def regionRegs (s : State) (n r : Nat) : RegionRegs :=
  let x := s.ctx n
  match Mem.find s.windows (32 * n + r) with
  | some w => w
  | none => hbmRegs (s.region (x.regions.getD r 32))

/-- QUE_CMBqSTAT (Table 10.16). -/
def combStat (u : Comb) : DWord :=
  packFields 64 [(31, 16, u.count), (15, 6, u.gen), (2, 2, b01 u.sat), (1, 1, b01 u.pending)]

/-- A word of a region window (Tables 8.17 to 8.22, 10.15, 10.16). -/
def readRegion (s : State) (n r off : Nat) : DWord :=
  let w := regionRegs s n r
  let comb (q : Nat) : Comb := Mem.rd {} (s.comb n r).qs q
  if !windowOpen s n r then 0
  else if off = 0x000 then w.status.setWidth 64
  else if off = 0x008 then w.chmap.setWidth 64
  else if off = 0x010 then w.bankxor.setWidth 64
  else if off = 0x018 then w.ecc.setWidth 64
  else if off = 0x020 then w.delay.setWidth 64
  else if off = 0x028 ∨ off = 0x030 then wordOf w.uelog ((off - 0x028) / 8)
  else if 0x100 ≤ off ∧ off < 0x500 then
    if off / 8 % 2 = 0 then (comb ((off - 0x100) / 16)).cfg else combStat (comb ((off - 0x100) / 16))
  else 0

/-- CELL_SLOTLOGi (Table 3.4). -/
def slotLogReg (cell : Cell) (i : Nat) : BitVec 192 :=
  match cell.ctl.log[i]? with
  | some e => packFields 192 [(191, 128, e.bits.toNat), (127, 64, e.stamp), (63, 53, e.addr.toNat), (52, 50, e.slot), (49, 46, e.reason),
      (45, 45, b01 e.free), (0, 0, 1)]
  | none => 0

/-- SPAD_LOSSLOGi (Table 8.15). -/
def lossLogReg (cell : Cell) (i : Nat) : BitVec 128 :=
  match cell.spad.lossLog[i]? with
  | some e => packFields 128 [(127, 64, e.due), (63, 54, e.row), (53, 51, e.rank), (50, 48, e.winner), (47, 32, e.src), (0, 0, 1)]
  | none => 0

/-- A word of a cell window (Table 13.3): the register of CREG x at 8x, then the two logs. -/
def readCellWindow (s : State) (c : CellRef) (off : Nat) : DWord :=
  match s.cell? c with
  | none => 0
  | some cell =>
    if off < 0x3000 then
      if cregDefined (off / 8) then (readCreg s (s.ctx c.ctx.val) cell (BitVec.ofNat 12 (off / 8))).setWidth 64 else 0
    else if 0x3000 ≤ off ∧ off < 0x3080 then wordOf (slotLogReg cell ((off - 0x3000) / 32)) ((off - 0x3000) / 8 % 4)
    else if 0x3100 ≤ off ∧ off < 0x3140 then wordOf (lossLogReg cell ((off - 0x3100) / 16)) ((off - 0x3100) / 8 % 2)
    else 0

/-! ### A read of a BAR (Tables 13.2, 13.3) -/

/-- The aligned 64-bit word at a place of a window. Every window of a free handle reads 0 (R338), and a VF sees nothing of
the module window but CLK_DOME_COUNT (R336). -/
def readWindow (s : State) (t : RegTarget) : DWord :=
  match t with
  | .config f field => readCfg (s.fn f).cfg field
  | .fn f off => readFn s f (off.toNat / 8 * 8)
  | .msix f off => readMsix (s.fn f) (off.toNat / 8 * 8)
  | .moduleWin f off =>
    let o := off.toNat / 8 * 8
    if f.fn = 0 ∨ o = 0x3000 then readModule s o else 0
  | .ctxWin f h off => match s.onHandle f h.val with
    | some n => readCtx s n (off.toNat / 8 * 8)
    | none => 0
  | .regionWin f h r off => match s.onHandle f h.val with
    | some n => readRegion s n r.toNat (off.toNat / 8 * 8)
    | none => 0
  | .cellWin f h id off => match s.onHandle f h.val with
    | some n => readCellWindow s ⟨Fin.ofNat 32 n, id⟩ (off.toNat / 8 * 8)
    | none => 0

/-- The place of a window at an offset of BAR0 or BAR2, where there is one (Tables 13.2 and 13.3). -/
def barTarget (f : FnRef) (bar2 : Bool) (off : Nat) : Option RegTarget :=
  if bar2 then
    let h : Fin 8 := Fin.ofNat 8 (off / 0x10000000)
    let o := off % 0x10000000
    if o < 0x10000 then some (.ctxWin f h (BitVec.ofNat 16 o))
    else if o < 0x30000 then some (.regionWin f h (BitVec.ofNat 5 ((o - 0x10000) / 0x1000)) (BitVec.ofNat 12 o))
    else if 0x4000000 ≤ o ∧ o < 0x4000000 + 0x4000 * 384 * 32 then
      let i := (o - 0x4000000) / 0x4000
      some (.cellWin f h (cellIdOf (i / 384) (i % 384 / 16) (i % 16)) (BitVec.ofNat 14 o))
    else none
  else if off < 0x1000 then some (.fn f (BitVec.ofNat 12 off))
  else if 0x8000 ≤ off ∧ off < 0xA000 then some (.msix f (BitVec.ofNat 13 off))
  else if 0x10000 ≤ off ∧ off < 0x20000 then some (.moduleWin f (BitVec.ofNat 16 off))
  else none

/-- The 64-bit word that a read of a BAR answers; an offset with no register reads as 0 (R337). -/
def readBar (s : State) (f : FnRef) (bar2 : Bool) (off : Nat) : DWord :=
  match barTarget f bar2 off with
  | some t => readWindow s t
  | none => 0

end Sys2Proof.Machine
end

