-- ==== Sys2Proof/Safety.lean ====
section
/-!
DEFINITION. Sys2Proof/Safety.lean: the words that statements about the machine use: a run that does not stop, the canonical
form of the machine's tables, the condition under which a cell issues a slot, and what a step may change.
-/
namespace Sys2Proof.Machine

/-- A step that answers a next state. -/
def Safe (s : State) : Prop := ∃ t, step s = .next t

/-- The tables of the machine are in canonical form: cells, contexts, ports, regions, functions, leases and sessions stand
in the order of their keys, each key once. -/
def State.tablesSorted (s : State) : Bool :=
  Mem.sortedFrom none s.cells && Mem.sortedFrom none s.ctxs && Mem.sortedFrom none s.ports &&
  Mem.sortedFrom none s.regions && Mem.sortedFrom none s.fns && Mem.sortedFrom none s.leases &&
  Mem.sortedFrom none s.sessions

/-- Cell `c` holds `cell` and can issue slot `sl` of its course now. -/
structure Issuing (s : State) (c : CellRef) (sl : Slot) (cell : Cell) : Prop where
  here : s.cell? c = some cell
  can : canIssue s (s.ctx c.ctx.val) cell sl = true

/-- Cell `c` holds `cell` and executes its cycle: its context runs and no hold stops the cell. -/
structure Moving (s : State) (c : CellRef) (cell : Cell) : Prop where
  here : s.cell? c = some cell
  runs : executing (s.ctx c.ctx.val) = true
  up : s.unrecoverable = false
  free : cellFrozen (s.ctx c.ctx.val) cell = false

/-- A slot of the cell can read scratchpad row `row`: it exists, no higher slot of the course reads its bank, and no word of
it is uncorrectable (R56, R189, R198). -/
structure Readable (cell : Cell) (row : Nat) : Prop where
  exists' : row < 640
  bank : ∀ e ∈ cell.spad.claims, e.1 ≠ row % 8
  sound : ∀ w, w < 64 → Mem.rd .good cell.spad.errs (64 * row + w) ≠ .uncorrectable

/-- The scratchpad after a slot of rank `rank` has read row `row`: the bank is claimed, corrected words may have been
counted, and nothing else has changed. -/
def RowRead (old new : Scratchpad) (row rank : Nat) : Prop :=
  { new with claims := old.claims, ceCount := old.ceCount, ce := old.ce, firstRow := old.firstRow
             firstWord := old.firstWord } = old ∧ new.claims = old.claims ++ [(row % 8, rank)]

/-- `t` is `s` with cell `c` replaced by `cell`: every other cell, every context and every other part of the module is as
it was. -/
structure CellBecomes (s t : State) (c : CellRef) (cell : Cell) : Prop where
  here : t.cell? c = some cell
  others : ∀ d, d ≠ c → t.cell? d = s.cell? d
  ctxs : ∀ m, t.ctx m = s.ctx m
  rest : { t with cells := s.cells, ctxs := s.ctxs } = s

/-- `t` is `s` with cell `c` replaced by `cell` and context `n` by `x`. -/
structure CellAndCtxBecome (s t : State) (c : CellRef) (cell : Cell) (x : Ctx) : Prop where
  here : t.cell? c = some cell
  ctx : t.ctx c.ctx.val = x
  others : ∀ d, d ≠ c → t.cell? d = s.cell? d
  ctxs : ∀ m, m ≠ c.ctx.val → t.ctx m = s.ctx m
  rest : { t with cells := s.cells, ctxs := s.ctxs } = s

/-- `t` is `s` with context `n` replaced by `x`. -/
structure CtxBecomes (s t : State) (n : Nat) (x : Ctx) : Prop where
  here : t.ctx n = x
  others : ∀ m, m ≠ n → t.ctx m = s.ctx m
  rest : { t with ctxs := s.ctxs } = s

/-- `t` is `s` with port `p` replaced by `q`. -/
structure PortBecomes (s t : State) (p : Nat) (q : Port) : Prop where
  here : t.port p = q
  others : ∀ r, r ≠ p → t.port r = s.port r
  rest : { t with ports := s.ports } = s

/-- `t` is `s` with physical region `p` replaced by `r`. -/
structure RegionBecomes (s t : State) (p : Nat) (r : Region) : Prop where
  here : t.region p = r
  others : ∀ q, q ≠ p → t.region q = s.region q
  rest : { t with regions := s.regions } = s

/-- `t` is `s` with function `f` replaced by `q`. -/
structure FnBecomes (s t : State) (f : FnRef) (q : Fn) : Prop where
  here : t.fn f = q
  others : ∀ g, g ≠ f → t.fn g = s.fn g
  rest : { t with fns := s.fns } = s

end Sys2Proof.Machine
end

