-- ==== Sys2Proof/Certificates/Slice0/Obligations.lean ====
section
/-!
DEFINITION. Sys2Proof/Certificates/Slice0/Obligations.lean: the statements for the provers.

The definitions before a statement are the words that it uses, written from the spec's tables. Most statements have the form
"where the command has its effect, exec answers this next state, and nothing else has changed".
-/

open Sys2Proof Sys2Proof.Machine

/-! ### The machine as a whole -/

namespace Sys2Proof.Machine

/-- The cell of a slot instruction. -/
def cellOf : Instr → Option CellRef
  | .nop c _ | .add c .. | .sub c .. | .and c .. | .or c .. | .xor c .. | .sll c .. | .srl c .. | .sra c .. | .slt c ..
  | .sltu c .. | .min c .. | .max c .. | .minu c .. | .maxu c .. | .addi c .. | .andi c .. | .ori c .. | .xori c ..
  | .slli c .. | .srli c .. | .srai c .. | .slti c .. | .sltiu c .. | .li c .. | .mul c .. | .mulh c .. | .mulhu c ..
  | .div c .. | .divu c .. | .rem c .. | .remu c .. | .fadd c .. | .fsub c .. | .fmul c .. | .fmin c .. | .fmax c ..
  | .fcvtsw c .. | .fcvtws c .. | .feq c .. | .flt c .. | .fle c .. | .fmvsx c .. | .fmvxs c .. | .fli c .. | .lw c ..
  | .flw c .. | .sw c .. | .fsw c .. | .mfc c .. | .mtc c .. | .beq c .. | .bne c .. | .blt c .. | .bge c .. | .bltu c ..
  | .bgeu c .. | .j c .. | .jal c .. | .jr c .. | .loop c .. | .halt c | .ovl c .. | .tpass c .. | .wld c .. | .opld c ..
  | .scld c .. | .tdrain c .. | .tclr c .. | .vchain c .. | .vld c .. | .vst c .. | .vred c .. | .vreds c .. | .vxacc c ..
  | .vxdrain c .. | .vxmerge c .. | .vxclr c | .vmset c .. | .vmop c .. | .afrexp c .. | .afrxsend c .. | .afrcvt c ..
  | .afrsend c .. | .afradd c .. | .afrfin c .. | .afrend c .. | .sgo c .. | .sarm c .. | .sstop c .. | .wait c ..
  | .waitr c .. | .post c .. | .sigsend c .. | .bar c .. | .rejoin c .. | .lopen c | .qput c .. | .qsend c .. | .qrecv c ..
  | .qpop c .. | .qres c .. => some c
  | _ => none

end Sys2Proof.Machine

/-- A step runs the command at the front of the queue on the state with the rest of the queue (95 What each step
holds). The queue is the model's own (log entry 1). -/
def Obligations.StepRunsFrontCommand : Prop :=
  ∀ (i : Instr) (s : State) (l : List Instr), s.pending = i :: l → step s = exec i { s with pending := l }

/-- With no command waiting, a step is one core clock cycle; while the core clock is off nothing changes (R402, 16
Bring-up, power and clocks). That the cycle is what step does on an empty queue is the model's choice (log entry 2).
-/
def Obligations.EmptyQueueRunsOneClockCycle : Prop :=
  ∀ s : State, s.pending = [] → step s = .next (clockTick s) ∧
    (s.clock.on = false → clockTick s = s) ∧
    (s.clock.on = true → (clockTick s).clock.clk = s.clock.clk + 1)

/-- No command faults or is refused, and none adds a waiting command or removes one (95 What each step holds). That an
event whose conditions do not hold changes nothing is the model's choice, and the queue is its own (log entry 1). -/
def Obligations.EveryCommandAnswersAndLeavesTheQueue : Prop :=
  ∀ (i : Instr) (s : State), ∃ t, exec i s = .next t ∧ t.pending = s.pending

/-- Every step keeps the tables of cells, contexts, ports, regions, functions, leases and sessions in canonical form
(95 What each step holds, R216, R334). The canonical form is the model's own (log entry 10). -/
def Obligations.StepKeepsTablesInOrder : Prop :=
  ∀ s t : State, s.tablesSorted = true → step s = .next t → t.tablesSorted = true

/-- At reset the tables are in canonical form, no context exists, every handle is free, and the registers of hosts,
placement and clocks have their reset values (Table 13.17, Table 13.18, Table 13.19, Table 13.20, Table 11.9, Table
9.5, Table 9.7, Table 2.1, 13 Registers, 09 Registers). The canonical form is the model's own (log entry 10). -/
def Obligations.ResetState : Prop :=
  let s := State.reset
  s.tablesSorted = true ∧ s.pending = [] ∧ s.clock.stage = 0 ∧ s.clock.on = false ∧ s.clock.domeValid = false ∧
  s.unrecoverable = false ∧ s.inService = 0xFFFFFFFF ∧ s.plcRegions = 32 ∧ s.lantern.restarts = 0 ∧ s.lantern.fwStatus = 0 ∧
  (∀ f : FnRef, (s.fn f).cmdqOn = false ∧ (s.fn f).cplqOn = false ∧ (s.fn f).cmdqSize = 4 ∧ (s.fn f).cplqSize = 4 ∧
    (s.fn f).phase = true ∧ (s.fn f).coalUs = 0 ∧ (s.fn f).coalN = 1 ∧ (s.fn f).intOn = false ∧ (s.fn f).mboxRes = 0 ∧
    (s.fn f).cmds = [] ∧ ∀ h, s.handleState f h = .free) ∧
  (∀ n, (s.ctx n).state = .free) ∧ (∀ c, s.cell? c = none) ∧
  (∀ p, (s.region p).owner = none ∧ (s.region p).fenced = false) ∧ (∀ p, (s.port p).state = .down) ∧
  (∀ f : FnRef, readBar s f false 0x010 = 4 ∧ readBar s f false 0x030 = 4 ∧ readBar s f false 0x038 = 0x10000 ∧
    readBar s f false 0x048 = 0x100 ∧ ∀ h : Fin 8, readBar s f false (0x100 + 8 * h.val) = 0) ∧
  (∀ h : Fin 2, readBar s ⟨h, 0⟩ false 0x10000 = 0x01000020 ∧ readBar s ⟨h, 0⟩ false 0x10008 = 0xFFFFFFFF ∧
    readBar s ⟨h, 0⟩ false 0x13000 = 0 ∧ ∀ p : Fin 16, readBar s ⟨h, 0⟩ false (0x12000 + 64 * p.val) = 0x70000000)

/-- An instruction of a slot changes no other cell, no other context and no register of the module (R54, R57, R215, 03
Cell, course and scalar processor). The frame of all slot instructions. -/
def Obligations.SlotCommandsReachOneCellAndOneContext : Prop :=
  ∀ (i : Instr) (sl : Slot) (c : CellRef) (s t : State), slotOf i = some sl → cellOf i = some c → exec i s = .next t →
    (∀ d, d ≠ c → t.cell? d = s.cell? d) ∧ (∀ m, m ≠ c.ctx.val → t.ctx m = s.ctx m) ∧
    (∀ f, t.fn f = s.fn f) ∧ t.lantern = s.lantern ∧ t.clock = s.clock ∧ t.power = s.power ∧ t.bring = s.bring ∧
    t.leases = s.leases ∧ t.sessions = s.sessions ∧ t.out = s.out ∧
    t.inService = s.inService ∧ t.plcRegions = s.plcRegions ∧ t.plcMap = s.plcMap ∧ t.plcInfo = s.plcInfo ∧
    t.windows = s.windows ∧ t.unrecoverable = s.unrecoverable ∧
    (∀ p, (t.region p).owner = (s.region p).owner ∧ (t.region p).hbm = (s.region p).hbm) ∧
    (∀ p, { t.port p with loose := (s.port p).loose } = s.port p)

/-! ### S slot: results (R61 to R69) -/

namespace Sys2Proof.Machine

/-- Signed and unsigned comparisons of 32-bit words, as integers. -/
def lessS (a b : Word) : Bool := decide (a.toInt < b.toInt)
def lessU (a b : Word) : Bool := decide (a.toNat < b.toNat)

/-- Table 3.8 for the instructions whose only effect is one result: its register, its latency and its value, from the
registers of the cell. -/
def scalarResult (cell : Cell) : Instr → Option (ResDst × Nat × Word)
  | .add _ rd ra rb => some (.s rd, 1, sreg cell ra + sreg cell rb)
  | .sub _ rd ra rb => some (.s rd, 1, sreg cell ra - sreg cell rb)
  | .and _ rd ra rb => some (.s rd, 1, sreg cell ra &&& sreg cell rb)
  | .or _ rd ra rb => some (.s rd, 1, sreg cell ra ||| sreg cell rb)
  | .xor _ rd ra rb => some (.s rd, 1, sreg cell ra ^^^ sreg cell rb)
  | .sll _ rd ra rb => some (.s rd, 1, sreg cell ra <<< ((sreg cell rb).toNat % 32))
  | .srl _ rd ra rb => some (.s rd, 1, sreg cell ra >>> ((sreg cell rb).toNat % 32))
  | .sra _ rd ra rb => some (.s rd, 1, BitVec.ofInt 32 ((sreg cell ra).toInt / 2 ^ ((sreg cell rb).toNat % 32)))
  | .slt _ rd ra rb => some (.s rd, 1, if lessS (sreg cell ra) (sreg cell rb) then 1 else 0)
  | .sltu _ rd ra rb => some (.s rd, 1, if lessU (sreg cell ra) (sreg cell rb) then 1 else 0)
  | .min _ rd ra rb => some (.s rd, 1, BitVec.ofInt 32 (Min.min (sreg cell ra).toInt (sreg cell rb).toInt))
  | .max _ rd ra rb => some (.s rd, 1, BitVec.ofInt 32 (Max.max (sreg cell ra).toInt (sreg cell rb).toInt))
  | .minu _ rd ra rb => some (.s rd, 1, BitVec.ofNat 32 (Min.min (sreg cell ra).toNat (sreg cell rb).toNat))
  | .maxu _ rd ra rb => some (.s rd, 1, BitVec.ofNat 32 (Max.max (sreg cell ra).toNat (sreg cell rb).toNat))
  | .addi _ rd ra imm => some (.s rd, 1, sreg cell ra + imm)
  | .andi _ rd ra imm => some (.s rd, 1, sreg cell ra &&& imm)
  | .ori _ rd ra imm => some (.s rd, 1, sreg cell ra ||| imm)
  | .xori _ rd ra imm => some (.s rd, 1, sreg cell ra ^^^ imm)
  | .slli _ rd ra imm => some (.s rd, 1, sreg cell ra <<< (imm.toNat % 32))
  | .srli _ rd ra imm => some (.s rd, 1, sreg cell ra >>> (imm.toNat % 32))
  | .srai _ rd ra imm => some (.s rd, 1, BitVec.ofInt 32 ((sreg cell ra).toInt / 2 ^ (imm.toNat % 32)))
  | .slti _ rd ra imm => some (.s rd, 1, if lessS (sreg cell ra) imm then 1 else 0)
  | .sltiu _ rd ra imm => some (.s rd, 1, if lessU (sreg cell ra) imm then 1 else 0)
  | .li _ rd _ imm => some (.s rd, 1, imm)
  | .mul _ rd ra rb => some (.s rd, 3, BitVec.ofInt 32 ((sreg cell ra).toInt * (sreg cell rb).toInt))
  | .mulh _ rd ra rb => some (.s rd, 3, BitVec.ofInt 32 ((sreg cell ra).toInt * (sreg cell rb).toInt / 2 ^ 32))
  | .mulhu _ rd ra rb => some (.s rd, 3, BitVec.ofNat 32 ((sreg cell ra).toNat * (sreg cell rb).toNat / 2 ^ 32))
  | .fadd _ rd ra rb => some (.f rd, 4, Machine.fadd (freg cell ra) (freg cell rb))
  | .fsub _ rd ra rb => some (.f rd, 4, Machine.fsub (freg cell ra) (freg cell rb))
  | .fmul _ rd ra rb => some (.f rd, 4, Machine.fmul (freg cell ra) (freg cell rb))
  | .fmin _ rd ra rb => some (.f rd, 4, Machine.fmin (freg cell ra) (freg cell rb))
  | .fmax _ rd ra rb => some (.f rd, 4, Machine.fmax (freg cell ra) (freg cell rb))
  | .fcvtsw _ rd ra _ => some (.f rd, 4, Machine.fcvtsw (sreg cell ra))
  | .feq _ rd ra rb => some (.s rd, 2, if Machine.feq (freg cell ra) (freg cell rb) then 1 else 0)
  | .flt _ rd ra rb => some (.s rd, 2, if Machine.flt (freg cell ra) (freg cell rb) then 1 else 0)
  | .fle _ rd ra rb => some (.s rd, 2, if Machine.fle (freg cell ra) (freg cell rb) then 1 else 0)
  | .fmvsx _ rd ra _ => some (.f rd, 1, sreg cell ra)
  | .fmvxs _ rd ra _ => some (.s rd, 1, freg cell ra)
  | .fli _ rd _ imm => some (.f rd, 1, imm)
  | _ => none

/-- The cell after an instruction of the S slot has put one more result of latency `lat` in flight (R63). -/
def withResult (cell : Cell) (lat : Nat) (dst : ResDst) (v : Word) : Cell :=
  { cell with sc := { cell.sc with
      res := cell.sc.res ++ [{ due := cell.now + lat - 1, issued := cell.now, rank := 0, dst := dst, val := v }] } }

/-- The cell with slot `sl` of its course issued. -/
def slotIssued (cell : Cell) (sl : Slot) : Cell :=
  { cell with ctl := { cell.ctl with issued := sl :: cell.ctl.issued } }

end Sys2Proof.Machine

/-- An arithmetic, compare, move or conversion of the S slot puts its result of Table 3.8 in flight with its latency,
and changes nothing else (Table 3.8, 03 The scalar processor). Derived. -/
def Obligations.ScalarInstructionsPutTheirResultInFlight : Prop :=
  ∀ (i : Instr) (c : CellRef) (s : State) (cell : Cell) (dst : ResDst) (lat : Nat) (v : Word),
    cellOf i = some c → Issuing s c .S cell → legal i = true → scalarResult cell i = some (dst, lat, v) →
    ∃ t, exec i s = .next t ∧ CellBecomes s t c (slotIssued (withResult cell lat dst v) .S)

namespace Sys2Proof.Machine

/-- A divide or remainder with its signedness, and its result by R69. -/
def divideResult (cell : Cell) : Instr → Option (BitVec 5 × BitVec 5 × Word)
  | .div _ rd ra rb => some (rd, rb, if sreg cell rb = 0 then 0xFFFFFFFF
      else BitVec.ofInt 32 (Int.tdiv (sreg cell ra).toInt (sreg cell rb).toInt))
  | .divu _ rd ra rb => some (rd, rb, if sreg cell rb = 0 then 0xFFFFFFFF
      else BitVec.ofNat 32 ((sreg cell ra).toNat / (sreg cell rb).toNat))
  | .rem _ rd ra rb => some (rd, rb, if sreg cell rb = 0 then sreg cell ra
      else BitVec.ofInt 32 (Int.tmod (sreg cell ra).toInt (sreg cell rb).toInt))
  | .remu _ rd ra rb => some (rd, rb, if sreg cell rb = 0 then sreg cell ra
      else BitVec.ofNat 32 ((sreg cell ra).toNat % (sreg cell rb).toNat))
  | _ => none

end Sys2Proof.Machine

/-- DIV, DIVU, REM and REMU give the results of R69 after 18 cycles, set DIV0 for a zero divisor, and are skipped with
DIV_BUSY while the divider is busy (R69, R64, Table 3.8, Table 3.2). That DIV0 is set at issue is the model's choice
(log entry 89). -/
def Obligations.DividesOccupyTheDividerAndSetDiv0 : Prop :=
  (∀ (i : Instr) (c : CellRef) (s : State) (cell : Cell) (rd rb : BitVec 5) (v : Word),
    cellOf i = some c → Issuing s c .S cell → divideResult cell i = some (rd, rb, v) →
    (cell.sc.divFree ≤ cell.now →
      ∃ t, exec i s = .next t ∧ CellBecomes s t c (slotIssued
        (let r := withResult cell 18 (.s rd) v
         { r with sc := { r.sc with
            divFree := cell.now + 18, div0 := cell.sc.div0 || decide (sreg cell rb = 0) } }) .S)) ∧
    (cell.now < cell.sc.divFree →
      ∃ t, exec i s = .next t ∧ ∃ w : DWord, CellBecomes s t c (slotIssued
        { cell with ctl := addSkip cell.ctl (slotLogOf (s.ctx c.ctx.val) cell .S w 7) } .S))) ∧
  divS 0x80000000 0xFFFFFFFF = 0x80000000 ∧ remS 0x80000000 0xFFFFFFFF = 0

namespace Sys2Proof.Machine

/-- The effective address of a load or store (R65), and the cell with ADDR_WRAP noted. -/
def effective (cell : Cell) (ra : BitVec 5) (imm : Word) : Word := sreg cell ra + imm

def wrapNoted (cell : Cell) (a : Word) : Cell :=
  { cell with sc := { cell.sc with addrWrap := cell.sc.addrWrap || decide (a.toNat % 4 ≠ 0 ∨ a.toNat ≥ 16384) } }

/-- The cell with a store of `v` to the word of address `a` in flight (R65). -/
def storing (cell : Cell) (a v : Word) : Cell :=
  { cell with sc := { cell.sc with
      stores := cell.sc.stores ++ [{ due := cell.now + 1, idx := a.toNat / 4 % 4096, val := v }] } }

end Sys2Proof.Machine

/-- LW and FLW put the data-memory word of their address in flight, SW and FSW a store due at c + 1; ADDR_WRAP is set
for a bad address (Table 3.8, 03 The scalar processor). That ADDR_WRAP is set at issue is the model's choice (log
entry 89). -/
def Obligations.LoadsReadAndStoresPlanAWordOfDataMemory : Prop :=
  ∀ (c : CellRef) (s : State) (cell : Cell) (r ra : BitVec 5) (imm : Word), Issuing s c .S cell →
    let a := effective cell ra imm
    let v := Mem.rd 0 cell.dmem (a.toNat / 4 % 4096)
    (Mem.rd .good cell.dmemErr (a.toNat / 8 % 2048) ≠ .uncorrectable →
      (∃ t, exec (.lw c r ra imm) s = .next t ∧
        CellBecomes s t c (slotIssued (withResult (wrapNoted cell a) 2 (.s r) v) .S)) ∧
      (r.toNat < 16 → ∃ t, exec (.flw c r ra imm) s = .next t ∧
        CellBecomes s t c (slotIssued (withResult (wrapNoted cell a) 2 (.f r) v) .S))) ∧
    (∃ t, exec (.sw c r ra imm) s = .next t ∧
      CellBecomes s t c (slotIssued (storing (wrapNoted cell a) a (sreg cell r)) .S)) ∧
    (r.toNat < 16 → ∃ t, exec (.fsw c r ra imm) s = .next t ∧
      CellBecomes s t c (slotIssued (storing (wrapNoted cell a) a (freg cell r)) .S))

/-- FCVTWS rounds to nearest even, saturates at the limits, gives 0 for a NaN, and sets CVT_SAT in the last two cases
(Table 3.8, 03 Encodings). That CVT_SAT is set at issue is the model's choice (log entry 89). -/
def Obligations.ConversionToIntegerSaturates : Prop :=
  (∀ (c : CellRef) (s : State) (cell : Cell) (rd ra : BitVec 5), Issuing s c .S cell → ra.toNat < 16 →
    ∃ t, exec (.fcvtws c rd ra 0) s = .next t ∧ CellBecomes s t c (slotIssued
      (let r := withResult cell 4 (.s rd) (Machine.fcvtws (freg cell ra)).1
       { r with sc := { r.sc with cvtSat := cell.sc.cvtSat || (Machine.fcvtws (freg cell ra)).2 } }) .S)) ∧
  (∀ w : Word, Machine.isNan (fpv w) = true → Machine.fcvtws w = (0, true)) ∧
  Machine.fcvtws 0x4F000000 = (0x7FFFFFFF, true) ∧ Machine.fcvtws 0xCF000000 = (0x80000000, false) ∧
  Machine.fcvtws 0xFF800000 = (0x80000000, true) ∧ Machine.fcvtws 0x40200000 = (2, false) ∧
  Machine.fcvtws 0x40600000 = (4, false)

/-- MFC puts the value of a cell register in flight; MTC writes one at the end of its cycle (Table 3.11, 03 Cell
registers). Derived. -/
def Obligations.MfcReadsAndMtcPlansARegisterWrite : Prop :=
  ∀ (c : CellRef) (s : State) (cell : Cell) (r : BitVec 5) (creg : BitVec 12), Issuing s c .S cell →
    cregDefined creg.toNat = true →
    (∃ t, exec (.mfc c r creg) s = .next t ∧
      CellBecomes s t c (slotIssued (withResult cell 1 (.s r) (readCreg s (s.ctx c.ctx.val) cell creg)) .S)) ∧
    (∃ t, exec (.mtc c r creg) s = .next t ∧
      CellBecomes s t c (slotIssued { cell with sc := { cell.sc with
        cregs := cell.sc.cregs ++ [{ due := cell.now, creg := creg, val := sreg cell r }] } } .S)) ∧
    (creg = 0x000 → readCreg s (s.ctx c.ctx.val) cell creg = cell.id.setWidth 32) ∧
    (creg = 0x002 → readCreg s (s.ctx c.ctx.val) cell creg = BitVec.ofNat 32 cell.ctl.courseCtr) ∧
    (creg = 0x442 → readCreg s (s.ctx c.ctx.val) cell creg = cell.sync.epoch) ∧
    (creg = 0x503 → readCreg s (s.ctx c.ctx.val) cell creg = cell.spad.mopConst)

/-- A no-op does nothing; OVL reads its row at issue and plans the overlay of its group for the end of cycle c + 5
(Table 3.8, 03 Instruction memory and overlays). Derived. -/
def Obligations.NopsAndOverlays : Prop :=
  ∀ (c : CellRef) (s : State) (cell : Cell), 
    (∀ sl, Issuing s c sl cell → ∃ t, exec (.nop c sl) s = .next t ∧ CellBecomes s t c (slotIssued cell sl)) ∧
    (∀ (row : BitVec 10) (group : BitVec 7), Issuing s c .S cell → Readable cell row.toNat →
      ∃ t sp, exec (.ovl c row group) s = .next t ∧ RowRead cell.spad sp row.toNat 1 ∧
        t.cell? c = some (slotIssued { cell with spad := sp, sc := { cell.sc with overlays := cell.sc.overlays ++
          [{ due := cell.now + 5, group := group.toNat, row := Mem.rd 0 cell.spad.rows row.toNat }] } } .S))

/-! ### Encodings of the slot instructions (R52, R55) -/

namespace Sys2Proof.Machine

/-- The instruction that the low bits of a word spell in a slot of cell `c`. -/
def decodeIn (c : CellRef) (sl : Slot) (w : DWord) : Option Instr :=
  match sl with
  | .S => decodeS c w
  | .T => decodeT c (w.setWidth 48)
  | .V => decodeV c w
  | .M0 => decodeM c false (w.setWidth 32)
  | .M1 => decodeM c true (w.setWidth 32)
  | .Q => decodeQ c (w.setWidth 16)

/-- The width of a slot in bits (Table 3.1). -/
def slotWidth : Slot → Nat
  | .S => 64 | .T => 48 | .V => 64 | .M0 => 32 | .M1 => 32 | .Q => 16

end Sys2Proof.Machine

/-- Every slot instruction is what its own encoding decodes to, with every operand at every value (Table 3.1, Table
3.5, Table 5.5, Table 6.9, Table 7.4, Table 10.5, Table 12.5). Derived. -/
def Obligations.DecodingAnEncodedSlotGivesItBack : Prop :=
  ∀ (i : Instr) (sl : Slot) (c : CellRef), slotOf i = some sl → cellOf i = some c →
    ∃ w : DWord, encodeSlot i = some w ∧ w.toNat < 2 ^ slotWidth sl ∧ decodeIn c sl w = some i

/-- A word that a slot decodes is the encoding of the instruction it decodes to: no bit of it is dropped (Table 3.1,
Table 3.5, Table 5.5, Table 6.9, Table 7.4, Table 10.5, Table 12.5). Derived. -/
def Obligations.EverySlotWordHasOneMeaning : Prop :=
  ∀ (c : CellRef) (sl : Slot) (w : DWord) (i : Instr), w.toNat < 2 ^ slotWidth sl → decodeIn c sl w = some i →
    encodeSlot i = some w ∧ slotOf i = some sl ∧ cellOf i = some c

/-- A slot with an excluded operand is replaced by its no-op, counted, and logged with reason ILLEGAL among the first
four skips (Table 3.2, Table 3.3, Table 3.4, 03 Issue, priority and skipping). Derived. -/
def Obligations.AnIllegalSlotIsSkippedAndLogged : Prop :=
  ∀ (i : Instr) (sl : Slot) (c : CellRef) (s : State) (cell : Cell), slotOf i = some sl → cellOf i = some c →
    Issuing s c sl cell → legal i = false →
    ∃ t w, exec i s = .next t ∧ encodeSlot i = some w ∧
      CellBecomes s t c (slotIssued { cell with ctl := { cell.ctl with
        skips := satInc 0x1FFFFFFF cell.ctl.skips
        log := if cell.ctl.log.length < 4 then cell.ctl.log ++
          [{ bits := w, stamp := if cell.ctl.free then cell.ctl.courseCtr else (s.ctx c.ctx.val).cc,
             addr := cell.ctl.pc, slot := slotNumber sl, reason := 1, free := cell.ctl.free }]
          else cell.ctl.log } } sl)

/-! ### Control flow and landings of the S slot (R63 to R65, R68, R70 to R77) -/

namespace Sys2Proof.Machine

/-- The control instructions of R71. -/
def isControl : Instr → Bool
  | .beq .. | .bne .. | .blt .. | .bge .. | .bltu .. | .bgeu .. | .j .. | .jal .. | .jr .. | .loop .. | .halt .. => true
  | _ => false

/-- END of a LOOP is above its own address (R75); other instructions have no such condition. -/
def endAbove (cell : Cell) : Instr → Bool
  | .loop _ _ _ _ _ last => decide (cell.ctl.pc.toNat < last.toNat)
  | _ => true

/-- Table 3.8 for the branches: DD, whether it is taken, and its target. -/
def branchOf (cell : Cell) : Instr → Option (Bool × Bool × BitVec 11)
  | .beq _ ra rb dd t => some (dd, decide (sreg cell ra = sreg cell rb), t)
  | .bne _ ra rb dd t => some (dd, decide (sreg cell ra ≠ sreg cell rb), t)
  | .blt _ ra rb dd t => some (dd, decide ((sreg cell ra).toInt < (sreg cell rb).toInt), t)
  | .bge _ ra rb dd t => some (dd, decide ((sreg cell rb).toInt ≤ (sreg cell ra).toInt), t)
  | .bltu _ ra rb dd t => some (dd, decide ((sreg cell ra).toNat < (sreg cell rb).toNat), t)
  | .bgeu _ ra rb dd t => some (dd, decide ((sreg cell rb).toNat ≤ (sreg cell ra).toNat), t)
  | .j _ _ _ _ t => some (false, true, t)
  | .jr _ ra _ dd _ => some (dd, true, (sreg cell ra).setWidth 11)
  | _ => none

/-- The control state with a branch issued: two delay courses follow, and a marked one begins a free-running section with
the next course (R46, R70, R72). -/
def branched (ctl : Control) (dd taken : Bool) (target : BitVec 11) : Control :=
  { ctl with
    delay := 3, target := if taken then some target else none, entering := ctl.entering || (dd && !ctl.free) }

end Sys2Proof.Machine

/-- A control instruction in a delay course is skipped with reason DELAY_CONTROL (R71). Stated by the spec. -/
def Obligations.ControlInDelayCourseIsSkipped : Prop :=
  ∀ (i : Instr) (c : CellRef) (s : State) (cell : Cell), isControl i = true → cellOf i = some c → Issuing s c .S cell →
    legal i = true → endAbove cell i = true → cell.ctl.delay ≠ 0 →
    ∃ t w, exec i s = .next t ∧ encodeSlot i = some w ∧ CellBecomes s t c (slotIssued
      { cell with ctl := addSkip cell.ctl (slotLogOf (s.ctx c.ctx.val) cell .S w 5) } .S)

/-- A branch reads its condition at issue; two delay courses follow, then its target if it is taken; JAL links to its
address + 3 (Table 3.8, 03 Branches). Derived. -/
def Obligations.BranchesSetTheirTargetAfterTwoDelayCourses : Prop :=
  (∀ (i : Instr) (c : CellRef) (s : State) (cell : Cell) (dd taken : Bool) (target : BitVec 11), cellOf i = some c →
    Issuing s c .S cell → legal i = true → cell.ctl.delay = 0 → branchOf cell i = some (dd, taken, target) →
    ∃ t, exec i s = .next t ∧ CellBecomes s t c (slotIssued { cell with ctl := branched cell.ctl dd taken target } .S)) ∧
  (∀ (c : CellRef) (s : State) (cell : Cell) (ra : BitVec 5) (target : BitVec 11), Issuing s c .S cell →
    cell.ctl.delay = 0 →
    ∃ t, exec (.jal c ra 0 false target) s = .next t ∧ CellBecomes s t c (slotIssued
      (withResult { cell with ctl := branched cell.ctl false true target } 1 (.s ra)
        (BitVec.ofNat 32 ((cell.ctl.pc.toNat + 3) % 2048))) .S)) ∧
  (∀ (ctl : Control) (target : Option (BitVec 11)), ctl.loops = [] → ctl.empties = 0 → ctl.zeroEnd = none →
    ctl.delay = 3 → ctl.target = target →
    let course := fun k : Control => endCourse { k with live := true }
    (course ctl).pc = ctl.pc + 1 ∧ (course (course ctl)).pc = ctl.pc + 2 ∧
    (course (course (course ctl))).pc = target.getD (ctl.pc + 3) ∧ (course (course (course ctl))).delay = 0)

/-- LOOP pushes its entry, with count 0 skips its body, and with four loops active is skipped; a register count is
clamped; HALT stops the cell (Table 3.8, Table 3.2, 03 Course loops, 03 Branches). That COUNT_CLAMP is set at issue is
the model's choice (log entry 89); for the count 0 see log entry 39. -/
def Obligations.LoopPushesItsEntryAndHaltStopsTheCell : Prop :=
  ∀ (c : CellRef) (s : State) (cell : Cell), Issuing s c .S cell → cell.ctl.delay = 0 →
    (∀ (ra : BitVec 5) (reg dd : Bool) (count : BitVec 20) (last : BitVec 11), cell.ctl.pc.toNat < last.toNat →
      cell.ctl.loops.length < 4 → (if reg then count = 0 else ra = 0) →
      let n := if reg then Min.min (sreg cell ra).toNat 1048575 else count.toNat
      ∃ t cell', exec (.loop c ra reg dd count last) s = .next t ∧ CellBecomes s t c cell' ∧
        cell' = slotIssued { cell with
          ctl := { cell.ctl with
            entering := cell.ctl.entering || (dd && !cell.ctl.free)
            zeroEnd := if n = 0 then some last else cell.ctl.zeroEnd
            loops := if n = 0 then cell.ctl.loops else ⟨cell.ctl.pc + 1, last, n⟩ :: cell.ctl.loops }
          sc := { cell.sc with
            countClamp := cell.sc.countClamp || (reg && decide ((sreg cell ra).toNat > 1048575)) } } .S) ∧
    (∀ (ra : BitVec 5) (reg dd : Bool) (count : BitVec 20) (last : BitVec 11), cell.ctl.pc.toNat < last.toNat →
      4 ≤ cell.ctl.loops.length → (if reg then count = 0 else ra = 0) →
      ∃ t w, exec (.loop c ra reg dd count last) s = .next t ∧ encodeSlot (.loop c ra reg dd count last) = some w ∧
        CellBecomes s t c (slotIssued { cell with ctl := addSkip cell.ctl (slotLogOf (s.ctx c.ctx.val) cell .S w 6) } .S)) ∧
    (∃ t, exec (.halt c) s = .next t ∧
      CellBecomes s t c (slotIssued { cell with ctl := { cell.ctl with halting := true } } .S)) ∧
    (endCourse { cell.ctl with halting := true, live := true }).halted = true

/-- The sequential successor follows the loop stack, and a taken branch pops the loops that do not contain its target
(R77). Stated by the spec. -/
def Obligations.EndOfALoopBodyGoesBackOrPops : Prop :=
  (∀ (p : BitVec 11) (e : LoopEntry) (es : List LoopEntry), p ≠ e.last → successor p (e :: es) = (e :: es, p + 1)) ∧
  (∀ (e : LoopEntry) (es : List LoopEntry), 1 < e.remaining →
    successor e.last (e :: es) = ({ e with remaining := e.remaining - 1 } :: es, e.first)) ∧
  (∀ (e : LoopEntry) (es : List LoopEntry), e.remaining ≤ 1 → successor e.last (e :: es) = successor e.last es) ∧
  (∀ p : BitVec 11, successor p [] = ([], p + 1)) ∧
  (∀ ctl : Control, ctl.empties = 0 → ctl.zeroEnd = none →
    let after := endCourse { ctl with live := true }
    let next := successor ctl.pc ctl.loops
    (ctl.delay ≠ 1 ∨ ctl.target = none → after.pc = next.2 ∧ after.loops = next.1) ∧
    (∀ t, ctl.delay = 1 → ctl.target = some t → after.pc = t ∧ after.delay = 0 ∧ after.target = none ∧
      after.loops = next.1.dropWhile (fun e => !(decide (e.first.toNat ≤ t.toNat) && decide (t.toNat ≤ e.last.toNat)))))

/-- At the end of a cycle the results and stores due land: the later-issued result wins, in one cycle that of the
higher slot; s0 stays 0 (03 The scalar processor, Table 3.8). That a sum is checked where its result is delivered is
the model's reading (log entry 91). -/
def Obligations.ResultsAndStoresLandWhenDue : Prop :=
  ∀ (s : State) (c : CellRef) (cell : Cell), Moving s c cell →
    let spoils := fun (n : NodeSum) (r : Res) => n ∈ cell.vec.nodes ∧ n.due = r.due ∧ n.issued = r.issued ∧ n.key = none ∧
      r.rank = 2 ∧ n.res ≠ residueOf n.sum
    ∃ (t : State) (cell' : Cell), exec (.resultLanding c) s = .next t ∧ t.cell? c = some cell' ∧
      cell'.sc.res = cell.sc.res.filter (fun r => !decide (r.due ≤ cell.now)) ∧
      cell'.sc.stores = cell.sc.stores.filter (fun r => !decide (r.due ≤ cell.now)) ∧
      (∀ r ∈ cell.sc.res, ∀ d : BitVec 5, r.due ≤ cell.now → r.dst = .s d → d ≠ 0 → r.rank ≤ 5 → (∀ n, ¬ spoils n r) →
        (∀ q ∈ cell.sc.res, q.due ≤ cell.now → q.dst = .s d → q ≠ r →
          q.issued < r.issued ∨ (q.issued = r.issued ∧ r.rank < q.rank)) → sreg cell' d = r.val) ∧
      (∀ d : BitVec 5, (∀ r ∈ cell.sc.res, r.due ≤ cell.now → r.dst = .s d → ∃ n, spoils n r) → sreg cell' d = sreg cell d) ∧
      sreg cell' 0 = 0 ∧
      (∀ r ∈ cell.sc.res, ∀ d : BitVec 5, r.due ≤ cell.now → r.dst = .f d → r.rank ≤ 5 → (∀ n, ¬ spoils n r) →
        (∀ q ∈ cell.sc.res, ∀ d' : BitVec 5, q.due ≤ cell.now → q.dst = .f d' → d'.toNat % 16 = d.toNat % 16 → q ≠ r →
          q.issued < r.issued ∨ (q.issued = r.issued ∧ r.rank < q.rank)) → freg cell' d = r.val) ∧
      (∀ d : BitVec 5, (∀ r ∈ cell.sc.res, ∀ d' : BitVec 5, r.due ≤ cell.now → r.dst = .f d' → d'.toNat % 16 = d.toNat % 16 →
        ∃ n, spoils n r) → freg cell' d = freg cell d) ∧
      (∀ pre st post, cell.sc.stores = pre ++ [st] ++ post → st.due ≤ cell.now →
        (∀ q ∈ post, q.due ≤ cell.now → q.idx ≠ st.idx) → Mem.rd 0 cell'.dmem st.idx = st.val) ∧
      (∀ i, (∀ q ∈ cell.sc.stores, q.due ≤ cell.now → q.idx ≠ i) → Mem.rd 0 cell'.dmem i = Mem.rd 0 cell.dmem i) ∧
      { cell'.ctl with reported := cell.ctl.reported } = cell.ctl ∧ cell'.now = cell.now ∧
      (∀ d, d ≠ c → t.cell? d = s.cell? d) ∧ (∀ m, m ≠ c.ctx.val → t.ctx m = s.ctx m)

/-- FMIN and FMAX return the other operand of a NaN and put -0 below +0; comparisons with a NaN are 0; a NaN result is
0x7FC0_0000 (03 Encodings, 04 Number formats). Derived. -/
def Obligations.Fp32ComparisonsTreatNansAndZeros : Prop :=
  (∀ a b : Word, Machine.isNan (fpv a) = true → Machine.isNan (fpv b) = true →
    Machine.fmin a b = 0x7FC00000 ∧ Machine.fmax a b = 0x7FC00000) ∧
  (∀ a b : Word, Machine.isNan (fpv a) = true → Machine.isNan (fpv b) = false →
    Machine.fmin a b = b ∧ Machine.fmax a b = b ∧ Machine.fmin b a = b ∧ Machine.fmax b a = b) ∧
  (∀ a b : Word, Machine.isNan (fpv a) = true ∨ Machine.isNan (fpv b) = true →
    Machine.feq a b = false ∧ Machine.flt a b = false ∧ Machine.fle a b = false) ∧
  (∀ a b : Word, Machine.flt a b = true → Machine.fmin a b = a ∧ Machine.fmax a b = b ∧ Machine.fmin b a = a ∧
    Machine.fmax b a = b) ∧
  Machine.fmin 0x80000000 0 = 0x80000000 ∧ Machine.fmin 0 0x80000000 = 0x80000000 ∧
  Machine.fmax 0x80000000 0 = 0 ∧ Machine.fmax 0 0x80000000 = 0 ∧ Machine.feq 0x80000000 0 = true ∧
  (∀ a b : Word, Machine.isNan (fpv a) = true → Machine.fadd a b = 0x7FC00000 ∧ Machine.fmul a b = 0x7FC00000)

/-! ### Tensor row (chapter 05) -/

namespace Sys2Proof.Machine

/-- R111: the index of loop level `l` in step `n` of a pass, level 0 innermost. -/
def passIndex (d : PassDesc) (n : Nat) (l : Fin 6) : Nat :=
  n / ((d.cnt.toList.take l.val).map (·.toNat)).prod % d.cnt[l.val].toNat

/-- R111: a base with the six indices times their strides, modulo `m`. -/
def passAddress (d : PassDesc) (n base : Nat) (strides : Vector Word 6) (m : Nat) : Nat :=
  (((base : Int) + ((List.finRange 6).map (fun l => (passIndex d n l : Int) * strides[l.val].toInt)).sum) % m).toNat

/-- An element of INT8, UINT8 or INT4 as an integer (R83). -/
def intElem (code bits : Nat) : Int :=
  if code = 0xB then ((bits % 256 : Nat) : Int) else (BitVec.ofNat (widthOf code) bits).toInt

/-- Table 5.3 for integers in the modes that sum. -/
def pairInt (mode : Nat) (a w : Int) : Int :=
  match mode with
  | 0 => a * w
  | 1 => |a - w|
  | 2 => (a - w) ^ 2
  | _ => if w < a then 1 else 0

end Sys2Proof.Machine

/-- TPASS latches its descriptor and starts a pass, or is skipped while the row is busy; each step puts the
contributions of its elements in flight (05 Passes, Table 5.2, Table 5.3, R108, R111). Derived. ALIGN set in the cycle
of the step is the model's choice (log entry 89). -/
def Obligations.TensorPassesLatchAndStep : Prop :=
  (∀ (c : CellRef) (s : State) (cell : Cell) (mode : BitVec 3) (ofmt wfmt : BitVec 4) (transp : Bool) (desc : BitVec 2)
    (anchor : BitVec 10), Issuing s c .T cell → legal (.tpass c mode ofmt wfmt transp desc anchor) = true →
    let d := cell.tens.descs[desc.toNat]'(desc.isLt)
    let total := d.cnt[0].toNat * d.cnt[1].toNat * d.cnt[2].toNat * d.cnt[3].toNat * d.cnt[4].toNat * d.cnt[5].toNat
    ((∀ p ∈ cell.tens.pass, p.start + p.total ≤ cell.now) →
      ∃ t, exec (.tpass c mode ofmt wfmt transp desc anchor) s = .next t ∧ CellBecomes s t c (slotIssued
        { cell with tens := { cell.tens with
            passDesc := desc
            pass := some { desc := d, mode := mode.toNat, ofmt := ofmt.toNat, wfmt := wfmt.toNat, transp := transp
                           anchor := anchor.toInt, start := cell.now, done := 0, total := total, half := none } } } .T)) ∧
    (∀ p, cell.tens.pass = some p → cell.now < p.start + p.total →
      ∃ t w, exec (.tpass c mode ofmt wfmt transp desc anchor) s = .next t ∧ CellBecomes s t c (slotIssued
        { cell with ctl := addSkip cell.ctl (slotLogOf (s.ctx c.ctx.val) cell .T w 8) } .T))) ∧
  (∀ (c : CellRef) (s : State) (cell : Cell) (p : Pass), Moving s c cell → cell.tens.pass = some p →
    p.done < p.total → p.start + p.done = cell.now → (∀ h, p.half = some h → h.length = 32) →
    let d := p.desc
    let oa0 := passAddress d p.done (d.base.toNat % 256) d.ostr 256
    let wa0 := passAddress d p.done (d.base.toNat / 256 % 32) d.wstr 32
    let oa := oa0 / stepUnits p.ofmt * stepUnits p.ofmt
    let wa := wa0 / weightUnits p.wfmt p.transp * weightUnits p.wfmt p.transp
    let parts := (List.range 32).map (fun i => mxPart p cell.tens oa wa i)
    let joined := match p.half with | some h => List.zipWith Contrib.join h parts | none => parts
    ∃ t tens p', exec (.passStep c) s = .next t ∧ CellBecomes s t c { cell with tens := tens } ∧
      tens = { cell.tens with pass := some p', adds := tens.adds, align := cell.tens.align || decide (oa ≠ oa0 ∨ wa ≠ wa0) } ∧
      p' = { p with done := p.done + 1, half := p'.half } ∧
      (classOf p.ofmt = .mx → p.half = none → firstHalf p p.done = true →
        tens.adds = cell.tens.adds ∧ p'.half = some parts) ∧
      (classOf p.ofmt ≠ .mx ∨ p.half ≠ none ∨ firstHalf p p.done = false → ∃ a : StepAdd,
        tens.adds = cell.tens.adds ++ [a] ∧ a.due = cell.now + 3 ∧
        a.bank = passAddress d p.done (d.base.toNat / 65536 % 4) d.bstr 4 ∧
        a.latch = { mode := p.mode, cls := classOf p.ofmt, lsb := lsbOf (classOf p.ofmt) p.anchor, fmt := p.ofmt } ∧
        a.lanes.length = 32 ∧
        (classOf p.ofmt = .mx → p'.half = none ∧ a.lanes = joined.map (fun k => LaneAdd.add p {} k 0)) ∧
        (classOf p.ofmt ≠ .mx → p'.half = p.half ∧
          ∀ i < 32, ∃ l, a.lanes[i]? = some l ∧ l = laneStep p cell.tens oa wa i ∧ l.cnt = stepElems p.ofmt ∧
          -- the integer formats, in plain integers
          (let x := fun k => intElem p.ofmt (operandElem cell.tens p.ofmt oa k)
          let y := fun k => intElem p.wfmt (weightElem cell.tens p.wfmt wa p.transp i k)
          p.ofmt ∈ [0xA, 0xB, 0xC] → p.wfmt ∈ [0xA, 0xB, 0xC] →
            (l.nan || l.pinf || l.ninf || l.loss || l.ovf) = false ∧
            (p.mode ∈ [0, 1, 2, 6] →
              l.sum = ((List.range (stepElems p.ofmt)).map (fun k => pairInt p.mode (x k) (y k))).sum) ∧
            (p.mode = 3 → ∃ k < stepElems p.ofmt, l.best = some (x k + y k, elemIndex cell.tens p.ofmt oa k) ∧
              ∀ j < stepElems p.ofmt, x k + y k ≤ x j + y j ∧ (x k + y k = x j + y j →
                (elemIndex cell.tens p.ofmt oa k).toNat ≤ (elemIndex cell.tens p.ofmt oa j).toNat)) ∧
            (p.mode = 4 → ∃ k < stepElems p.ofmt, l.best = some (x k + y k, elemIndex cell.tens p.ofmt oa k) ∧
              ∀ j < stepElems p.ofmt, x j + y j ≤ x k + y k ∧ (x k + y k = x j + y j →
                (elemIndex cell.tens p.ofmt oa k).toNat ≤ (elemIndex cell.tens p.ofmt oa j).toNat))))))

/-- WLD, OPLD and SCLD read their row at issue and load it at the end of c + 2; TDRAIN converts a bank to a tile row
and TCLR clears the banks of its mask (05 Loads, Table 5.5, 05 Drains and clears). Derived. -/
def Obligations.TensorLoadsDrainsAndClears : Prop :=
  ∀ (c : CellRef) (s : State) (cell : Cell), Issuing s c .T cell →
    (∀ (rs : BitVec 5) (off : BitVec 10), let row := (sreg cell rs + off.setWidth 32).toNat
      let v := Mem.rd 0 cell.spad.rows row
      let loading := fun (sp : Scratchpad) (dst : LoadDst) (data : Row) => slotIssued { cell with
        spad := sp
        tens := { cell.tens with loads := cell.tens.loads ++ [{ due := cell.now + 2, dst := dst, data := data }] } } .T
      Readable cell row →
      (∀ (slot : BitVec 2) (half pack6 : Bool), ∃ t sp, exec (.wld c rs off slot half pack6) s = .next t ∧
        RowRead cell.spad sp row 2 ∧
        t.cell? c = some (loading sp (.tile slot.toNat (b01 half)) (if pack6 then unpack6 v else v))) ∧
      (∀ (buf pack6 : Bool), ∃ t sp, exec (.opld c rs off buf pack6) s = .next t ∧ RowRead cell.spad sp row 2 ∧
        t.cell? c = some (loading sp (.opbuf (b01 buf)) (if pack6 then unpack6 v else v))) ∧
      (∀ (dst off' : BitVec 3), dst.toNat ≤ 5 → ∃ t sp, exec (.scld c rs off dst off') s = .next t ∧
        RowRead cell.spad sp row 2 ∧ t.cell? c = some (loading sp
          (if dst.toNat < 4 then .slotScale dst.toNat else .opScale (dst.toNat - 4)) (v >>> (512 * off'.toNat))))) ∧
    (∀ (bank : BitVec 2) (tr : BitVec 4) (trow : BitVec 5) (clr : Bool),
      (∀ l ∈ (cell.tens.bank bank.toNat).latch, l.cls = .int ∨ l.cls = .bin) →
      (∀ i < 32, laneSound (laneAt (cell.tens.bank bank.toNat) i) = true) →
      ∃ t tens data, exec (.tdrain c bank tr trow 0xE false clr) s = .next t ∧
        CellBecomes s t c (slotIssued { cell with
          tens := tens
          vec := { cell.vec with tileWrites := cell.vec.tileWrites ++
            [⟨cell.now + 1, cell.now, 2, 32 * tr.toNat + trow.toNat, 0xFFFFFFFF, data⟩] } } .T) ∧
        { tens with clears := cell.tens.clears, drainSat := cell.tens.drainSat } = cell.tens ∧
        tens.clears = cell.tens.clears ++ (if clr then [(cell.now, bank.toNat)] else []) ∧
        ∀ i < 32, laneOf data i = if (laneAt (cell.tens.bank bank.toNat) i).ovf then 0x80000000
          else BitVec.ofInt 32 (Max.max (-2147483648) (Min.min 2147483647 (laneAt (cell.tens.bank bank.toNat) i).w.toInt))) ∧
    (∀ mask : BitVec 4, mask ≠ 0 → ∃ t tens, exec (.tclr c mask) s = .next t ∧
      CellBecomes s t c (slotIssued { cell with tens := tens } .T) ∧ { tens with clears := cell.tens.clears } = cell.tens ∧
      ∀ b, b < 4 → ((cell.now, b) ∈ tens.clears ↔ (cell.now, b) ∈ cell.tens.clears ∨ mask.getLsbD b = true))

/-- A lane holds the same value, index, residue, flags and count whichever of two contributions comes first, in every
mode (04 The anchored accumulator, 05 Modes). Derived. -/
def Obligations.AccumulationDoesNotDependOnOrder : Prop :=
  ∀ (mode : Nat) (anch : Bool) (l : Lane) (a b : LaneAdd),
    Lane.take mode anch (Lane.take mode anch l a) b = Lane.take mode anch (Lane.take mode anch l b) a

/-! ### Vector engine and aligned fixed reduction (chapters 06 and 12) -/

namespace Sys2Proof.Machine

/-- None of the port claims falls in a cycle that an earlier instruction has claimed (Table 6.2). -/
def portsFree (cell : Cell) (l : List (VPort × Nat)) : Prop := ∀ e ∈ l, e ∉ cell.vec.claims

/-- `n` claims of one port, the first at cycle `c`. -/
def claimRun (p : VPort) (c n : Nat) : List (VPort × Nat) := (List.range n).map (fun k => (p, c + k))

/-- The cell after a V-slot instruction that claims ports and changes the vector engine by `f`. -/
def vectored (cell : Cell) (claims : List (VPort × Nat)) (f : VecEngine → VecEngine) : Cell :=
  slotIssued { cell with vec := f { cell.vec with claims := cell.vec.claims ++ claims } } .V

/-- 32 mask writes that replace register `md` at the end of the cycle, row `r` by the bits `f r`. -/
def maskWritten (cell : Cell) (md : Nat) (f : Nat → Nat → Bool) (ws : List MaskWrite) : Prop :=
  ws.length = 32 ∧ ∀ r, r < 32 → ∃ w, ws[r]? = some w ∧ w.due = cell.now ∧ w.key = 32 * md + r ∧ w.bits = 0xFFFFFFFF ∧
    ∀ l, l < 32 → w.data.getLsbD l = f r l

/-- What a vector instruction in progress does in a later cycle: the engine changes by `f`, and `lands` go to scratchpads. Port
claims of past cycles go. -/
def GoesOn (cell : Cell) (op : VecOp) (f : VecEngine → VecEngine) (lands : List Landing) : Prop :=
  vecCycle { cell with vec := { cell.vec with ops := [op] } } = ({ cell with vec := f { cell.vec with
    ops := [], claims := cell.vec.claims.filter (fun e => decide (cell.now ≤ e.2)) } }, { lands := lands })

/-- R142: 2^k elements from index `i * 2^k` on, combined in pairs, pairs of pairs and so on. -/
def treeOf (node : Word → Word → Word) (f : Nat → Word) : Nat → Nat → Word
  | 0, i => f i
  | k + 1, i => node (treeOf node f k (2 * i)) (treeOf node f k (2 * i + 1))

/-- R142, R143: a reduction along the 32 lanes of a row under a mask, CNTGT against `fb`; the second part is CVT_SAT. -/
def laneReduction (rop : Nat) (fb : Word) (row : TileRow) (m : Word) : Word × Bool :=
  let at_ (excluded : Word) (l : Nat) : Word := if m.getLsbD l then laneOf row l else excluded
  let sum : Int := ((List.range 32).map (fun l => if m.getLsbD l then (laneOf row l).toInt else 0)).sum
  match rop with
  | 0 => (treeOf Machine.fadd (at_ 0x80000000) 5 0, false)
  | 1 => (treeOf Machine.fmax (at_ 0xFF800000) 5 0, false)
  | 2 => (treeOf Machine.fmin (at_ 0x7F800000) 5 0, false)
  | 3 => (BitVec.ofInt 32 (Max.max (-2147483648) (Min.min 2147483647 sum)), decide (sum < -2147483648 ∨ 2147483647 < sum))
  | 4 => (BitVec.ofInt 32 ((List.range 32).foldl (fun a l => Max.max a (at_ 0x80000000 l).toInt) (-2147483648)), false)
  | 5 => (BitVec.ofInt 32 ((List.range 32).foldl (fun a l => Min.min a (at_ 0x7FFFFFFF l).toInt) 2147483647), false)
  | 6 => (BitVec.ofNat 32 ((List.range 32).countP (fun l => m.getLsbD l)), false)
  | _ => (BitVec.ofNat 32 ((List.range 32).countP (fun l => m.getLsbD l && Machine.flt fb (laneOf row l))), false)

/-- R99, R146: FP32 addends of superaccumulator `x` as one addition: their exact sum in units of 2^-149, flags and count. -/
def exactAdd (due x : Nat) (ws : List Word) : XAdd :=
  { due := due, x := x
    sum := (ws.map (fun w => match fpv w with
      | .fin n m e => (if n then -1 else 1) * (m : Int) * 2 ^ (e + 149).toNat
      | _ => 0)).sum
    nan := ws.any (fun w => isNan (fpv w)), pinf := ws.any (fun w => decide (fpv w = .inf false))
    ninf := ws.any (fun w => decide (fpv w = .inf true)), ovf := false, cnt := ws.length }

/-- R146: the additions of one row: its included lanes to the superaccumulator of the row, or each to that of its lane. -/
def rowAdds (axis : Bool) (due r : Nat) (row : TileRow) (m : Word) : List XAdd :=
  let lanes := (List.range 32).filter (fun l => m.getLsbD l)
  if axis then lanes.map (fun l => exactAdd due l [laneOf row l]) else [exactAdd due r (lanes.map (laneOf row))]

/-- Table 6.4: the running value after a stage other than a compare, SEL or MXQ, in a lane that its mask includes. -/
def stageValue (op fmt : Nat) (sat : Bool) (x b : Word) : Word :=
  match op with
  | 0x01 => toFp32 (addV (fpv x) (fpv b))
  | 0x02 => toFp32 (addV (fpv x) (negV (fpv b)))
  | 0x03 => toFp32 (addV (fpv b) (negV (fpv x)))
  | 0x04 => toFp32 (mulV (fpv x) (fpv b))
  | 0x05 => Machine.fmin x b
  | 0x06 => Machine.fmax x b
  | 0x07 => if isNan (fpv x) then 0x7FC00000 else x &&& 0x7FFFFFFF
  | 0x08 => if isNan (fpv x) then 0x7FC00000 else x ^^^ 0x80000000
  | 0x09 => b
  | 0x0E => toFp32 (elemVal fmt (cvtElem fmt sat (fpv x)).bits)
  | 0x10 => x + b
  | 0x11 => x - b
  | 0x12 => BitVec.ofInt 32 (Min.min x.toInt b.toInt)
  | 0x13 => BitVec.ofInt 32 (Max.max x.toInt b.toInt)
  | 0x14 => x &&& b
  | 0x15 => x ||| b
  | 0x16 => x ^^^ b
  | 0x17 => toFp32 (ofIntV x.toInt)
  | 0x18 => BitVec.ofInt 32 (cvtInt (-2147483648) 2147483647 (fpv x)).1
  | 0x30 => fexp2 x
  | 0x31 => flog2 x
  | 0x32 => frsqrt x
  | 0x33 => frcp x
  | _ => ftanh x

/-- Table 6.3: the operand of stage word `w` for row index `r`, lane `l`, with f register value `f` and running row `x`. -/
def stageB (v : VecEngine) (w f : Word) (x : TileRow) (r l : Nat) : Word :=
  let t := 32 * (w.toNat / 2 ^ 19 % 16)
  let brow := w.toNat / 2 ^ 14 % 32
  match w.toNat / 2 ^ 23 % 8 with
  | 1 => laneOf (Mem.rd 0 v.tiles (t + r)) l
  | 2 => laneOf (Mem.rd 0 v.tiles (t + brow)) l
  | 3 => laneOf (Mem.rd 0 v.tiles (t + brow)) r
  | 4 => f
  | 5 => laneOf x l
  | _ => 0

/-- R133: the cycle, from the read of a row, in which it enters stage `i`. -/
def stageStart (slow : Bool) (d : ChainDesc) (i : Nat) : Nat := 1 + (((chainStages d).take i).map (stgLat slow)).sum

/-- The value of a finite FP32 number. -/
def fpRat (w : Word) : ℚ :=
  match fpv w with
  | .fin n m e => (if n then -1 else 1) * (m : ℚ) * 2 ^ e
  | _ => 0

/-- R310: the element exponent of a finite FP32 number, from its fields. -/
def elementExponent (w : Word) : Int :=
  let f : Nat := w.toNat % 2 ^ 23
  let e : Nat := w.toNat / 2 ^ 23 % 256
  if e ≠ 0 then (e : Int) - 127 else if f = 0 then -150 else (Nat.log2 f : Int) - 149

/-- R310: the merge that one row under a mask brings a bucket: the largest element exponent, and the flags. -/
def RowMerge (row : TileRow) (m : Word) (ch : BktChange) : Prop :=
  let w (l : Fin 32) : Word := laneOf row l.val
  let included (l : Fin 32) : Prop := m.getLsbD l.val = true
  ∃ (e : Int) (nan pinf ninf : Bool), ch = .merge e nan pinf ninf false ∧
    -150 ≤ e ∧ (∀ l, included l → isFin (fpv (w l)) = true → elementExponent (w l) ≤ e) ∧
    (e = -150 ∨ ∃ l, included l ∧ isFin (fpv (w l)) = true ∧ elementExponent (w l) = e) ∧
    (nan = true ↔ ∃ l, included l ∧ fpv (w l) = .nan) ∧ (pinf = true ↔ ∃ l, included l ∧ fpv (w l) = .inf false) ∧
    (ninf = true ↔ ∃ l, included l ∧ fpv (w l) = .inf true)

/-- R312: a share value that is neither excluded nor infinite nor a NaN lies at 2^(E + 1) or beyond. -/
def shareOver (e : Int) (w : Word) (incl : Bool) : Prop := incl = true ∧ isFin (fpv w) = true ∧ (2 : ℚ) ^ (e + 1) ≤ |fpRat w|

/-- R312: the share value X of exponent `lr`, for a value below 2^(E + 1). -/
def shareX (lr : Int) (w : Word) (incl : Bool) : Int :=
  if incl && isFin (fpv w) then ⌊fpRat w * 2 ^ (-lr)⌋ else 0

/-- R316: a lane of AFRFIN. -/
def finWord (bf16 nan pinf ninf ovf : Bool) (sum lr : Int) : Word :=
  if nan || (pinf && ninf) then 0x7FC00000
  else if pinf then 0x7F800000
  else if ninf then 0xFF800000
  else if ovf then 0x7FC00000
  else if sum = 0 then 0
  else
    let v : FVal := .fin (decide (sum < 0)) sum.natAbs lr
    if bf16 then BitVec.ofNat 32 (65536 * encodeIeee bf16Fmt v) else BitVec.ofNat 32 (encodeIeee fp32Fmt v)

end Sys2Proof.Machine

/-- VMSET and VMOP write all 32 rows of a mask register; VXCLR, VXMERGE and VXDRAIN clear, merge into and read the
superaccumulators (Table 6.8, 06 Encodings, 06 ExactSum). Derived. RAWBAD set at the issue is the model's choice (log
entry 89). -/
def Obligations.MasksAndSuperaccumulators : Prop :=
  ∀ (c : CellRef) (s : State) (cell : Cell), Issuing s c .V cell →
    (∀ (md : BitVec 3) (mode : BitVec 2) (off : BitVec 7), md ≠ 0 → mode ≠ 3 → portsFree cell [(.mw, cell.now)] →
      ∃ t ws, exec (.vmset c md mode off) s = .next t ∧
        CellBecomes s t c (vectored cell [(.mw, cell.now)] (fun v => { v with maskWrites := v.maskWrites ++ ws })) ∧
        maskWritten cell md.toNat (fun r l => decide (mode = 1 ∨ (mode = 2 ∧ (l : Int) ≤ r + off.toInt))) ws) ∧
    (∀ (md ma mb : BitVec 3) (fn : BitVec 2), md ≠ 0 → portsFree cell [(.mw, cell.now)] →
      ∃ t ws, exec (.vmop c md ma mb fn) s = .next t ∧
        CellBecomes s t c (vectored cell [(.mw, cell.now)] (fun v => { v with maskWrites := v.maskWrites ++ ws })) ∧
        maskWritten cell md.toNat (fun r l =>
          let a := (maskRow cell.vec ma.toNat r false).getLsbD l
          let b := (maskRow cell.vec mb.toNat r false).getLsbD l
          if fn = 0 then a && b else if fn = 1 then a || b else if fn = 2 then xor a b else a && !b) ws) ∧
    (∃ t, exec (.vxclr c) s = .next t ∧
      CellBecomes s t c (vectored cell [] (fun v => { v with xclears := v.xclears ++ [(cell.now, none)] }))) ∧
    (∀ (src : BitVec 4) (srow xsel : BitVec 5), portsFree cell [(.rp0, cell.now)] →
      let r := tileRow cell.vec src.toNat srow.toNat
      ∃ t, exec (.vxmerge c src srow xsel) s = .next t ∧
        CellBecomes s t c (vectored cell [(.rp0, cell.now)] (fun v =>
          if rawMalformed r = true then { v with rawBad := true }
          else { v with xadds := v.xadds ++ [{
            due := cell.now + 3, x := xsel.toNat, sum := (r.setWidth 320).toInt, nan := bit (laneOf r 10) 0
            pinf := bit (laneOf r 10) 1, ninf := bit (laneOf r 10) 2, ovf := bit (laneOf r 10) 3
            cnt := (laneOf r 11).toNat + 2 ^ 32 * (laneOf r 12).toNat }] }))) ∧
    (∀ (dst : BitVec 4) (drow xsel : BitVec 5) (clr : Bool), portsFree cell [(.wp0, cell.now + 3)] →
      xaccSound (xaccAt cell.vec xsel.toNat) = true →
      ∃ t data, exec (.vxdrain c true dst drow xsel clr) s = .next t ∧
        CellBecomes s t c (vectored cell [(.wp0, cell.now + 3)] (fun v => { v with
          tileWrites := v.tileWrites ++ [⟨cell.now + 3, cell.now, 0, 32 * dst.toNat + drow.toNat, 0xFFFFFFFF, data⟩]
          xclears := v.xclears ++ (if clr then [(cell.now, some xsel.toNat)] else []) })) ∧
        data.setWidth 320 = (xaccAt cell.vec xsel.toNat).w ∧ bit (laneOf data 10) 3 = (xaccAt cell.vec xsel.toNat).ovf) ∧
    (∀ (dst : BitVec 4) (drow : BitVec 5) (clr : Bool), portsFree cell [(.wp0, cell.now + 3)] →
      (∀ l < 32, xaccSound (xaccAt cell.vec l) = true) →
      ∃ t data, exec (.vxdrain c false dst drow 0 clr) s = .next t ∧
        CellBecomes s t c (vectored cell [(.wp0, cell.now + 3)] (fun v => { v with
          tileWrites := v.tileWrites ++ [⟨cell.now + 3, cell.now, 0, 32 * dst.toNat + drow.toNat, 0xFFFFFFFF, data⟩]
          xclears := v.xclears ++ (if clr then [(cell.now, none)] else []) })) ∧
        ∀ l < 32, laneOf data l = finWord false (xaccAt cell.vec l).nan (xaccAt cell.vec l).pinf
          (xaccAt cell.vec l).ninf (xaccAt cell.vec l).ovf (xaccAt cell.vec l).w.toInt (-149))

/-- VLD, VST, VRED, VREDS and VXACC take their rows cycle by cycle and plan their tile rows, row write, results and
additions (Table 6.6, Table 6.7, 06 Encodings, 06 Reductions, 06 ExactSum). Derived. The cycle in which CVT_SAT and
CVT_OVF are set and the residues of the nodes, checked at the landing, are the model's choices (log entries 89, 91).
-/
def Obligations.VectorLoadsReductionsAndStores : Prop :=
  (∀ (c : CellRef) (s : State) (cell : Cell), Issuing s c .V cell →
    (∀ (rs : BitVec 5) (off : BitVec 10) (fmt tr : BitVec 4) (trow : BitVec 5),
      let row := (sreg cell rs + off.setWidth 32).toNat
      let claims := (List.range (ldRows fmt.toNat)).map (fun j => (VPort.wp0, cell.now + 3 + j))
      fmt ≠ 0xD → fmt ≠ 0xF → Readable cell row → portsFree cell claims →
      ∃ t sp ws, exec (.vld c rs off fmt tr trow false) s = .next t ∧ RowRead cell.spad sp row 3 ∧
        t.cell? c = some (vectored { cell with spad := sp } claims (fun v => { v with tileWrites := v.tileWrites ++ ws })) ∧
        ws.length = ldRows fmt.toNat ∧ ∀ j, j < ldRows fmt.toNat → ∃ w, ws[j]? = some w ∧ w.due = cell.now + 3 + j ∧
          w.issued = cell.now ∧ w.prio = 0 ∧
          w.key = 32 * tr.toNat + (trow.toNat + j) % 32 ∧ w.lanes = 0xFFFFFFFF ∧ ∀ l, l < 32 → laneOf w.data l =
            elemToLane fmt.toNat (elemBits (Mem.rd 0 cell.spad.rows row) fmt.toNat (32 * j + l))) ∧
    (∀ (rop : BitVec 3) (rd : BitVec 5) (src : BitVec 4) (srow : BitVec 5) (mask : BitVec 3) (minv : Bool) (fb : BitVec 4),
      legal (.vreds c rop rd src srow mask minv fb) = true → portsFree cell [(.rp0, cell.now)] →
      let row := tileRow cell.vec src.toNat srow.toNat
      let m := maskRow cell.vec mask.toNat srow.toNat minv
      let q := laneReduction rop.toNat (freg cell (fb.setWidth 5)) row m
      ∃ t, exec (.vreds c rop rd src srow mask minv fb) s = .next t ∧
        CellBecomes s t c (vectored { cell with sc := { cell.sc with res := cell.sc.res ++
            [{ due := cell.now + 8, issued := cell.now, rank := 2, dst := if rop.toNat ≤ 2 then .f rd else .s rd, val := q.1 }] } }
          [(.rp0, cell.now)] (fun e => { e with
            cvtSat := e.cvtSat || q.2
            nodes := e.nodes ++ nodesOf (cell.now + 8) cell.now none 0 (reduceSums rop.toNat (maskedLanes row m)) }))) ∧
    (∀ (rop : BitVec 3) (axis : Bool) (src : BitVec 4) (srow nrows : BitVec 5) (dst : BitVec 4) (drow : BitVec 5)
      (mask : BitVec 3) (minv : Bool),
      let n := nrows.toNat + 1
      let claims := claimRun .rp0 cell.now n ++ (if axis then [(VPort.wp1, cell.now + n + 7)] else claimRun .wp1 (cell.now + 7) n)
      let row := tileRow cell.vec src.toNat srow.toNat
      let m := maskRow cell.vec mask.toNat srow.toNat minv
      let q := laneReduction rop.toNat 0 row m
      let op := fun got => VecOp.red cell.now rop.toNat axis src.toNat srow.toNat n dst.toNat drow.toNat mask.toNat minv got
      let col := fun l => reduceSeq rop.toNat 0 [(laneOf row l, m.getLsbD l)]
      rop ≠ 7 → portsFree cell claims →
      ∃ t, exec (.vred c rop axis src srow nrows dst drow mask minv) s = .next t ∧
        (axis = false → CellBecomes s t c (vectored cell claims (fun v => { v with
          cvtSat := v.cvtSat || q.2
          ops := v.ops ++ (if nrows = 0 then [] else [op []])
          nodes := v.nodes ++ nodesOf (cell.now + 7) cell.now (some (32 * dst.toNat + drow.toNat)) srow.toNat
            (reduceSums rop.toNat (maskedLanes row m))
          tileWrites := v.tileWrites ++ [⟨cell.now + 7, cell.now, 1, 32 * dst.toNat + drow.toNat, 1 <<< srow.toNat,
            q.1.setWidth 1024 <<< (32 * srow.toNat)⟩] }))) ∧
        (axis = true → nrows ≠ 0 →
          CellBecomes s t c (vectored cell claims (fun v => { v with ops := v.ops ++ [op [(row, m)]] }))) ∧
        (axis = true → nrows = 0 → CellBecomes s t c (vectored cell claims (fun v => { v with
          cvtSat := v.cvtSat || (List.range 32).any (fun l => (col l).2)
          nodes := v.nodes ++ (List.range 32).flatMap (fun l => nodesOf (cell.now + 8) cell.now
            (some (32 * dst.toNat + drow.toNat)) l (reduceSums rop.toNat [(laneOf row l, m.getLsbD l)]))
          tileWrites := v.tileWrites ++ [⟨cell.now + 8, cell.now, 1, 32 * dst.toNat + drow.toNat, 0xFFFFFFFF,
            mapLanes (fun l => (col l).1)⟩] })))) ∧
    (∀ (axis : Bool) (src : BitVec 4) (srow nrows : BitVec 5) (mask : BitVec 3) (minv : Bool),
      let n := nrows.toNat + 1
      let claims := (List.range n).map (fun k => (VPort.rp0, cell.now + 8 * k))
      portsFree cell claims → cell.vec.xFree ≤ cell.now →
      ∃ t, exec (.vxacc c axis src srow nrows mask minv) s = .next t ∧
        CellBecomes s t c (vectored cell claims (fun v => { v with
          xFree := cell.now + 8 * n
          ops := v.ops ++ (if nrows = 0 then [] else [.xacc cell.now axis src.toNat srow.toNat n mask.toNat minv])
          xadds := v.xadds ++ rowAdds axis (cell.now + 11) srow.toNat (tileRow cell.vec src.toNat srow.toNat)
            (maskRow cell.vec mask.toNat srow.toNat minv) }))) ∧
    (∀ (rs : BitVec 5) (off : BitVec 10) (fmt tr : BitVec 4) (trow : BitVec 5) (sat : Bool),
      let row := (sreg cell rs + off.setWidth 32).toNat
      let claims := claimRun .rp0 cell.now (ldRows fmt.toNat)
      let es := (List.range 32).map (fun l => laneToElem fmt.toNat sat (laneOf (tileRow cell.vec tr.toNat trow.toNat) l))
      fmt ≠ 0xD → fmt ≠ 0xF → row < 640 → portsFree cell claims →
      ∃ t w, exec (.vst c rs off fmt tr trow sat) s = .next t ∧
        CellBecomes s t c (vectored cell claims (fun v => { v with
          cvtSat := v.cvtSat || es.any (·.sat), cvtOvf := v.cvtOvf || es.any (·.ovf)
          ops := v.ops ++ [.store cell.now (slotLogOf (s.ctx c.ctx.val) cell .V w 3) fmt.toNat sat tr.toNat trow.toNat row
            (es.map (·.bits))] })))) ∧
  -- the later cycles
  (∀ (cell : Cell) (issued rop src srow n dst drow mask : Nat) (minv : Bool) (got : List (TileRow × Word)),
    let k := cell.now - issued
    let r := (srow + k) % 32
    let row := tileRow cell.vec src r
    let m := maskRow cell.vec mask r minv
    let col := fun l => (got ++ [(row, m)]).map (fun g => (laneOf g.1 l, g.2.getLsbD l))
    let more := fun axis g => if k + 1 < n then [VecOp.red issued rop axis src srow n dst drow mask minv g] else []
    GoesOn cell (.red issued rop false src srow n dst drow mask minv got) (fun v => { v with
      cvtSat := v.cvtSat || (laneReduction rop 0 row m).2
      ops := more false got
      nodes := v.nodes ++ nodesOf (cell.now + 7) issued (some (32 * dst + drow % 32)) r (reduceSums rop (maskedLanes row m))
      tileWrites := v.tileWrites ++ [⟨cell.now + 7, issued, 1, 32 * dst + drow % 32, 1 <<< r,
        (laneReduction rop 0 row m).1.setWidth 1024 <<< (32 * r)⟩] }) [] ∧
    (k + 1 < n → GoesOn cell (.red issued rop true src srow n dst drow mask minv got)
      (fun v => { v with ops := more true (got ++ [(row, m)]) }) []) ∧
    (n ≤ k + 1 → GoesOn cell (.red issued rop true src srow n dst drow mask minv got) (fun v => { v with
      cvtSat := v.cvtSat || (List.range 32).any (fun l => (reduceSeq rop 0 (col l)).2)
      nodes := v.nodes ++ (List.range 32).flatMap (fun l => nodesOf (cell.now + 8) issued (some (32 * dst + drow % 32)) l
        (reduceSums rop (col l)))
      tileWrites := v.tileWrites ++ [⟨cell.now + 8, issued, 1, 32 * dst + drow % 32, 0xFFFFFFFF,
        mapLanes (fun l => (reduceSeq rop 0 (col l)).1)⟩] }) [])) ∧
  (∀ (cell : Cell) (issued src srow n mask : Nat) (axis minv : Bool),
    let k := (cell.now - issued) / 8
    let r := (srow + k) % 32
    let op := VecOp.xacc issued axis src srow n mask minv
    let kept := if cell.now - issued + 1 < 8 * n - 7 then [op] else []
    ((cell.now - issued) % 8 = 0 → GoesOn cell op (fun v => { v with
      ops := kept
      xadds := v.xadds ++ rowAdds axis (cell.now + 11) r (tileRow cell.vec src r) (maskRow cell.vec mask r minv) }) []) ∧
    ((cell.now - issued) % 8 ≠ 0 → GoesOn cell op (fun v => { v with ops := kept }) [])) ∧
  (∀ (cell : Cell) (issued : Nat) (log : SlotLog) (fmt : Nat) (sat : Bool) (tr trow row : Nat) (got : List Nat),
    let j := cell.now - issued
    let es := (List.range 32).map (fun l => laneToElem fmt sat (laneOf (tileRow cell.vec tr (trow + j)) l))
    let all := got ++ es.map (·.bits)
    GoesOn cell (.store issued log fmt sat tr trow row got) (fun v => { v with
      cvtSat := v.cvtSat || es.any (·.sat), cvtOvf := v.cvtOvf || es.any (·.ovf)
      ops := if j + 1 < ldRows fmt then [.store issued log fmt sat tr trow row all] else [] })
      (if j + 1 < ldRows fmt then [] else
        [ownRow cell log row (issued + ldRows fmt) (issued + ldRows fmt + 2) (packElems (widthOf fmt) all) none]))

/-- VCHAIN claims its ports, takes each row through its stages (Table 6.4) and lands it; a claimed port or an illegal
descriptor skips it (Table 6.3, Table 6.4, Table 6.7, 06 Encodings, 06 Chains). Derived. -/
def Obligations.ChainsMoveTheirRowsAndClaimPorts : Prop :=
  (∀ (c : CellRef) (s : State) (cell : Cell) (chain : BitVec 3) (src : BitVec 4) (srow nrows : BitVec 5) (dst : BitVec 4)
    (drow : BitVec 5), Issuing s c .V cell →
    let d := cell.vec.chains[chain.toNat]'(chain.isLt)
    let slow := !(decide (s.stepping = .b0) && !(s.ctx c.ctx.val).padded)
    let claims := chainClaims slow d cell.now (nrows.toNat + 1)
    (chainLegal d = true → portsFree cell claims → ∃ t vec, exec (.vchain c chain src srow nrows dst drow) s = .next t ∧
      CellBecomes s t c (slotIssued { cell with vec := vec } .V) ∧ vec.claims = cell.vec.claims ++ claims ∧
      vec.tiles = cell.vec.tiles ∧ vec.masks = cell.vec.masks ∧ vec.x = cell.vec.x ∧ vec.bkts = cell.vec.bkts ∧
      (1 < nrows.toNat + chainLat slow d → vec.ops.length = cell.vec.ops.length + 1) ∧
      (d.ctl = 0 → nrows = 0 → vec.ops = cell.vec.ops ∧ vec.tileWrites = cell.vec.tileWrites ++
        [⟨cell.now, cell.now, 0, 32 * dst.toNat + drow.toNat, 0xFFFFFFFF, tileRow cell.vec src.toNat srow.toNat⟩])) ∧
    (chainLegal d = true → (∃ e ∈ claims, e ∈ cell.vec.claims) →
      ∃ t w, exec (.vchain c chain src srow nrows dst drow) s = .next t ∧ CellBecomes s t c (slotIssued
        { cell with ctl := addSkip cell.ctl (slotLogOf (s.ctx c.ctx.val) cell .V w 8) } .V)) ∧
    (chainLegal d = false →
      ∃ t w, exec (.vchain c chain src srow nrows dst drow) s = .next t ∧ CellBecomes s t c (slotIssued
        { cell with ctl := addSkip cell.ctl (slotLogOf (s.ctx c.ctx.val) cell .V w 1) } .V))) ∧
  -- what a stage makes of a row (Tables 6.3 and 6.4)
  (∀ (v : VecEngine) (w f : Word) (x : TileRow) (r : Nat), stageLegal w = true → r < 32 →
    let op := w.toNat / 2 ^ 26
    let fmt := w.toNat / 8 % 16
    let m := maskRow v (w.toNat / 2 ^ 11 % 8) r (w.getLsbD 10)
    let b := stageB v w f x r
    let out := runStage v w f x r
    let mx := mxBlock fmt ((lanesOf x).map fpv)
    (∀ l < 32, laneOf out.x l =
      if op ∈ [0x0B, 0x0C, 0x0D] then laneOf x l
      else if op = 0x0A then (if m.getLsbD l then laneOf x l else b l)
      else if m.getLsbD l = false then laneOf x l
      else if op = 0x20 then toFp32 (elemVal fmt (mx.2.1.getD l 0))
      else stageValue op fmt (w.getLsbD 2) (laneOf x l) (b l)) ∧
    (op ∉ [0x0B, 0x0C, 0x0D] → out.bits = none) ∧
    (op ∈ [0x0B, 0x0C, 0x0D] → ∃ q, out.bits = some q ∧ ∀ l < 32, q.getLsbD l = (m.getLsbD l &&
      (if op = 0x0B then Machine.flt (b l) (laneOf x l) else if op = 0x0C then Machine.fle (b l) (laneOf x l)
        else Machine.feq (laneOf x l) (b l)))) ∧
    out.scale = (if op = 0x20 then some mx.1 else none)) ∧
  -- one row of a chain in its cycle t after the read
  (∀ (cell : Cell) (issued : Nat) (d : ChainDesc) (fregs : List Word) (slow : Bool) (src srow dst drow : Nat)
    (rows : List (Nat × TileRow)), chainLegal d = true → fregs.length = (chainStages d).length →
    let t := cell.now - issued
    let r := srow % 32
    let lam := chainLat slow d
    let x := if t = 0 then tileRow cell.vec src r else Mem.rd 0 rows 0
    let rop := d.ctl.toNat / 2 ^ 13 % 4
    let rd := 32 * (d.ctl.toNat / 2 ^ 15 % 16) + d.ctl.toNat / 2 ^ 19 % 32
    t < lam →
    ∃ vec y, (vecCycle { cell with vec := { cell.vec with ops := [.chain issued d fregs slow src srow 1 dst drow rows] } }) =
        ({ cell with vec := vec }, {}) ∧
      vec.tiles = cell.vec.tiles ∧ vec.masks = cell.vec.masks ∧ vec.x = cell.vec.x ∧ vec.bkts = cell.vec.bkts ∧
      (∀ i w f, (chainStages d)[i]? = some w → fregs[i]? = some f → t = stageStart slow d i →
        y = (runStage cell.vec w f x r).x ∧
        vec.maskWrites = cell.vec.maskWrites ++ ((runStage cell.vec w f x r).bits.toList.map (fun q =>
          ⟨cell.now + 1, issued, 32 * (w.toNat / 128 % 8) + r, 0xFFFFFFFF, q⟩)) ∧
        vec.tileWrites = cell.vec.tileWrites ++ ((runStage cell.vec w f x r).scale.toList.map (fun q =>
          ⟨issued + lam + 6, issued, 1, rd, 1 <<< r, (BitVec.ofNat 1024 q) <<< (32 * r)⟩))) ∧
      ((∀ i < (chainStages d).length, t ≠ stageStart slow d i) → y = x ∧ vec.maskWrites = cell.vec.maskWrites ∧
        (t + 1 < lam → vec.tileWrites = cell.vec.tileWrites)) ∧
      (t + 1 < lam → vec.ops = [.chain issued d fregs slow src srow 1 dst drow [(0, y)]]) ∧
      (t + 1 = lam → vec.ops = [] ∧ vec.tileWrites = cell.vec.tileWrites ++
        [⟨cell.now, issued, 0, 32 * dst + drow % 32, maskRow cell.vec (d.ctl.toNat / 2 ^ 9 % 8) r (d.ctl.getLsbD 12), y⟩] ++
        (if rop = 0 then [] else [⟨cell.now + 7, issued, 1, rd, 1 <<< r,
          (laneReduction (rop - 1) 0 y 0xFFFFFFFF).1.setWidth 1024 <<< (32 * r)⟩])))

/-- AFREXP opens an idle bucket and merges its exponents, AFRCVT converts the shares, AFRFIN delivers the sums and
AFREND closes the bucket (12 Aligned fixed reduction, Table 12.5, R310, R312, R316). Derived. -/
def Obligations.BucketsOpenSumAndClose : Prop :=
  (∀ (c : CellRef) (s : State) (cell : Cell) (k : BitVec 3), Issuing s c .V cell →
    let b := cell.vec.bkts[k.toNat]'(k.isLt)
    let desc := cell.vec.bktDesc[k.toNat]'(k.isLt)
    (∀ (src : BitVec 4) (srow nrows : BitVec 5) (mask : BitVec 3) (minv : Bool),
      let claims := claimRun .rp0 cell.now (nrows.toNat + 1)
      b.state = 1 ∨ (b.state = 0 ∧ 1 ≤ desc.toNat / 1024 % 32 ∧ desc.toNat / 1024 % 32 ≤ 18 ∧
        bktsInFlight (s.cellsOf c.ctx.val) + bktsOpening (s.cellsOf c.ctx.val) < 4096) → portsFree cell claims →
      ∃ t ch, exec (.afrexp c k src srow nrows mask minv) s = .next t ∧
        RowMerge (tileRow cell.vec src.toNat srow.toNat) (maskRow cell.vec mask.toNat srow.toNat minv) ch ∧
        CellBecomes s t c (vectored cell claims (fun v => { v with
          ops := v.ops ++ (if nrows = 0 then [] else
            [.afrexp cell.now k.toNat src.toNat srow.toNat (nrows.toNat + 1) mask.toNat minv])
          bktUpds := v.bktUpds ++ (if b.state = 0 then [⟨cell.now, k.toNat, .opened desc⟩] else []) ++
            [⟨cell.now + 2, k.toNat, ch⟩] }))) ∧
    (b.state ≠ 0 → ∃ t, exec (.afrend c k) s = .next t ∧ CellBecomes s t c (vectored cell [] (fun v =>
      { v with bktUpds := v.bktUpds ++ [⟨cell.now, k.toNat, .closed⟩] }))) ∧
    (∀ (src : BitVec 4) (srow rs : BitVec 5) (off : BitVec 10) (mask : BitVec 3) (minv : Bool),
      let row := (sreg cell rs + off.setWidth 32).toNat
      let claims := claimRun .rp0 cell.now 2
      b.state ≠ 0 → srow.getLsbD 0 = false → row + (if b.desc.getLsbD 15 then 4 else 0) < 640 → portsFree cell claims →
      ∃ t w, exec (.afrcvt c k src srow rs off mask minv) s = .next t ∧
        CellBecomes s t c (vectored cell claims (fun v => { v with
          bktUpds := v.bktUpds ++ (if b.state = 1 then [⟨cell.now, k.toNat, .summing⟩] else [])
          ops := v.ops ++ [.afrcvt cell.now (slotLogOf (s.ctx c.ctx.val) cell .V w 3) k.toNat src.toNat srow.toNat row
            mask.toNat minv b.desc b.e
            [(tileRow cell.vec src.toNat srow.toNat, maskRow cell.vec mask.toNat srow.toNat minv)]] }))) ∧
    (∀ (rs : BitVec 5) (off : BitVec 10) (dst : BitVec 4) (drow : BitVec 5),
      let row := (sreg cell rs + off.setWidth 32).toNat
      let claims := claimRun .wp0 (cell.now + 3) 2
      let v := Mem.rd 0 cell.spad.rows row
      let word := fun (i : Nat) => finWord (b.desc.getLsbD 9) b.nan b.pinf b.ninf b.ovf
        (v.extractLsb' (64 * i) 64).toInt (b.e + ((b.desc.toNat / 1024 % 32 : Nat) : Int) - 62)
      b.state = 2 → b.desc.getLsbD 15 = false → drow.getLsbD 0 = false → Readable cell row → portsFree cell claims →
      ∃ t sp d0 d1, exec (.afrfin c k rs off dst drow) s = .next t ∧ RowRead cell.spad sp row 3 ∧
        t.cell? c = some (vectored { cell with spad := sp } claims (fun v => { v with tileWrites := v.tileWrites ++
          [⟨cell.now + 3, cell.now, 0, 32 * dst.toNat + drow.toNat, 0xFFFFFFFF, d0⟩,
           ⟨cell.now + 4, cell.now, 0, 32 * dst.toNat + drow.toNat + 1, 0xFFFFFFFF, d1⟩] })) ∧
        ∀ l, l < 32 → laneOf d0 l = word l ∧ laneOf d1 l = word (32 + l)) ∧
    (∀ (rs : BitVec 5) (off : BitVec 10) (dst : BitVec 4) (drow : BitVec 5),
      let row := (sreg cell rs + off.setWidth 32).toNat
      let claims := claimRun .wp0 (cell.now + 6) 2
      b.state = 2 → b.desc.getLsbD 15 = true → drow.getLsbD 0 = false → Readable cell row → row + 4 < 640 →
      portsFree cell claims →
      ∃ t sp, exec (.afrfin c k rs off dst drow) s = .next t ∧ RowRead cell.spad sp row 3 ∧
        t.cell? c = some (vectored { cell with spad := sp } claims (fun v => { v with ops := v.ops ++
          [.afrfin cell.now k.toNat row dst.toNat drow.toNat b.desc b.e b.nan b.pinf b.ninf b.ovf
            [Mem.rd 0 cell.spad.rows row]] })))) ∧
  -- the later cycles of AFREXP and AFRCVT
  (∀ (cell : Cell) (issued k src srow n mask : Nat) (minv : Bool),
    let j := cell.now - issued
    let r := (srow + j) % 32
    ∃ ch, RowMerge (tileRow cell.vec src r) (maskRow cell.vec mask r minv) ch ∧
      GoesOn cell (.afrexp issued k src srow n mask minv) (fun v => { v with
        ops := if j + 1 < n then [.afrexp issued k src srow n mask minv] else []
        bktUpds := v.bktUpds ++ [⟨cell.now + 2, k, ch⟩] }) []) ∧
  (∀ (cell : Cell) (issued : Nat) (log : SlotLog) (k src srow row mask : Nat) (minv : Bool) (desc : Word) (e : Int)
    (g : TileRow × Word), cell.now = issued + 1 →
    let r := (srow + 1) % 32
    let m1 := maskRow cell.vec mask r minv
    let w := fun (i : Nat) => if i < 32 then laneOf g.1 i else laneOf (tileRow cell.vec src r) (i - 32)
    let incl := fun (i : Nat) => if i < 32 then g.2.getLsbD i else m1.getLsbD (i - 32)
    let lr : Int := e + ((desc.toNat / 1024 % 32 : Nat) : Int) - 62
    let op := VecOp.afrcvt issued log k src srow row mask minv desc e [g]
    (desc.getLsbD 15 = false → ∃ (data : Row) (loss big : Bool),
      GoesOn cell op (fun v => { v with bktUpds := v.bktUpds ++ (if loss then [⟨issued + 4, k, .loss⟩] else []) ++
          (if big then [⟨issued + 4, k, .merge (-150) false false false true⟩] else []) })
        [ownRow cell log row (issued + 2) (issued + 4) data (some (k, desc))] ∧
      (big = true ↔ ∃ i < 64, shareOver e (w i) (incl i)) ∧
      (loss = true ↔ ∃ i < 64, incl i = true ∧ isFin (fpv (w i)) = true ∧ ¬ shareOver e (w i) (incl i) ∧
        (⌊fpRat (w i) * 2 ^ (-lr)⌋ : ℚ) ≠ fpRat (w i) * 2 ^ (-lr)) ∧
      ∀ i < 64, (shareOver e (w i) (incl i) → data.extractLsb' (64 * i) 64 = 0) ∧
        (¬ shareOver e (w i) (incl i) → data.extractLsb' (64 * i) 64 = BitVec.ofInt 64 (shareX lr (w i) (incl i)))) ∧
    (desc.getLsbD 15 = true → ∃ group : Nat,
      GoesOn cell op id ((List.range 5).map (fun j => ownRow cell log (row + j) (issued + 2 + j) (issued + 4 + j)
        (BitVec.ofNat 4096 (group / 2 ^ (4096 * j))) (some (k, desc)))) ∧
      ∀ i < 64, group / 2 ^ (320 * i) % 2 ^ 320 = (BitVec.ofInt 320 (shareX (-149) (w i) (incl i))).toNat)) ∧
  -- the end of the cycle: a change that is due, alone
  (∀ (cell : Cell) (t due : Nat) (k : Fin 8) (ch : BktChange), cell.vec.bktUpds = [⟨due, k.val, ch⟩] → due ≤ t →
    let b := cell.vec.bkts[k.val]
    ∃ b', landBuckets t cell = { cell with vec := { cell.vec with bkts := cell.vec.bkts.set k.val b', bktUpds := [] } } ∧
      (∀ desc, ch = .opened desc → b' = { state := 1, desc := desc, e := -150 }) ∧ (ch = .closed → b' = {}) ∧
      (ch = .summing → b.state ≠ 0 → b' = { b with state := 2 }) ∧ (ch = .loss → b.state ≠ 0 → b' = { b with loss := true }) ∧
      (∀ e nan pinf ninf ovf, ch = .merge e nan pinf ninf ovf → b.state ≠ 0 → b' = { b with
        e := Max.max b.e e, nan := b.nan || nan, pinf := b.pinf || pinf, ninf := b.ninf || ninf, ovf := b.ovf || ovf }))

/-- AFRXSEND and AFRSEND send a REDUCE message in their slot cycle; AFRADD writes the 64 sums of two rows (12 Aligned
fixed reduction, Table 12.7). Derived. -/
def Obligations.BucketMessagesAndSums : Prop :=
  ∀ (c : CellRef) (s : State) (cell : Cell) (k : BitVec 3), Issuing s c .V cell →
    let x := s.ctx c.ctx.val
    let b := cell.vec.bkts[k.toNat]'(k.isLt)
    (∀ (route : BitVec 8) (dest : CellId), route ≠ 0 → cell.ctl.free = false → b.state = 1 →
      ownsPairNow x cell.id route.toNat = true →
      ∃ (t : State) (r : LinkRow), exec (.afrxsend c k route dest) s = .next t ∧ t.cell? c = some (slotIssued cell .V) ∧
        t.ctx c.ctx.val = { x with linkRows := x.linkRows ++ [r] } ∧
        r.cycle = x.cc ∧ r.route = route.toNat ∧ r.cell = cell.id ∧ r.mtype = 0x0A ∧
        r.data.toNat % 65536 = (BitVec.ofInt 16 b.e).toNat ∧ fld r.arg0 63 48 = fld b.desc 31 16 ∧
        fld r.arg0 47 45 = k.toNat ∧ bit r.arg0 44 = false ∧ fld r.arg0 43 30 = dest.toNat) ∧
    (∀ (route : BitVec 8) (dest : CellId) (rs : BitVec 5) (off drow : BitVec 10),
      let row := (sreg cell rs + off.setWidth 32).toNat
      route ≠ 0 → drow.toNat < 640 → cell.ctl.free = false → b.state = 2 → ownsPairNow x cell.id route.toNat = true →
      Readable cell row →
      ∃ (t : State) (sp : Scratchpad) (r : LinkRow), exec (.afrsend c k route dest rs off drow) s = .next t ∧ RowRead cell.spad sp row 3 ∧
        t.cell? c = some (slotIssued { cell with spad := sp } .V) ∧ (t.ctx c.ctx.val).linkRows = x.linkRows ++ [r] ∧
        r.cycle = x.cc ∧ r.route = route.toNat ∧ r.data = Mem.rd 0 cell.spad.rows row ∧ bit r.arg0 44 = true ∧
        fld r.arg0 29 20 = drow.toNat ∧ bit r.arg0 17 = b.ovf) ∧
    (∀ (ra rb rd : BitVec 5) (aoff boff doff : BitVec 10),
      let a := (sreg cell ra + aoff.setWidth 32).toNat
      let q := (sreg cell rb + boff.setWidth 32).toNat
      let d := (sreg cell rd + doff.setWidth 32).toNat
      b.state = 2 → b.desc.getLsbD 15 = false → Readable cell a → Readable cell q → d < 640 → a % 8 ≠ q % 8 →
      ∃ (t : State) (cell' : Cell) (r : Landing), exec (.afradd c k ra aoff rb boff rd doff) s = .next t ∧ t.cell? c = some cell' ∧
        cell'.sc = cell.sc ∧ cell'.tens = cell.tens ∧ cell'.spad.rows = cell.spad.rows ∧
        cell'.spad.claims = cell.spad.claims ++ [(a % 8, 3), (q % 8, 3)] ∧
        (t.ctx c.ctx.val).landings = x.landings ++ [r] ∧ r.cell = cell.id ∧ r.row = d ∧ r.due = cell.now + 3 ∧
        r.rank = 5 ∧ r.own = true ∧ ∀ i, i < 64 → r.data.extractLsb' (64 * i) 64 =
          (Mem.rd 0 cell.spad.rows a).extractLsb' (64 * i) 64 + (Mem.rd 0 cell.spad.rows q).extractLsb' (64 * i) 64)

/-! ### Stream movers (chapter 07) -/

namespace Sys2Proof.Machine

/-- The descriptor of a start: its bases, or those of a full shadow, plus the two registers (R165, R177). -/
def startDesc (cell : Cell) (d : BitVec 4) (ra rb : BitVec 5) : Desc :=
  let r := cell.strm.descs[d.toNat]'(d.isLt)
  let b := ((cell.strm.st[d.toNat]'(d.isLt)).shadow).getD (r.sbase, r.dbase)
  { r with sbase := b.1 + sreg cell ra, dbase := b.2 + sreg cell rb }

/-- A scheduled stream that leaves its own scratchpad cannot start in a free-running section (R179). -/
def mayStart (cell : Cell) (d : Desc) : Prop :=
  cell.ctl.free = false ∨ dLoose d = true ∨ (dSkind d = 1 ∧ dDkind d = 1)

/-- The cell after an instruction of slot M0 or M1 on descriptor `d`, which it claims. -/
def moved (cell : Cell) (m : Bool) (d : BitVec 4) (f : Movers → Movers) : Cell :=
  slotIssued { cell with strm := { f cell.strm with claims := d.toNat :: cell.strm.claims } } (mSlot m)

end Sys2Proof.Machine

/-- SGO starts a stream, SARM fills the shadow, SSTOP ends a stream; an active or ill-formed SGO and a full shadow are
skipped (07 Persistent streams and re-arming, Table 7.4, Table 7.6, Table 3.2). Derived. That FREE_RUN stands before
the other reasons is the model's reading (log entry 33). -/
def Obligations.StreamsStartArmAndStop : Prop :=
  ∀ (c : CellRef) (s : State) (cell : Cell) (m : Bool) (d : BitVec 4) (ra rb : BitVec 5), Issuing s c (mSlot m) cell →
    let x := s.ctx c.ctx.val
    let l := startDesc cell d ra rb
    let q := cell.strm.st[d.toNat]'(d.isLt)
    let r := cell.strm.descs[d.toNat]'(d.isLt)
    (mayStart cell l → Mem.find cell.strm.streams d.toNat = none → shapeOk x cell.id l = true → dBeats l ≠ 0 →
      d.toNat ∉ cell.strm.claims →
      ∃ t, exec (.sgo c m d ra rb) s = .next t ∧ CellBecomes s t c (moved cell m d (fun v => { v with
        streams := Mem.put v.streams d.toNat { desc := l, mover := m, issued := x.cc, sb := effBase (dSkind l) l.sbase
                                               db := effBase (dDkind l) l.dbase }
        st := v.st.set d.toNat { q with lastBases := some (l.sbase, l.dbase), mover := m }
        started := d.toNat :: v.started
        shadowSets := v.shadowSets ++ (if q.shadow.isSome then [(cell.now, d.toNat, none)] else []) }))) ∧
    -- R174: no beats
    (mayStart cell l → Mem.find cell.strm.streams d.toNat = none → shapeOk x cell.id l = true → dBeats l = 0 →
      dLoose l = false → dDkind l ≠ 5 → d.toNat ∉ cell.strm.claims →
      let lat := if dSkind l = 4 then 640 else if dDkind l = 1 then 2 else if dDkind l = 2 then relLatency cell.id (dPeer l)
        else if dDkind l = 3 then 8 else 320
      let dests := if dDkind l = 3 then (List.range 16).map (fun k => cellIdOf (regionOf cell.id) (blockOf cell.id) k) else [cell.id]
      ∃ t, exec (.sgo c m d ra rb) s = .next t ∧ t.cell? c = some (moved cell m d (fun v => { v with
        streams := Mem.put v.streams d.toNat { desc := l, mover := m, issued := x.cc, sb := effBase (dSkind l) l.sbase
                                               db := effBase (dDkind l) l.dbase }
        st := v.st.set d.toNat { q with lastBases := some (l.sbase, l.dbase), mover := m }
        started := d.toNat :: v.started
        shadowSets := v.shadowSets ++ (if q.shadow.isSome then [(cell.now, d.toNat, none)] else []) })) ∧
        (t.ctx c.ctx.val).arrivals = x.arrivals ++
          (match dSigOut l with
            | some k => dests.map (fun e => { due := x.cc + 4 + lat, own := false, cell := e, sig := k, n := 1, bytes := 0 })
            | none => []) ++
          (match dSigSrc l with
            | some k => [{ due := x.cc + 4, own := false, cell := cell.id, sig := k, n := 1, bytes := 0 }]
            | none => [])) ∧
    (mayStart cell l → Mem.find cell.strm.streams d.toNat = none → shapeOk x cell.id l = false →
      ∃ t w, exec (.sgo c m d ra rb) s = .next t ∧ CellBecomes s t c (slotIssued
        { cell with ctl := addSkip cell.ctl (slotLogOf x cell (mSlot m) w 9) } (mSlot m))) ∧
    (∀ skeep dkeep : Bool, mayStart cell r → q.shadow ≠ none →
      ∃ t w, exec (.sarm c m d ra rb skeep dkeep) s = .next t ∧ CellBecomes s t c (slotIssued
        { cell with ctl := addSkip cell.ctl (slotLogOf x cell (mSlot m) w 10) } (mSlot m))) ∧
    (mayStart cell l → (Mem.find cell.strm.streams d.toNat).isSome = true → d.toNat ∉ cell.strm.started →
      ∃ t w, exec (.sgo c m d ra rb) s = .next t ∧ CellBecomes s t c (slotIssued
        { cell with ctl := addSkip cell.ctl (slotLogOf x cell (mSlot m) w 8) } (mSlot m))) ∧
    (¬ mayStart cell l →
      ∃ t w, exec (.sgo c m d ra rb) s = .next t ∧ CellBecomes s t c (slotIssued
        { cell with ctl := addSkip cell.ctl (slotLogOf x cell (mSlot m) w 4) } (mSlot m))) ∧
    (∀ skeep dkeep : Bool, mayStart cell r → q.shadow = none → d.toNat ∉ cell.strm.claims →
      let kept := q.lastBases.getD (r.sbase, r.dbase)
      ∃ t, exec (.sarm c m d ra rb skeep dkeep) s = .next t ∧ CellBecomes s t c (moved cell m d (fun v => { v with
        shadowSets := v.shadowSets ++ [(cell.now, d.toNat, some (if skeep then kept.1 else sreg cell ra,
          if dkeep then kept.2 else sreg cell rb))] }))) ∧
    (∀ now : Bool, d.toNat ∉ cell.strm.claims →
      ∃ t, exec (.sstop c m d now) s = .next t ∧ CellBecomes s t c (moved cell m d (fun v => { v with
        ends := v.ends ++ [(cell.now, d.toNat, now)] })))

/-- The row pipe issues its first ready row to its destination, a run boundary takes the shadow's bases, an index row
is read when its bank is free (Table 7.2, 07 When rows move, 07 Gather and scatter). Derived. -/
def Obligations.ScheduledRowsIssueInOrder : Prop :=
  ∀ (c : CellRef) (s : State) (cell : Cell), s.cell? c = some cell →
    let x := s.ctx c.ctx.val
    running s x = true →
    (∀ (m : Bool) (dn : Nat) (st : Stream) (r : ReadyRow) (w : Word), cell.strm.piped.contains m = false →
      (readyRows x cell m).head? = some (dn, r, w) → waitingPacks cell m = [] → Mem.find cell.strm.streams dn = some st →
      dLoose st.desc = false → 512 ≤ dSize st.desc → dIdx st.desc ≤ 2 → (dIdx st.desc ≠ 0 → w ≠ 0xFFFFFFFF) →
      let jump : Int := ((w.toNat * dSize st.desc : Nat) : Int)
      let src := r.src + (if dIdx st.desc = 1 then jump else 0)
      let dst := r.dst + (if dIdx st.desc = 2 then jump else 0)
      let inPad := fun (a : Int) => 0 ≤ a ∧ a + dSize st.desc ≤ 327680
      let hbm := fun (a : Int) => (a % 2 ^ 39).toNat
      let inHbm := fun (a : Int) => hbm a / 2 ^ 34 < x.regions.length ∧ hbm a % 2 ^ 34 + dSize st.desc ≤ 15999991808
      let far := fun (a : Int) => if hbm a / 2 ^ 34 = regionOf cell.id then 0 else 96
      let srcRow := src.toNat / 512 + r.j
      let dstRow := dst.toNat / 512 + r.j
      let goes := fun (t : State) (cell' : Cell) => exec (.rowPipeIssue c m) s = .next t ∧ t.cell? c = some cell' ∧
        cell'.strm.piped = m :: cell.strm.piped ∧ cell'.spad.rows = cell.spad.rows ∧ cell'.sc = cell.sc ∧ cell'.tens = cell.tens
      (dSkind st.desc = 1 → inPad src → bankTaken cell 6 srcRow = false → Readable cell srcRow →
        let data := Mem.rd 0 cell.spad.rows srcRow
        -- to scratchpads: its own, a peer's, those of its block
        (dDkind st.desc ∈ [1, 2, 3] → inPad dst → ∃ t cell' ls, goes t cell' ∧ (t.ctx c.ctx.val).landings = x.landings ++ ls ∧
          ls.map (·.cell) = (if dDkind st.desc = 1 then [cell.id] else if dDkind st.desc = 2 then [dPeer st.desc]
            else (List.range 16).map (fun k => cellIdOf (regionOf cell.id) (blockOf cell.id) k)) ∧
          ∀ l ∈ ls, l.row = dstRow ∧ l.data = data ∧ l.issued = x.cc ∧ l.rank = (if l.cell = cell.id then 6 else 4) ∧
            l.bytes = 512 ∧ l.sig = dSigOut st.desc ∧
            l.due = x.cc + (if dDkind st.desc = 1 then 2 else if dDkind st.desc = 2 then relLatency cell.id (dPeer st.desc) else 8)) ∧
        -- to HBM
        (dDkind st.desc = 4 → inHbm dst → ∃ t cell' h, goes t cell' ∧ (t.ctx c.ctx.val).hwrites = x.hwrites ++ [h] ∧
          h.addr = hbm dst + 512 * r.j ∧ h.data = data ∧ h.len = 512 ∧ h.issued = x.cc ∧ h.due = x.cc + 320 + far dst ∧
          h.cmd = (if r.j + 1 = dSize st.desc / 512 then some (x.cc + 32 + far dst) else none)) ∧
        -- to another module
        (dDkind st.desc = 5 → inPad dst → ∃ t cell' k, goes t cell' ∧ (t.ctx c.ctx.val).linkRows = x.linkRows ++ [k] ∧
          k.cycle = x.cc ∧ k.route = dRoute st.desc ∧ k.cell = cell.id ∧ k.mtype = 0x02 ∧ k.data = data ∧
          fld k.arg0 31 18 = (dPeer st.desc).toNat ∧ fld k.arg0 17 8 = dstRow % 1024 ∧
          bit k.arg0 6 = (dSigOut st.desc).isSome)) ∧
      -- from HBM
      (dSkind st.desc = 4 → dDkind st.desc = 1 → inHbm src → inPad dst → ∃ t cell' l h, goes t cell' ∧
        (t.ctx c.ctx.val).landings = x.landings ++ [l] ∧ (t.ctx c.ctx.val).hreads = x.hreads ++ [h] ∧
        l.cell = cell.id ∧ l.row = dstRow ∧ l.due = x.cc + 640 + far src ∧ l.rank = 2 ∧ h.landing = l.id ∧
        h.addr = hbm src + 512 * r.j ∧ h.len = 512 ∧ h.pos = 0 ∧ h.sample = x.cc + 320 + far src ∧ h.due = l.due ∧
        h.cmd = (if r.j = 0 then some (x.cc + 32 + far src) else none))) ∧
    (∀ (d : BitVec 4) (st : Stream), Mem.find cell.strm.streams d.toNat = some st → dLoose st.desc = false →
      runsLeft st = true → x.cc = plannedBeat st st.nextBeat → inSection x cell = false →
      let q := cell.strm.st[d.toNat]'(d.isLt)
      ∃ (t : State) (cell' : Cell) (st' : Machine.Stream), exec (.streamBoundary c d) s = .next t ∧ CellBecomes s t c cell' ∧
        Mem.find cell'.strm.streams d.toNat = some st' ∧ st'.nextBeat = st.nextBeat + 1 ∧
        st'.ready.length = st.ready.length + beatRows st.desc ∧ st'.desc = st.desc ∧
        st'.sb = (match q.shadow with | some b => effBase (dSkind st.desc) b.1 | none => st.sb) ∧
        st'.db = (match q.shadow with | some b => effBase (dDkind st.desc) b.2 | none => st.db) ∧
        cell'.spad = cell.spad ∧ cell'.sc = cell.sc ∧ cell'.ctl = cell.ctl) ∧
    (∀ (d : BitVec 4) (st : Stream) (run block first : Nat) (rest : List (Nat × Nat × Nat)),
      Mem.find cell.strm.streams d.toNat = some st → st.idxPending = (run, block, first) :: rest → first ≤ x.cc → (∀ p ∈ rest, x.cc < p.2.2) →
      Readable cell (dIrow st.desc + block) → bankTaken cell 5 (dIrow st.desc + block) = false →
      ∃ (t : State) (cell' : Cell) (st' : Machine.Stream), exec (.indexRowRead c d) s = .next t ∧ t.cell? c = some cell' ∧
        Mem.find cell'.strm.streams d.toNat = some st' ∧ st'.idxPending = rest ∧
        st'.idx.head? = some ⟨run, block, x.cc - first, Mem.rd 0 cell.spad.rows (dIrow st.desc + block)⟩ ∧
        cell'.spad.claims = cell.spad.claims ++ [((dIrow st.desc + block) % 8, 5)] ∧
        cell'.spad.rows = cell.spad.rows ∧ cell'.sc = cell.sc)

/-- A loose host read is sent, its data waits for a write access and lands; a completion timeout reports HOST_DMA (07
Loose streams, Table 14.11, Table 8.2, Table 13.1). Derived. The tag taken, the number of a row and the wait while no
tag is free are the model's choices (log entry 92), that the environment says when a completion fails is log entry 70,
and that loose rows move in a hold for OVERRUN alone log entry 24. -/
def Obligations.LooseRowsGoOutComeBackAndLand : Prop :=
  ∀ (c : CellRef) (s : State) (cell : Cell) (d : BitVec 4) (st : Stream), s.cell? c = some cell → s.unrecoverable = false →
    let x := s.ctx c.ctx.val
    let fromHost := dSkind st.desc = 6 ∧ dDkind st.desc = 1 ∧ dLoose st.desc = true ∧ dIdx st.desc = 0 ∧ 512 ≤ dSize st.desc
    (∀ (r : ReadyRow) (rest : List ReadyRow), Moving s c cell → cell.strm.streams = [(d.toNat, st)] → fromHost →
      st.ready = r :: rest → st.packs = [] → outCount st < dOutLim st.desc → cell.strm.piped.contains st.mover = false →
      (r.src % 2 ^ 32).toNat + dSize st.desc ≤ (Mem.rd (0, 0) x.hwin (fld st.desc.ctl 18 15)).2 →
      0 ≤ r.dst → r.dst + dSize st.desc ≤ 327680 → (s.fn x.owner).cfg.busMaster = true →
      (s.freeTag x.owner.host = none → exec (.looseRowIssue c d) s = .next s) ∧
      ∀ tag, s.freeTag x.owner.host = some tag →
      ∃ (t : State) (cell' : Cell) (st' : Machine.Stream) (o : LooseOut), exec (.looseRowIssue c d) s = .next t ∧ t.cell? c = some cell' ∧
        t.out = s.out ++ [.hostRead c.ctx.val ((Mem.rd (0, 0) x.hwin (fld st.desc.ctl 18 15)).1 +
          (r.src % 2 ^ 32).toNat + 512 * r.j) 512] ∧
        Mem.find cell'.strm.streams d.toNat = some st' ∧ st'.ready = rest ∧ st'.outstanding = st.outstanding ++ [o] ∧
        o.row = rowNum s c cell.strm.nextRow ∧ o.stage = 0 ∧ o.stuck = false ∧ o.dst = r.dst + 512 * r.j ∧
        cell'.strm.nextRow = o.row + 1 ∧ (∀ h ∈ s.hostReads, h.host = x.owner.host → h.tag ≠ tag) ∧
        tag < (if (s.hostLink x.owner.host).2.2 = 1 then 16384 else 1024) ∧
        t.hostReads = s.hostReads ++ [{ host := x.owner.host, tag := tag, ctx := c.ctx, cell := c.id, d := d.toNat, row := o.row }] ∧
        cell'.spad = cell.spad ∧ cell'.sc = cell.sc) ∧
    (∀ (o : LooseOut), executing x = true → Mem.find cell.strm.streams d.toNat = some st → st.outstanding = [o] → fromHost →
      o.stage = 0 → o.stuck = false → 0 ≤ o.src → 0 ≤ o.dst →
      (∀ v : Row, looseRuns s x = true → ∃ (t : State) (cell' : Cell), exec (.looseRowDone c d o.row (.data v)) s = .next t ∧ t.cell? c = some cell' ∧
        (∀ h, h ∈ t.hostReads ↔ h ∈ s.hostReads ∧ ¬(h.ctx = c.ctx ∧ h.cell = c.id ∧ h.d = d.toNat ∧ h.row = o.row)) ∧
        cell'.sync.looseRows = cell.sync.looseRows ++
          [{ row := (o.dst / 512).toNat, data := v, sig := dSigOut st.desc, bytes := o.bytes
             reply := .loose c.ctx.val cell.id d.toNat o.row }] ∧
        cell'.spad = cell.spad ∧ cell'.sc = cell.sc) ∧
      (∃ (t : State) (e : ErrRec), exec (.completionTimeout c d o.row) s = .next t ∧ (∀ k, t.cell? k = s.cell? k) ∧
        (t.ctx c.ctx.val).kills = x.kills ++ [{ source := 2, err := e, since := s.clock.clk, sched := x.cc }] ∧ e.code = 0x0040 ∧
        e.cell = cell.id ∧ e.detail = 16 * fld st.desc.ctl 18 15 + d.toNat)) ∧
    (∀ (l : LooseRow), looseRuns s x = true → cell.sync.looseRows = [l] → l.row % 8 ∉ landingBanks s x cell →
      messageRows cell = [] → (s.scrub (s.physCell x cell.id)).writeBack = [] → l.reply = .none →
      ∃ t, exec (.looseLanding c) s = .next t ∧ t.cell? c = some { cell with
          spad := { cell.spad with rows := Mem.wr 0 cell.spad.rows l.row l.data
                                   errs := cell.spad.errs.filter (fun e => decide (e.1 / 64 ≠ l.row)) }
          sync := { cell.sync with looseRows := [] } } ∧
        (t.ctx c.ctx.val).byteLands = x.byteLands ++ (match l.sig with
          | some k => [{ due := 0, cell := cell.id, sig := k, bytes := l.bytes }] | none => []))

/-! ### Scratchpad and HBM (chapter 08) -/

namespace Sys2Proof.Machine

/-- A write to SPAD_MOP_GO is rejected (R194). -/
def mopRefused (sp : Scratchpad) (kind : Bool) (src dst count : Nat) : Prop :=
  sp.mop.isSome = true ∨ 640 < count ∨ 640 < dst + count ∨
  (if kind then 640 < src + count ∨ (0 < count ∧ src < dst + count ∧ dst < src + count) else src ≠ 0)

end Sys2Proof.Machine

/-- SPAD_MOP_GO starts a FILL or COPY or is rejected; COPY reads its rows in turn; the last landing ends it and sends
its signal (08 Fill and copy, Table 8.7). Derived. -/
def Obligations.FillAndCopyStartReadAndComplete : Prop :=
  ∀ (c : CellRef) (s : State) (cell : Cell), Moving s c cell →
    (∀ (kind : Bool) (src dst count : BitVec 10), ∃ (t : State) (regs : List CregWrite),
      exec (if kind then .copy c src dst count else .fill c src dst count) s = .next t ∧ regs ⊆ cell.sc.cregs ∧
      ∃ (sp : Scratchpad), CellBecomes s t c { cell with sc := { cell.sc with cregs := regs }, spad := sp } ∧
        (mopRefused cell.spad kind src.toNat dst.toNat count.toNat → sp = { cell.spad with reject := true }) ∧
        (¬ mopRefused cell.spad kind src.toNat dst.toNat count.toNat → sp = { cell.spad with mop := some {
          copy := kind, src := src.toNat, dst := dst.toNat, count := count.toNat, const := cell.spad.mopConst
          sig := cell.spad.mopSig, issued := cell.now, read := 0, lastDue := cell.now + 1 } })) ∧
    (∀ m : Mop, cell.spad.mop = some m → m.copy = true → m.read < m.count → m.lastDue < cell.now + 2 →
      m.issued < cell.now → bankTaken cell 7 (m.src + m.read) = false → Readable cell (m.src + m.read) →
      ∃ (t : State) (cell' : Cell) (l : Landing), exec (.copyRowRead c) s = .next t ∧ t.cell? c = some cell' ∧
        cell'.spad.mop = some { m with read := m.read + 1, lastDue := cell.now + 2 } ∧
        cell'.spad.rows = cell.spad.rows ∧ cell'.sc = cell.sc ∧
        (t.ctx c.ctx.val).landings = (s.ctx c.ctx.val).landings ++ [l] ∧ l.row = m.dst + m.read ∧ l.due = cell.now + 2 ∧
        l.data = Mem.rd 0 cell.spad.rows (m.src + m.read) ∧ l.rank = 1 ∧ l.cell = cell.id) ∧
    (∀ m : Mop, cell.spad.mop = some m → m.read = m.count →
      (if m.copy then m.lastDue else m.issued + Max.max 1 m.count) ≤ cell.now →
      ∃ t, exec (.mopComplete c) s = .next t ∧ t.cell? c = some { cell with spad := { cell.spad with mop := none } } ∧
        (t.ctx c.ctx.val).arrivals = (s.ctx c.ctx.val).arrivals ++ (if bit m.sig 7 then
          [{ due := cell.now, own := true, cell := cell.id, sig := BitVec.ofNat 6 (fld m.sig 5 0), n := 1
             bytes := 512 * m.count }] else []))

/-- Landings of one bank take the write access by rank, then later issue; a landing writes its row, an HBM write its
codeword (Table 8.2, 08 Who gets a bank). Derived. That the residues of a row are checked at its landing is the
model's reading (log entry 91). -/
def Obligations.TransfersLandInRankOrder : Prop :=
  (∀ a b : Landing, a.row % 8 = b.row % 8 → beats a b = true → contest [a, b] = [(a, none), (b, some a.rank)] ∧
    contest [b, a] = [(a, none), (b, some a.rank)]) ∧
  (∀ a b : Landing, a.rank < b.rank → beats a b = true) ∧
  (∀ a b : Landing, a.rank = b.rank → b.issued < a.issued → beats a b = true) ∧
  (∀ (c : CellRef) (s : State) (cell : Cell) (l : Landing), Moving s c cell →
    let x := s.ctx c.ctx.val
    running s x = true → x.landings = [l] → x.exps = [] → cell.spad.mop = none → l.cell = cell.id → l.own = false →
    l.due = x.cc → l.rank ≠ 2 → l.bucket = none → x.haz.active = false →
    ((∃ k ∈ l.checks, k.bad l.data = true) → ∃ t, exec (.transferLanding (.cell c)) s = .next t ∧ t.cell? c = some cell ∧
      (t.ctx c.ctx.val).landings = [] ∧ ∃ e ∈ (t.ctx c.ctx.val).kills, e.err.code = 0x0020) ∧
    ((∀ k ∈ l.checks, k.bad l.data = false) → ∃ t, exec (.transferLanding (.cell c)) s = .next t ∧ t.cell? c = some { cell with
        spad := { cell.spad with rows := Mem.wr 0 cell.spad.rows l.row l.data
                                 errs := cell.spad.errs.filter (fun e => decide (e.1 / 64 ≠ l.row)) } } ∧
      (t.ctx c.ctx.val).landings = [] ∧ (∀ k, k ≠ c → t.cell? k = s.cell? k))) ∧
  (∀ (n : Fin 32) (s : State) (h : HbmWrite),
    let x := s.ctx n.val
    let p := x.regions.getD (hbmRegion h.addr) 0
    running s x = true → x.hwrites = [h] → h.due = x.cc → h.len = 64 → x.hreads = [] → x.instances = [] →
    absentAt x x.cc = [] →
    ∃ t, exec (.transferLanding (.hbm n)) s = .next t ∧ (t.ctx n.val).hwrites = [] ∧
      t.region p = { s.region p with
        hbm := Mem.wr 0 (s.region p).hbm (hbmOffset h.addr / 64) (h.data.setWidth 512) } ∧
      (∀ q, q ≠ p → t.region q = s.region q) ∧ (∀ k, t.cell? k = s.cell? k))

/-- HBM read data arrives, corrected codewords are counted, an uncorrectable one is reported; HBM is scrubbed, cleared
and refreshed (08 HBM error codes, Table 8.20, 02 Reserved windows). What a debt counts is the model's choice (log
entry 4), and so are the command cycles that a scrub finds free (log entry 80). -/
def Obligations.HbmReadsScrubsAndClearing : Prop :=
  (∀ (n : Fin 32) (s : State) (h : HbmRead), (s.ctx n.val).hreads = [h] → h.present = false →
    let x := s.ctx n.val
    let p := x.regions.getD (hbmRegion h.addr) 0
    (∀ e, 40960 < h.len → exec (.hbmReadData n h.id e) s = .next s) ∧ (h.len ≤ 40960 →
    (∃ t, exec (.hbmReadData n h.id .good) s = .next t ∧ CtxBecomes s t n.val { x with hreads := [{ h with present := true }] }) ∧
    (∀ k, 0 < k → ∃ t, exec (.hbmReadData n h.id (.corrected k)) s = .next t ∧
      (t.ctx n.val).hreads = [{ h with present := true }] ∧
      t.region p = { s.region p with ce := true, ceCount := Min.min 0xFFFF ((s.region p).ceCount + k) }) ∧
    (∀ u, (s.region p).owner = some n.val → executing x = true → ∃ t e, exec (.hbmReadData n h.id (.bad u)) s = .next t ∧
      (t.ctx n.val).hreads = [h] ∧ (t.region p).ue = true ∧ (t.region p).hbm = (s.region p).hbm ∧
      (t.ctx n.val).kills = x.kills ++ [{ source := 2, err := e, since := s.clock.clk, sched := x.cc }] ∧ e.code = 0x0024))) ∧
  (∀ (region : Fin 32) (ch : Fin 8) (unit : Nat) (s : State), (s.region region.val).owner = none → unit < 976562 →
    let off := unitOffset (s.region region.val) ch.val unit
    let k := hbmChannel off
    Mem.rd [] (s.region region.val).looseAt k = [] →
    (∀ u ∈ Mem.find (s.region region.val).hbmScrubAt ch.val, u + 4096 ≤ s.clock.clk) →
    ∃ t, exec (.hbmScrub region ch unit .good) s = .next t ∧ RegionBecomes s t region.val { s.region region.val with
      hbmScrubAt := Mem.put (s.region region.val).hbmScrubAt ch.val s.clock.clk
      looseAt := Mem.put (s.region region.val).looseAt k [(s.clock.clk, hbmBank off, false)] }) ∧
  (∀ (region : Fin 32) (s : State), (s.region region.val).clearing = true → ∃ t r,
    exec (.clearingDone region) s = .next t ∧ t.region region.val = r ∧ r.clearing = false ∧
    (∀ q, q ≠ region.val → t.region q = s.region q) ∧ (∀ n, (s.ctx n).state ≠ .loading → t.ctx n = s.ctx n) ∧
    (∀ k, s.leasedByte region.val (64 * k) = false → Mem.rd 0 r.hbm k = 0) ∧
    (∀ k, s.leasedByte region.val (64 * k) = true → Mem.rd 0 r.hbm k = Mem.rd 0 (s.region region.val).hbm k)) ∧
  (∀ (region : Fin 32) (ch : Fin 8) (s : State),
    (s.clock.khz < 800000 → (s.region region.val).owner = none → ∃ t, exec (.refreshDebt region ch) s = .next t ∧
      RegionBecomes s t region.val { s.region region.val with
        debt := Mem.wr 0 (s.region region.val).debt ch.val (Config.refreshLimit + 1) }) ∧
    (∀ (n k : Nat), s.clock.khz < 800000 → (s.region region.val).owner = some n → holdable (s.ctx n) = true → k < 8 →
      fld (s.region region.val).chmap (3 * k + 2) (3 * k) = ch.val →
      (∀ j < k, fld (s.region region.val).chmap (3 * j + 2) (3 * j) ≠ ch.val) →
      let x := s.ctx n
      let src := 8 * (s.region region.val).logical + k
      ∃ t, exec (.refreshDebt region ch) s = .next t ∧ t.region region.val = { s.region region.val with
          debt := Mem.wr 0 (s.region region.val).debt ch.val (Config.refreshLimit + 1) } ∧
        ((∀ r ∈ x.hold.reqs, ¬ (r.cause = .refresh ∧ r.src = src)) → (.refresh, src) ∉ x.hold.opened →
          t.ctx n = { x with hold := { x.hold with reqs := x.hold.reqs ++
            [{ cause := .refresh, src := src, since := s.clock.clk }] } }) ∧
        ((∃ r ∈ x.hold.reqs, r.cause = .refresh ∧ r.src = src) ∨ (.refresh, src) ∈ x.hold.opened → t.ctx n = x)) ∧
    (∃ t, exec (.refreshDebtCleared region ch) s = .next t ∧ RegionBecomes s t region.val { s.region region.val with
        debt := Mem.wr 0 (s.region region.val).debt ch.val 0 }))

/-- The scrubbers read scratchpad rows in turn, pass over a starved row, and correct or report instruction and data
memory words (08 Correction and scrubbing, 03 Instruction memory and overlays). Derived. -/
def Obligations.CellMemoriesAreScrubbed : Prop :=
  (∀ (p : PhysCell) (s : State) (c : CellRef) (cell : Cell), s.logicalAt p = some c → Moving s c cell →
    let sc := s.scrub p
    (∀ u ∈ sc.lastRead, u + 16 ≤ s.clock.clk) → bankTaken cell 7 sc.next = false →
    (∀ w, w < 64 → Mem.rd .good cell.spad.errs (64 * sc.next + w) = .good) →
    ∃ (t : State) (cell' : Cell), exec (.scrubRead p) s = .next t ∧ t.cell? c = some cell' ∧ cell'.spad.rows = cell.spad.rows ∧
      cell'.spad.claims = cell.spad.claims ++ [(sc.next % 8, 8)] ∧ cell'.spad.ceCount = cell.spad.ceCount ∧
      (t.scrub p).next = (sc.next + 1) % 640 ∧ (t.scrub p).lastRead = some s.clock.clk) ∧
  (∀ (p : PhysCell) (s : State) (c : CellRef) (cell : Cell) (u : Nat), s.logicalAt p = some c → s.cell? c = some cell →
    (s.scrub p).asked = some u → u + 1048576 ≤ s.clock.clk →
    ∃ t, exec (.scrubStarve p) s = .next t ∧ (t.scrub p).next = ((s.scrub p).next + 1) % 640 ∧ (t.scrub p).asked = none ∧
      t.cell? c = some { cell with spad := { cell.spad with starve := true } }) ∧
  (∀ (c : CellRef) (s : State) (cell : Cell) (dm : Bool) (word : BitVec 13), s.cell? c = some cell →
    executing (s.ctx c.ctx.val) = true → s.unrecoverable = false →
    let w := if dm then word.toNat % 2048 else word.toNat
    let err := Mem.rd .good (if dm then cell.dmemErr else cell.imemErr) w
    (err = .good → exec (.cellMemoryScrub c dm word) s = .next s) ∧
    (err = .correctable → ∃ t, exec (.cellMemoryScrub c dm word) s = .next t ∧ CellBecomes s t c
      (if dm then { cell with dmemErr := Mem.wr .good cell.dmemErr w .good }
       else { cell with imemErr := Mem.wr .good cell.imemErr w .good })) ∧
    (err = .uncorrectable → ∃ (t : State) (e : ErrRec), exec (.cellMemoryScrub c dm word) s = .next t ∧ (∀ k, t.cell? k = s.cell? k) ∧
      (t.ctx c.ctx.val).kills = (s.ctx c.ctx.val).kills ++
        [{ source := 2, err := e, since := s.clock.clk, sched := (s.ctx c.ctx.val).cc }] ∧
      e.code = (if dm then 0x0022 else 0x0021) ∧ e.detail = 8 * w))

/-! ### Signals, waits and barriers (chapter 10) -/

namespace Sys2Proof.Machine

/-- A signal after the end of a cycle: a wait that consumes, then the arrivals, their bytes and the bytes landed (R231). -/
def sigAfter (g : Sig) (used : Option Nat) (arrivals bytes landed : Nat) : Sig :=
  match used with
  | none => { count := g.count + arrivals, ann := g.ann + bytes, land := g.land + landed }
  | some n => { count := g.count - n + arrivals, ann := bytes, land := g.land - g.ann + landed }

/-- No value leaves its range (R232). -/
def sigInRange (g : Sig) : Prop := g.count ≤ 65535 ∧ g.ann ≤ 4294967295 ∧ g.land ≤ 4294967295

/-- A wait for `n` on a signal is satisfied (R233). -/
def waitHolds (g : Sig) (n : Nat) : Prop := n = 0 ∨ (n ≤ g.count ∧ g.ann ≤ g.land)

/-- The cell after a satisfied wait: it consumes `n` at the end of the cycle, and nothing for 0. -/
def waited (cell : Cell) (k : BitVec 6) (n : Nat) : Cell :=
  { cell with sync := { cell.sync with consumes := cell.sync.consumes ++ (if n = 0 then [] else [(cell.now, k, n)]) } }

/-- The record of a missed wait (R235, Table 14.11). -/
def missed (s : State) (x : Ctx) (cell : Cell) (arg kind : Nat) : KillReq :=
  { source := 2, since := s.clock.clk, sched := x.cc
    err := { code := 0x0011, unit := 6, free := false, cell := cell.id
             detail := 16384 * arg + 2048 * kind + cell.ctl.pc.toNat, cc := x.cc, dome := s.clock.dome } }

/-- An arrival that one slot of a cell sends. -/
def arriving (due : Nat) (own : Bool) (goal : CellId) (sig : BitVec 6) (n : Nat) : Arrival :=
  { due := due, own := own, cell := goal, sig := sig, n := n, bytes := 0 }

/-- A target register that a send may use (R264). -/
def goodTarget (x : Ctx) (w : Word) : Prop :=
  fld w 21 14 = 0 ∧ (tRoute w = 0 ∨ (Mem.find x.routes (tRoute w)).isSome = true)

end Sys2Proof.Machine

/-- WAIT and WAITR consume, stop the cell in a free-running section or end the context outside one; POST and SIGSEND
send arrivals (10 Waiting, Table 10.1, Table 10.3). Derived. -/
def Obligations.WaitsPostsAndSignalSends : Prop :=
  ∀ (c : CellRef) (s : State) (cell : Cell), Issuing s c .Q cell →
    let x := s.ctx c.ctx.val
    (∀ (i : Instr) (sig : BitVec 6) (n : Nat), legal i = true →
      ((∃ m : BitVec 6, i = .wait c sig m ∧ n = m.toNat) ∨
       (∃ rs, i = .waitr c sig rs ∧ n = Min.min (sreg cell rs).toNat 65535)) →
      let g := Mem.rd {} cell.sync.sigs sig.toNat
      (waitHolds g n → ∃ t, exec i s = .next t ∧ CellBecomes s t c (slotIssued (waited cell sig n) .Q)) ∧
      (¬ waitHolds g n → cell.ctl.free = true → ∃ t, exec i s = .next t ∧ CellBecomes s t c (slotIssued
        { cell with ctl := { cell.ctl with waiting := some (.sig sig n) } } .Q)) ∧
      (¬ waitHolds g n → cell.ctl.free = false → ∃ t, exec i s = .next t ∧ CellAndCtxBecome s t c (slotIssued cell .Q)
        { x with kills := x.kills ++ [missed s x cell sig.toNat 1] })) ∧
    (∀ sig n : BitVec 6, n ≠ 0 → ∃ t, exec (.post c sig n) s = .next t ∧ CellAndCtxBecome s t c (slotIssued cell .Q)
      { x with arrivals := x.arrivals ++ [arriving cell.now true cell.id sig n.toNat] }) ∧
    (∀ (sig : BitVec 6) (ra : BitVec 5),
      let w := sreg cell ra
      (goodTarget x w → tRoute w = 0 → cellExists x.regions.length (tCell w) = true → cell.ctl.free = false →
        ∃ t, exec (.sigsend c sig ra) s = .next t ∧ CellAndCtxBecome s t c (slotIssued cell .Q)
          { x with arrivals := x.arrivals ++ [arriving (x.cc + relLatency cell.id (tCell w)) false (tCell w) sig 1] }) ∧
      (goodTarget x w → tRoute w = 0 → cellExists x.regions.length (tCell w) = true → cell.ctl.free = true →
        ∃ t, exec (.sigsend c sig ra) s = .next t ∧ t.cell? c = some (slotIssued cell .Q) ∧
          t.transit = s.transit ++ [.signal c.ctx.val (tCell w) sig 0] ∧ (∀ d, d ≠ c → t.cell? d = s.cell? d) ∧
          (∀ m, t.ctx m = s.ctx m) ∧ { t with cells := s.cells, ctxs := s.ctxs, transit := s.transit } = s) ∧
      (goodTarget x w → tRoute w ≠ 0 → ∀ p, firstPort x (tRoute w) = some p →
        ∃ t f, exec (.sigsend c sig ra) s = .next t ∧ t.cell? c = some (slotIssued cell .Q) ∧
          t.port p = enqueueLoose (s.port p) x.image.tag [f] ∧ f.mtype = 0x04 ∧ f.route.toNat = tRoute w ∧
          fld f.arg 31 18 = (tCell w).toNat ∧ fld f.arg 5 0 = sig.toNat ∧ fld f.arg 63 32 = 0 ∧
          (∀ q, q ≠ p → t.port q = s.port q) ∧ (∀ d, d ≠ c → t.cell? d = s.cell? d) ∧ (∀ m, t.ctx m = s.ctx m)) ∧
      (¬ (goodTarget x w ∧ (tRoute w = 0 → cellExists x.regions.length (tCell w) = true)) →
        ∃ t b, exec (.sigsend c sig ra) s = .next t ∧ CellBecomes s t c (slotIssued
          { cell with ctl := addSkip cell.ctl (slotLogOf x cell .Q b 15) } .Q)))

/-- At the end of a cycle a signal takes its consumption, then arrivals and landed bytes; an overflow ends the
context; a stopped wait completes (10 Signals, 10 Waiting). Derived. -/
def Obligations.SignalsUpdateAtTheEndOfACycle : Prop :=
  (∀ (c : CellRef) (s : State) (cell : Cell), Moving s c cell →
    let x := s.ctx c.ctx.val
    let arr := x.arrivals.filter (fun a => decide (a.cell = cell.id) &&
      (if a.own then decide (a.due ≤ cell.now) else running s x && decide (a.due ≤ x.cc)))
    let land := x.byteLands.filter (fun b => decide (b.cell = cell.id ∧ b.due ≤ x.cc))
    let used := cell.sync.consumes.filter (fun e => decide (e.1 ≤ cell.now))
    let after (k : BitVec 6) : Sig := sigAfter (Mem.rd {} cell.sync.sigs k.toNat)
      ((used.find? (fun e => decide (e.2.1 = k))).map (·.2.2))
      ((arr.filter (fun a => decide (a.sig = k))).map (·.n)).sum
      ((arr.filter (fun a => decide (a.sig = k))).map (·.bytes)).sum
      ((land.filter (fun b => decide (b.sig = k))).map (·.bytes)).sum
    (∀ k, sigInRange (after k)) →
    ∃ (t : State) (sigs : Mem Sig), exec (.signalArrival c) s = .next t ∧ CellAndCtxBecome s t c
      { cell with sync := { cell.sync with
          sigs := sigs, consumes := cell.sync.consumes.filter (fun e => decide (cell.now < e.1)) } }
      { x with arrivals := x.arrivals.filter (fun a => !arr.contains a)
               byteLands := x.byteLands.filter (fun b => !land.contains b) } ∧
      (∀ k : BitVec 6, Mem.rd {} sigs k.toNat = after k)) ∧
  (∀ (c : CellRef) (s : State) (cell : Cell) (a : Arrival), Moving s c cell →
    let x := s.ctx c.ctx.val
    x.arrivals = [a] → a.cell = cell.id → a.own = true → a.due ≤ cell.now → x.byteLands = [] → cell.sync.consumes = [] →
    65535 < (Mem.rd {} cell.sync.sigs a.sig.toNat).count + a.n →
    ∃ (t : State) (e : ErrRec), exec (.signalArrival c) s = .next t ∧ (t.ctx c.ctx.val).kills = x.kills ++ [{ source := 2, err := e, since := s.clock.clk, sched := x.cc }] ∧
      e.code = 0x0016 ∧ e.cell = cell.id ∧ e.detail = a.sig.toNat) ∧
  (∀ (c : CellRef) (s : State) (cell : Cell) (k : BitVec 6) (n : Nat), Moving s c cell → cell.ctl.live = false →
    cell.ctl.waiting = some (.sig k n) →
    let g := Mem.rd {} cell.sync.sigs k.toNat
    (waitHolds g n → ∃ t, exec (.waitSatisfied c) s = .next t ∧
      CellBecomes s t c (waited { cell with ctl := { cell.ctl with waiting := none } } k n)) ∧
    (¬ waitHolds g n → exec (.waitSatisfied c) s = .next s))

namespace Sys2Proof.Machine

/-- A cell may arrive at the barrier of registers `a` and `r` (R237). -/
def barShaped (x : Ctx) (id : CellId) (a r : Word) : Prop :=
  barScope a ≠ 7 ∧ (barScope a ≠ 0 → a.getLsbD (numberOf id) = true) ∧
  (barScope a = 3 → r.getLsbD (regionOf id) = true ∧ ∀ k, k < 32 → r.getLsbD k = true → k < x.regions.length)

/-- The values that the arrivals of a generation share (R239). -/
def barKey (a r : Word) (rejoin : Bool) : Nat × Nat × Bool :=
  (if barScope a = 0 then 0 else fld a 15 0, if barScope a = 3 then r.toNat else 0, a.getLsbD 31 && !rejoin)

/-- The first arrival of an instance. -/
def newInstance (x : Ctx) (id : CellId) (b : BitVec 3) (rejoin : Bool) (a r : Word) (j : Option Nat) : BarInst :=
  { b := b.toNat, rejoin := rejoin, scope := barScope a, unit := scopeUnit (barScope a) id, gen := 0
    cur := [(id, BitVec.ofNat 6 (fld a 27 22))], nxt := [], curKey := some (barKey a r rejoin), nxtKey := none
    opened := x.cc, lastDone := none, due := [], j := j, checked := false, heard := [], heardNext := [], sent := false }

/-- The latencies of Table 10.2 beyond scope 0. -/
def scopeLatency : Nat → Nat
  | 1 => 6 | 2 => 18 | 3 => 48 | _ => 72

/-- The queue counters of a participant when a generation with EPOCH is released (R241). -/
def epochCell (cell : Cell) : Cell :=
  { cell with sync := { cell.sync with
      queues := cell.sync.queues.map (fun q => { q with accepted := 0, popped := 0 }), acked := 0
      epoch := cell.sync.epoch + 1 } }

end Sys2Proof.Machine

/-- LOPEN enters a free-running section; BAR is an arrival at a barrier; a complete generation is released L - 1
cycles later, with its counters for EPOCH (10 Barriers, Table 10.2, R242). Derived. -/
def Obligations.BarriersGatherAndRelease : Prop :=
  (∀ (c : CellRef) (s : State) (cell : Cell), Issuing s c .Q cell →
    let x := s.ctx c.ctx.val
    (∃ t, exec (.lopen c) s = .next t ∧ CellBecomes s t c (slotIssued
      { cell with ctl := { cell.ctl with entering := cell.ctl.entering || !cell.ctl.free } } .Q)) ∧
    (∀ b : BitVec 3,
      let a := barAof cell b
      let r := barBof cell b
      (barShaped x cell.id a r → x.bars = [] → ∃ t, exec (.bar c b) s = .next t ∧ CellAndCtxBecome s t c (slotIssued cell .Q)
        { x with bars := [newInstance x cell.id b false a r none] }) ∧
      (∀ i : BarInst, barShaped x cell.id a r → x.bars = [i] → i.b = b.toNat → i.rejoin = false → i.scope = barScope a →
        i.unit = scopeUnit (barScope a) cell.id → i.cur ≠ [] → (∀ e ∈ i.cur, e.1 ≠ cell.id) →
        (∀ e ∈ i.nxt, e.1 ≠ cell.id) → (∀ e ∈ i.due, ∀ p ∈ e.2.1, p.1 ≠ cell.id) → i.curKey = some (barKey a r false) →
        ∃ t, exec (.bar c b) s = .next t ∧ CellAndCtxBecome s t c (slotIssued cell .Q)
          { x with bars := [{ i with cur := i.cur ++ [(cell.id, BitVec.ofNat 6 (fld a 27 22))], j := none }] }) ∧
      (∀ i : BarInst, barShaped x cell.id a r → x.bars = [i] → i.b = b.toNat → i.rejoin = false → i.scope = barScope a →
        i.unit = scopeUnit (barScope a) cell.id →
        2 ≤ i.due.countP (fun e => e.2.1.any (fun p => decide (p.1 = cell.id))) +
          (if i.cur.any (fun e => decide (e.1 = cell.id)) then 1 else 0) + (if i.nxt.any (fun e => decide (e.1 = cell.id)) then 1 else 0) →
        ∃ t w, exec (.bar c b) s = .next t ∧ CellBecomes s t c (slotIssued
          { cell with ctl := addSkip cell.ctl (slotLogOf x cell .Q w 13) } .Q)) ∧
      (¬ barShaped x cell.id a r → ∃ t w, exec (.bar c b) s = .next t ∧ CellBecomes s t c (slotIssued
        { cell with ctl := addSkip cell.ctl (slotLogOf x cell .Q w 12) } .Q)))) ∧
  (∀ (n : Fin 32) (s : State) (i : BarInst),
    let x := s.ctx n.val
    looseRuns s x = true → (x.fresh = true → x.hold.held = true) → x.bars = [i] → i.rejoin = false →
    (i.due = [] → i.cur ≠ [] → missing s n.val i = [] → 1 ≤ i.scope → i.scope ≤ 4 →
      let done := Max.max x.btime (match i.lastDone with | some d => d + 1 | none => 0)
      let ps := releaseCells s n.val i
      ∃ t, exec (.barrierRelease n i.b) s = .next t ∧ CtxBecomes s t n.val { x with bars := [{ i with
        gen := i.gen + 1, cur := i.nxt, nxt := [], curKey := i.nxtKey, nxtKey := none, lastDone := some done
        due := [(done + scopeLatency i.scope - 1, ps, (i.curKey.getD (0, 0, false)).2.2)]
        heard := i.heardNext, heardNext := [], sent := false, own := none, spread := none }] } ∧
        ps.map (·.1) = instCells x i ∧ ∀ e ∈ ps, e ∈ i.cur ∨ haltedCell s n.val e.1 = true) ∧
    (∀ d cells epoch, i.due = [(d, cells, epoch)] → d ≤ x.btime → i.cur = [] → i.heard = [] → (cells.map (·.1)).Nodup →
      ∃ t, exec (.barrierRelease n i.b) s = .next t ∧ (t.ctx n.val).bars = [{ i with due := [] }] ∧
        (t.ctx n.val).arrivals = x.arrivals ++ cells.map (fun e => arriving 0 true e.1 e.2 1) ∧
        (∀ e ∈ cells, t.cell? ⟨n, e.1⟩ = (s.cell? ⟨n, e.1⟩).map (fun cell => if epoch then epochCell cell else cell)) ∧
        (∀ k : CellRef, (∀ e ∈ cells, k ≠ ⟨n, e.1⟩) → t.cell? k = s.cell? k)))

/-- REJOIN stops its cell until J, the barrier unit examines the arrivals at J - 48, and at J the participants leave
their section (10 Loose windows and rejoin). Derived. That J is named around the cycle after the one in progress is
the model's reading (log entry 22). -/
def Obligations.RejoinsAreExaminedAndResumed : Prop :=
  (∀ (c : CellRef) (s : State) (cell : Cell) (b : BitVec 3) (rs : BitVec 5) (j : Nat), Issuing s c .Q cell →
    let x := s.ctx c.ctx.val
    let a := barAof cell b
    let r := barBof cell b
    let next := if x.hold.held then x.cc else x.cc + 1
    (barShaped x cell.id a r → barScope a ≤ 4 → x.bars = [] → j % 2 ^ 32 = (sreg cell rs).toNat →
      next ≤ j + 2 ^ 31 → j < next + 2 ^ 31 →
      ∃ t, exec (.rejoin c b rs) s = .next t ∧ CellAndCtxBecome s t c
        (slotIssued { cell with ctl := { cell.ctl with rejoining := some (b.toNat, j) } } .Q)
        { x with bars := [newInstance x cell.id b true a r (some j)] }) ∧
    (4 < barScope a ∨ ¬ barShaped x cell.id a r → ∃ t w, exec (.rejoin c b rs) s = .next t ∧ CellBecomes s t c (slotIssued
      { cell with ctl := addSkip cell.ctl (slotLogOf x cell .Q w 12) } .Q))) ∧
  (∀ (n : Fin 32) (s : State) (i : BarInst) (j : Nat),
    let x := s.ctx n.val
    looseRuns s x = true → x.bars = [i] → i.rejoin = true → i.j = some j → i.checked = false → j ≤ x.cc + 48 →
    (j < i.opened + 49 → ∃ t e, exec (.rejoinCheck n i.b) s = .next t ∧ CtxBecomes s t n.val { x with
        bars := [{ i with checked := true }], kills := x.kills ++ [{ source := 2, err := e, since := s.clock.clk, sched := x.cc }] } ∧
      e.code = 0x0013 ∧ e.detail = i.b) ∧
    (i.opened + 49 ≤ j → missing s n.val i = [] → ∃ t, exec (.rejoinCheck n i.b) s = .next t ∧
      CtxBecomes s t n.val { x with bars := [{ i with checked := true }] }) ∧
    (i.opened + 49 ≤ j → missing s n.val i ≠ [] → (∀ id ∈ missing s n.val i, freeCell s n.val id = true) →
      x.hold.reqs = [] → x.hold.opened = [] → ∃ t, exec (.rejoinCheck n i.b) s = .next t ∧ CtxBecomes s t n.val { x with
        bars := [{ i with checked := true }]
        hold := { x.hold with reqs := [{ cause := .overrun, src := lowestRegion x i, since := s.clock.clk }] } }) ∧
    (∀ id, i.opened + 49 ≤ j → id ∈ missing s n.val i → freeCell s n.val id = false → ∃ t e,
      exec (.rejoinCheck n i.b) s = .next t ∧ CtxBecomes s t n.val { x with
        bars := [{ i with checked := true }], kills := x.kills ++ [{ source := 2, err := e, since := s.clock.clk, sched := x.cc }] } ∧
      e.code = 0x0013)) ∧
  (∀ (n : Fin 32) (s : State) (i : BarInst),
    let x := s.ctx n.val
    running s x = true → x.bars = [i] → i.rejoin = true → i.j = some x.cc →
    (∀ e ∈ i.cur, ∃ cell, s.cell? ⟨n, e.1⟩ = some cell ∧ cell.ctl.rejoining = some (i.b, x.cc)) →
    ∃ t, exec (.rejoinResume n i.b) s = .next t ∧ (t.ctx n.val).bars = [] ∧ (t.ctx n.val).cc = x.cc ∧
      (∀ e ∈ i.cur, ∃ cell cell', s.cell? ⟨n, e.1⟩ = some cell ∧ t.cell? ⟨n, e.1⟩ = some cell' ∧ cell'.ctl.rejoining = none ∧
        cell'.ctl.free = false ∧ cell'.ctl.pc = cell.ctl.pc ∧ cell'.sc = cell.sc ∧ cell'.spad = cell.spad ∧
        cell'.sync = cell.sync) ∧
      (∀ k : CellRef, (∀ e ∈ i.cur, k ≠ ⟨n, e.1⟩) → t.cell? k = s.cell? k))

/-! ### Queues and combining queues (chapter 10) -/

namespace Sys2Proof.Machine

/-- The cell with a result of the Q slot in flight: it lands in s[rd] at the end of this cycle. -/
def qResult (cell : Cell) (rd : BitVec 5) (v : Word) : Cell :=
  { cell with sc := { cell.sc with
      res := cell.sc.res ++ [{ due := cell.now, issued := cell.now, rank := 5, dst := .s rd, val := v }] } }

/-- The Q slot is replaced by its no-op and logged with a reason. -/
def qSkipped (s : State) (c : CellRef) (cell : Cell) (i : Instr) (reason : Nat) : Prop :=
  ∃ t w, exec i s = .next t ∧ CellBecomes s t c (slotIssued
    { cell with ctl := addSkip cell.ctl (slotLogOf (s.ctx c.ctx.val) cell .Q w reason) } .Q)

/-- A send that QSEND may make (R248, R264). -/
def sendable (x : Ctx) (w : Word) : Prop :=
  goodTarget x w ∧ tKind w ≠ 3 ∧ (tKind w = 2 → fld w 8 6 = 0) ∧
  (tRoute w = 0 → regionOf (tCell w) < x.regions.length ∧ (tKind w = 2 ∨ cellExists x.regions.length (tCell w) = true))

/-- The answer to a message of `k` rows for a queue, and where it starts in the ring, behind a skip marker where the
second part says so (R251). -/
def admission (u : Queue) (k : Nat) : BitVec 2 × Option (Nat × Bool) :=
  let len := ringLen u
  let head := if u.used = 0 then 0 else u.head
  let tail := if u.used = 0 then 0 else u.tail
  if len = 0 then (3, none)
  else if len < k then (2, none)
  else if 64 < u.table.length + 2 then (1, none)
  else if u.used = len then (1, none)
  else if head < tail ∨ u.used = 0 then
    if k ≤ len - tail then (0, some (tail, false)) else if k ≤ head then (0, some (0, true)) else (1, none)
  else if k ≤ head - tail then (0, some (tail, false)) else (1, none)

/-- The answer to a message goes back to its sender: on this module as a loose result, on a link as a QRESULT flit, on
its return route or one hop back. -/
def Answers (s t : State) (n : Nat) (goal : Reply) (res : BitVec 2) : Prop :=
  match goal with
  | .cell .. | .comb .. => t.transit = s.transit ++ [.result goal res] ∧ ∀ p, t.port p = s.port p
  | .link port route _ tag seq => t.transit = s.transit ∧
      ∀ p, (if route = 0 then some port else firstPort (s.ctx n) route) = some p →
        (∀ q, q ≠ p → t.port q = s.port q) ∧ ∃ f, t.port p = enqueueLoose (s.port p) (s.ctx n).image.tag [f] ∧
          f.mtype = 0x06 ∧ fld f.arg 17 16 = res.toNat ∧ fld f.arg 63 48 = tag.toNat ∧ fld f.arg 7 0 = seq % 256
  | _ => t.transit = s.transit ∧ ∀ p, t.port p = s.port p

end Sys2Proof.Machine

/-- QPUT, QSEND, QRES, QRECV and QPOP work on the stage, the sends and the queues; a ring write places a ring;
messages are accepted or answered (10 Queues, 10 Sending, 10 Acceptance, Table 10.3). Derived. -/
def Obligations.QueuesSendAndReceive : Prop :=
  (∀ (c : CellRef) (s : State) (cell : Cell), Issuing s c .Q cell →
    let x := s.ctx c.ctx.val
    let v := cell.sync
    (∀ (rs : BitVec 5) (off : BitVec 7),
      let row := (sreg cell rs + BitVec.ofNat 32 off.toNat).toNat
      (640 ≤ row → qSkipped s c cell (.qput c rs off) 9) ∧
      (row < 640 → 16 ≤ v.stage.length → qSkipped s c cell (.qput c rs off) 8) ∧
      (v.stage.length < 16 → Readable cell row → ∃ (t : State) (sp : Scratchpad), exec (.qput c rs off) s = .next t ∧
        t.cell? c = some (slotIssued { cell with
          sync := { v with stage := v.stage ++ [Mem.rd 0 cell.spad.rows row] }, spad := sp } .Q) ∧
        RowRead cell.spad sp row 4 ∧ ∀ d, d ≠ c → t.cell? d = s.cell? d)) ∧
    (∀ ra rb : BitVec 5,
      let w := sreg cell ra
      let tag : BitVec 16 := (sreg cell rb).setWidth 16
      let sent : Cell := slotIssued { cell with sync := { v with
        stage := [], sends := v.sends ++ [⟨v.nextSend, tag, w, none⟩], nextSend := v.nextSend + 1 } } .Q
      let reply := Reply.cell c.ctx.val cell.id v.nextSend
      (v.stage = [] → qSkipped s c cell (.qsend c ra rb) 8) ∧
      (v.stage ≠ [] → ¬ sendable x w → qSkipped s c cell (.qsend c ra rb) 15) ∧
      (v.stage ≠ [] → sendable x w → 8 ≤ v.sends.length → qSkipped s c cell (.qsend c ra rb) 10) ∧
      (v.stage ≠ [] → sendable x w → v.sends.length < 8 → tRoute w = 0 → ∃ t, exec (.qsend c ra rb) s = .next t ∧
        t.cell? c = some sent ∧ (∀ d, d ≠ c → t.cell? d = s.cell? d) ∧ (∀ m, t.ctx m = s.ctx m) ∧
        t.transit = s.transit ++ [if tKind w = 2 then
          .contrib c.ctx.val (regionOf (tCell w)) (fld w 5 0) ⟨0, false, cell.id⟩ v.stage reply
          else .qmsg c.ctx.val (tCell w) ⟨decide (tKind w = 1), tag, ⟨0, false, cell.id⟩, v.stage, reply, false, 0⟩]) ∧
      (v.stage ≠ [] → sendable x w → v.sends.length < 8 → tRoute w ≠ 0 → ∀ p, firstPort x (tRoute w) = some p →
        ∃ (t : State) (l : List Flit), exec (.qsend c ra rb) s = .next t ∧ t.cell? c = some sent ∧ (∀ d, d ≠ c → t.cell? d = s.cell? d) ∧
          t.transit = s.transit ∧ t.port p = enqueueLoose (s.port p) x.image.tag l ∧ l.length = 2 * v.stage.length ∧
          ∀ f ∈ l, f.mtype = (if tKind w = 2 then 0x07 else 0x05) ∧ f.route.toNat = tRoute w)) ∧
    (∀ rd : BitVec 5,
      (v.sends = [] → qSkipped s c cell (.qres c rd) 11) ∧
      (∀ r rest res, v.sends = r :: rest → r.result = some res → ∃ t, exec (.qres c rd) s = .next t ∧
        CellBecomes s t c (slotIssued (qResult { cell with sync := { v with sends := rest } } rd
          (BitVec.ofNat 32 (res.toNat * 2 ^ 30 + r.tag.toNat))) .Q)) ∧
      (∀ r rest, v.sends = r :: rest → r.result = none → cell.ctl.free = false → ∃ t, exec (.qres c rd) s = .next t ∧
        CellAndCtxBecome s t c (slotIssued cell .Q) { x with kills := x.kills ++ [missed s x cell 0 3] })) ∧
    (∀ (q : Bool) (rd : BitVec 5) (e : QEntry) (rest : List QEntry), (queueAt cell q).table = e :: rest →
      e.visible = true → e.marker = false →
      ∃ (t : State) (v' : Word), exec (.qrecv c q rd) s = .next t ∧ CellBecomes s t c (slotIssued (qResult (onQueue cell q (fun u =>
          { u with srcReg := sourceReg e.src })) rd v') .Q) ∧ v'.setWidth 16 = e.tag ∧
        fld v' 31 22 = (ringBase (queueAt cell q) + e.first) % 1024 ∧ fld v' 21 18 = (e.rows - 1) % 16 ∧ fld v' 17 16 = 0) ∧
    (∀ (q : Bool) (rd : BitVec 5), (queueAt cell q).table = [] → cell.ctl.free = true →
      (qSkipped s c cell (.qpop c q) 14) ∧ ∃ t, exec (.qrecv c q rd) s = .next t ∧ CellBecomes s t c (slotIssued
        { cell with ctl := { cell.ctl with waiting := some (.recv q rd) } } .Q)) ∧
    (∀ (q : Bool) (e : QEntry) (rest : List QEntry), (queueAt cell q).table = e :: rest → e.visible = true →
      e.marker = false → ∃ t, exec (.qpop c q) s = .next t ∧ CellBecomes s t c (slotIssued { cell with
        sync := { v with pops := v.pops ++ [(cell.now, q)] } } .Q))) ∧
  (∀ (c : CellRef) (s : State) (cell : Cell) (q : Bool) (w : Word), Moving s c cell →
    (∀ r ∈ cell.sc.cregs, r.creg.toNat ≠ 0x448 + b01 q) →
    let other := queueAt cell (!q)
    let free := (queueAt cell q).table = [] ∧ (∀ m ∈ cell.sync.received, m.q ≠ q) ∧ fld w 9 0 + fld w 29 20 ≤ 640 ∧
      (∀ r, fld w 9 0 ≤ r → r < fld w 9 0 + fld w 29 20 → ¬ (ringBase other ≤ r ∧ r < ringBase other + ringLen other))
    (free → ∃ t, exec (.queRingWrite c q w) s = .next t ∧ CellBecomes s t c (onQueue cell q (fun u =>
      { u with ring := w &&& 0x3FF003FF, head := 0, tail := 0, used := 0 }))) ∧
    (¬ free → ∃ t, exec (.queRingWrite c q w) s = .next t ∧ CellBecomes s t c
      { cell with sync := { cell.sync with cfgReject := true } })) ∧
  (∀ (c : CellRef) (s : State) (cell : Cell) (m : StagedMsg) (rest : List StagedMsg), s.cell? c = some cell →
    looseRuns s (s.ctx c.ctx.val) = true → cell.sync.received = m :: rest → m.accepted = false →
    let u := queueAt cell m.q
    let k := m.rows.length
    ∃ t, exec (.messageProcessing c) s = .next t ∧ Answers s t c.ctx.val m.reply (admission u k).1 ∧
      (∀ d, d ≠ c → t.cell? d = s.cell? d) ∧ (∀ n, t.ctx n = s.ctx n) ∧
      (∀ start skip, (admission u k).2 = some (start, skip) → ∃ (cell' : Cell), t.cell? c = some cell' ∧
        cell'.sync.received = { m with accepted := true, ringRow := ringBase u + start } :: rest ∧
        (queueAt cell' m.q).table = u.table ++ (if skip then
          [⟨true, u.tail, ringLen u - u.tail, 0, m.src, 0, false⟩] else []) ++ [⟨false, start, k, m.tag, m.src, k, false⟩] ∧
        (queueAt cell' m.q).used = u.used + (if skip then ringLen u - u.tail else 0) + k ∧
        (queueAt cell' m.q).tail = (start + k) % ringLen u ∧
        (queueAt cell' m.q).accepted = satInc 0xFFFF u.accepted ∧ queueAt cell' (!m.q) = queueAt cell (!m.q) ∧
        cell'.sc = cell.sc ∧ cell'.spad = cell.spad ∧ cell'.ctl = cell.ctl) ∧
      ((admission u k).2 = none → t.cell? c = some { cell with sync := { cell.sync with received := rest } }))

namespace Sys2Proof.Machine

/-- The combining queue `q` of a logical region of context `n`. -/
def combQueue (s : State) (n region q : Nat) : Comb := Mem.rd {} (s.comb n region).qs q

/-- The answer `res` to the sum of a combining queue has had its effect (R258): ACK clears PENDING, FULL and TOO_LONG set a
time 1,024 cycles ahead, BAD is COMB_UNDELIVERABLE. Cells, other contexts and other queues are as they were. -/
def SumAnswered (s t : State) (n region q : Nat) (res : BitVec 2) : Prop :=
  let x := s.ctx n
  let u := combQueue s n region q
  (∀ c, t.cell? c = s.cell? c) ∧ (∀ m, m ≠ n → t.ctx m = s.ctx m) ∧
  (∀ k r, (k, r) ≠ (region, q) → combQueue t n k r = combQueue s n k r) ∧
  (u.pending = false → t.ctx n = x) ∧
  (u.pending = true → res = 0 → combQueue t n region q = { u with pending := false, sum := [], resend := none } ∧
    (t.ctx n).kills = x.kills) ∧
  (u.pending = true → res = 1 ∨ res = 2 → combQueue t n region q = { u with resend := some (x.btime + 1024) } ∧
    (t.ctx n).kills = x.kills) ∧
  (u.pending = true → res = 3 → combQueue t n region q = u ∧ ∃ e : ErrRec, (t.ctx n).kills = x.kills ++
    [{ source := 2, err := e, since := s.clock.clk, sched := x.cc }] ∧ e.code = 0x0017 ∧ e.unit = 7 ∧ e.detail = q)

/-- The value of accumulator lane `l` of row `row` of a region. -/
def accValue (s : State) (n region row l : Nat) : Int := (Mem.rd {} (s.comb n region).acc (64 * row + l)).w.toInt

/-- INT64 saturation (R258). -/
def clamp64 (v : Int) : Int := Max.max (-9223372036854775808) (Min.min 9223372036854775807 v)

/-- Every lane of a region's accumulators agrees with its residue (R100). -/
def accsSound (s : State) (n region : Nat) : Prop :=
  ∀ k, (Mem.rd {} (s.comb n region).acc k).res = residueOf (Mem.rd {} (s.comb n region).acc k).w.toInt

/-- The sum of a combining queue leaves for the cell or route that DEST names (R258). -/
def SumSent (s t : State) (n region q gen : Nat) (cfg : DWord) (rows : List Row) : Prop :=
  if fld cfg 47 40 = 0 then ∃ m : StagedMsg, t.transit.getLast? = some (.qmsg n (combDest cfg) m) ∧ m.rows = rows ∧
    m.q = cfg.getLsbD 39 ∧ m.tag.toNat = 64 * (gen % 1024) + q % 64 ∧ m.src.comb = true ∧ m.reply = .comb n region q
  else ∀ p, firstPort (s.ctx n) (fld cfg 47 40) = some p → ∃ l before, t.port p = enqueueLoose before (s.ctx n).image.tag l ∧
    l.length = 2 * rows.length ∧ ∀ f ∈ l, f.mtype = 0x05

end Sys2Proof.Machine

/-- A combining queue answers or adds each contribution, sends the saturated sum at EXPECT, takes its answer and sends
a refused sum again (10 Combining queues). Derived. -/
def Obligations.CombiningQueuesSumAndResendOnRefusal : Prop :=
  (∀ (n : Fin 32) (region : BitVec 5) (s : State) (m : StagedContrib) (rest : List StagedContrib),
    looseRuns s (s.ctx n.val) = true → (s.comb n.val region.toNat).stage = m :: rest →
    let u := combQueue s n.val region.toNat m.q
    let k := combRows u.cfg
    let first := combFirst u.cfg
    (combExpect u.cfg = 0 ∨ m.rows.length ≠ k → ∃ t, exec (.contributionProcessing n region) s = .next t ∧
      Answers s t n.val m.reply 3 ∧ t.comb n.val region.toNat = { s.comb n.val region.toNat with stage := rest }) ∧
    (combExpect u.cfg ≠ 0 → m.rows.length = k → u.pending = true → ∃ t,
      exec (.contributionProcessing n region) s = .next t ∧ Answers s t n.val m.reply 1 ∧
      t.comb n.val region.toNat = { s.comb n.val region.toNat with stage := rest }) ∧
    (m.rows.length = k → u.pending = false → u.count + 1 < combExpect u.cfg → accsSound s n.val region.toNat →
      (∀ row l, l < 64 → (accValue s n.val region.toNat row l).natAbs < 2 ^ 78) → ∃ t,
      exec (.contributionProcessing n region) s = .next t ∧ Answers s t n.val m.reply 0 ∧
      (t.comb n.val region.toNat).stage = rest ∧ combQueue t n.val region.toNat m.q = { u with count := u.count + 1 } ∧
      (∀ q, q ≠ m.q → combQueue t n.val region.toNat q = combQueue s n.val region.toNat q) ∧
      accsSound t n.val region.toNat ∧
      (∀ i row l, m.rows[i]? = some row → l < 64 → accValue t n.val region.toNat (first + i) l =
        accValue s n.val region.toNat (first + i) l + (row.extractLsb' (64 * l) 64).toInt) ∧
      (∀ row l, l < 64 → (row < first ∨ first + k ≤ row) →
        accValue t n.val region.toNat row l = accValue s n.val region.toNat row l)) ∧
    (m.rows.length = k → u.pending = false → 0 < combExpect u.cfg → combExpect u.cfg ≤ u.count + 1 →
      accsSound s n.val region.toNat → (∀ row l, l < 64 → (accValue s n.val region.toNat row l).natAbs < 2 ^ 78) → ∃ t,
      exec (.contributionProcessing n region) s = .next t ∧
      let u' := combQueue t n.val region.toNat m.q
      u'.count = 0 ∧ u'.gen = (u.gen + 1) % 1024 ∧ u'.pending = true ∧ u'.cfg = u.cfg ∧ u'.sum.length = k ∧
      (∀ i row sum l, m.rows[i]? = some row → u'.sum[i]? = some sum → l < 64 → (sum.extractLsb' (64 * l) 64).toInt =
        clamp64 (accValue s n.val region.toNat (first + i) l + (row.extractLsb' (64 * l) 64).toInt)) ∧
      (∀ i l, i < k → l < 64 → accValue t n.val region.toNat (first + i) l = 0) ∧
      SumSent s t n.val region.toNat m.q ((u.gen + 1) % 1024 + 1023) u.cfg u'.sum)) ∧
  (∀ (n : Fin 32) (region : BitVec 5) (q : BitVec 6) (s : State) (at_ : Nat), looseRuns s (s.ctx n.val) = true →
    let u := combQueue s n.val region.toNat q.toNat
    u.pending = true → u.resend = some at_ →
    (at_ ≤ (s.ctx n.val).btime → ∃ t, exec (.sumResend n region q) s = .next t ∧
      combQueue t n.val region.toNat q.toNat = { u with resend := none } ∧
      SumSent s t n.val region.toNat q.toNat (u.gen + 1023) u.cfg u.sum) ∧
    ((s.ctx n.val).btime < at_ → exec (.sumResend n region q) s = .next s)) ∧
  -- the answer to a sum (R258)
  (∀ (i n region q : Nat) (s : State) (res : BitVec 2), s.transit[i]? = some (.result (.comb n region q) res) →
    loosePaused (s.ctx n) = false →
    ∃ t, exec (.qresult (.onModule i)) s = .next t ∧ t.transit = s.transit.eraseIdx i ∧ (∀ p, t.port p = s.port p) ∧
      SumAnswered s t n region q res)

/-! ### Holds and frequency changes (chapter 02) -/

namespace Sys2Proof.Machine

/-- An empty entry of CTX_HOLD_LOG. -/
def noHoldLog : HoldLog := ⟨0, 0, 0, 0, 0⟩

/-- The index of the entry of the hold in force. -/
def holdIndex (x : Ctx) : Nat := (x.hold.logNext + 15) % 16

/-- A flit of type `mtype` for route `r` waits among the control flits of a port. -/
def ctrlHolds (q : Port) (mtype : BitVec 6) (r : Nat) (payload : Nat) : Prop :=
  ∃ f ∈ q.ctrl, f.mtype = mtype ∧ f.route = BitVec.ofNat 8 r ∧ f.payload.toNat = payload

/-- The units clear a cause of these kinds when this holds (Table 2.4). -/
def causeCleared (s : State) (x : Ctx) : HoldCause → Nat → Prop
  | .thermal, _ => s.power.thermalHold = false ∧ s.clock.khz = s.clock.groupKhz
  | .power, _ => s.power.supplyLow = false ∧ s.power.overPower = false ∧ s.clock.khz = s.clock.groupKhz
  | .hbmLate, src => ∀ h ∈ x.hreads, h.due ≤ checkedTo x → 8 * hbmRegion h.addr + hbmChannel h.addr = src → h.present = true
  | .linkLate, p | .partner, p => ∀ e ∈ x.expects, e.port = p → ∀ d, x.cc ≤ d → d ≤ checkedTo x → e.lat ≤ d →
      (d - e.lat) % 320 = 10 * e.pair → instancePresent x e d = true
  | _, _ => True

/-- The record of the kill at the hold limit (R369, Table 14.11): the late participant of a rejoin barrier, the missing HBM
landing, or the missing instance of a port. -/
def limitRecord (s : State) (n : Nat) (x : Ctx) (cause : HoldCause) (src : Nat) (w : ErrRec) : Prop :=
  w.code = (if cause = .overrun then 0x0013 else 0x0010) ∧
  w.unit = (match cause with | .overrun => 10 | .linkLate => 9 | .partner => 9 | _ => 8) ∧
  (∀ i, cause = .overrun → x.bars = [i] → w.detail = i.b ∧ ∃ rest, missing s n i = w.cell :: rest) ∧
  (∀ r, cause = .hbmLate → x.hreads = [r] → w.cc = r.due ∧ w.cell = (readTarget s n x r).1 ∧
    w.detail = 1024 * hbmChannel r.addr + (readTarget s n x r).2) ∧
  (∀ e, cause = .linkLate ∨ cause = .partner → x.expects = [e] → e.port = src ∧ e.lat ≤ w.cc ∧
    (w.cc - e.lat) % 320 = 10 * e.pair ∧ instancePresent x e w.cc = false ∧ x.cc ≤ w.cc ∧ w.cc ≤ checkedTo x ∧
    16384 + 1024 * src ≤ w.detail) ∧
  w.dome = s.clock.dome

end Sys2Proof.Machine

/-- Absent data requests a hold; the root accepts it for cycle H = A + 32; cells freeze, are released after 32 cycles,
and HOLD_LIMIT_MS ends a context (02 Holds, Table 2.4, 02 Frequency changes, 14 Hangs, Table 14.11). Derived. The
count and the log entry at the freeze, the release accepted in the cycle in which the cause clears, the delay of a
request to the root, the landing and the destination that the hold limit names, and the envelope that comes into force
at F are the model's choices (log entries 71, 77, 13, 82, 75). -/
def Obligations.HoldsAreAcceptedFreezeAndRelease : Prop :=
  ∀ (n : Fin 32) (s : State),
    let x := s.ctx n.val
    let h := x.hold
    (∀ e : Expect, running s x = true → x.expects = [e] → x.hreads = [] → x.instances = [] → h.reqs = [] → h.opened = [] →
      e.lat ≤ x.cc + 48 → (x.cc + 48 - e.lat) % 320 = 10 * e.pair →
      ∃ t, exec (.presenceCheck n) s = .next t ∧ CtxBecomes s t n.val { x with hold := { h with
        reqs := [{ cause := if 256 * e.port + e.route ∈ x.lagging then .partner else .linkLate, src := e.port
                   since := s.clock.clk }] } }) ∧
    (∀ r : HbmRead, running s x = true → x.expects = [] → x.hreads = [r] → h.reqs = [] → h.opened = [] →
      r.due = x.cc + 48 → r.present = false →
      ∃ t, exec (.presenceCheck n) s = .next t ∧ CtxBecomes s t n.val { x with hold := { h with
        reqs := [{ cause := .hbmLate, src := 8 * hbmRegion r.addr + hbmChannel r.addr, since := s.clock.clk }] } }) ∧
    (running s x = true →
      (∀ e ∈ x.expects, e.lat ≤ x.cc + 48 → (x.cc + 48 - e.lat) % 320 = 10 * e.pair → instancePresent x e (x.cc + 48) = true) →
      (∀ r ∈ x.hreads, r.due = x.cc + 48 → r.present = true) →
      ∃ t, exec (.presenceCheck n) s = .next t ∧ CtxBecomes s t n.val x) ∧
    (h.reqs.find? (holdDue s.clock.clk) = none → ∃ t, exec (.holdAccept n) s = .next t ∧ CtxBecomes s t n.val x) ∧
    (∀ r, h.reqs.find? (holdDue s.clock.clk) = some r → holdable x = true →
      let rest := h.reqs.erase r
      (h.pending = false → h.held = false → ∃ t, exec (.holdAccept n) s = .next t ∧ CtxBecomes s t n.val { x with
        hold := { h with reqs := rest, pending := true, cycle := if x.state = .armed then 0 else x.cc + 32
                         opened := [(r.cause, r.src)], joined := [(r.cause, r.src)]
                         causes := BitVec.ofNat 8 (2 ^ causeBit r.cause), lastRelease := none, limit := 0 } }) ∧
      (h.pending = true → h.held = false → (r.cause, r.src) ∉ h.opened → ∃ t, exec (.holdAccept n) s = .next t ∧
        CtxBecomes s t n.val { x with hold := { h with
          reqs := rest, opened := h.opened ++ [(r.cause, r.src)], joined := h.joined ++ [(r.cause, r.src)]
          causes := causeMask (h.joined ++ [(r.cause, r.src)]), lastRelease := none } }) ∧
      (h.held = true → ∃ t, exec (.holdAccept n) s = .next t ∧ (t.ctx n.val).hold.opened.contains (r.cause, r.src) = true ∧
        (t.ctx n.val).hold.held = true ∧ (t.ctx n.val).hold.cycle = h.cycle ∧ (t.ctx n.val).hold.lastRelease = none ∧
        (t.ctx n.val).cc = x.cc ∧ (∀ m, m ≠ n.val → t.ctx m = s.ctx m) ∧ ∀ k, t.cell? k = s.cell? k)) ∧
    (h.pending = true → h.cycle ≤ x.cc → x.state = .running ∨ x.state = .done → overrunOnly h = false →
      ∃ t, exec (.holdFreeze n) s = .next t ∧ t.ctx n.val = { x with fresh := true, hold := { h with
          pending := false, held := true, start := s.clock.dome, count := satInc 0xFFFFFFFF h.count
          logNext := (h.logNext + 1) % 16
          log := Mem.put h.log h.logNext ⟨s.clock.dome, 0, h.cycle, causeMask h.joined, lowestSource h.joined⟩ } } ∧
        (∀ m, m ≠ n.val → t.ctx m = s.ctx m) ∧ (∀ k, t.cell? k = s.cell? k) ∧
        (∀ e ∈ x.slots, e.2.kind = 1 → ∀ p, firstPort x e.2.route = some p →
          ctrlHolds (t.port p) 0x11 e.2.route (h.cycle % 2 ^ 64 + 2 ^ 64 * (s.clock.dome % 2 ^ 64)))) ∧
    (h.pending = true → x.cc < h.cycle → exec (.holdFreeze n) s = .next s) ∧
    (∀ cause src, holdable x = true → (h.held = true ∨ (h.pending = true ∧ x.state = .armed)) →
      h.opened = [(cause, src)] → h.lastRelease = none → cause ≠ .overrun → cause ≠ .refresh →
      (causeCleared s x cause src → ∃ t, exec (.holdRelease n) s = .next t ∧ CtxBecomes s t n.val { x with
        hold := { h with opened := [], lastRelease := some s.clock.clk } }) ∧
      (¬ causeCleared s x cause src → ∃ t, exec (.holdRelease n) s = .next t ∧ CtxBecomes s t n.val x)) ∧
    (∀ u, holdable x = true → h.held = true → h.opened = [] → h.lastRelease = some u →
      (u + 32 ≤ s.clock.clk → ∃ t, exec (.holdResume n) s = .next t ∧ (t.ctx n.val).hold.held = false ∧
        (t.ctx n.val).hold.pending = false ∧ (t.ctx n.val).fresh = false ∧ (t.ctx n.val).cc = x.cc ∧
        Mem.rd noHoldLog (t.ctx n.val).hold.log (holdIndex x) = { Mem.rd noHoldLog h.log (holdIndex x) with stop := s.clock.dome }) ∧
      (s.clock.clk < u + 32 → exec (.holdResume n) s = .next s)) ∧
    (∀ cause src, x.state = .running → h.held = true → h.opened = [(cause, src)] → cause ≠ .thermal → cause ≠ .power →
      (∀ r ∈ x.kills, r.source ≠ 7) →
      let ms := s.lantern.od.holdLimitMs
      (∀ w, waitedFor s n.val x (cause, src) = some w → ms ≠ 0 → ms * 1000000 ≤ h.limit →
        limitRecord s n.val x cause src w ∧
        ∃ t, exec (.holdLimit n) s = .next t ∧ CtxBecomes { s with free := s.free + 1 } t n.val { x with
          kills := x.kills ++ [{ source := 7, err := w, since := s.clock.clk, sched := x.cc }] }) ∧
      (ms = 0 ∨ h.limit < ms * 1000000 ∨ waitedFor s n.val x (cause, src) = none →
        ∃ t, exec (.holdLimit n) s = .next t ∧ CtxBecomes s t n.val x)) ∧
    (∀ e rest, s.clock.pendingF = e :: rest →
      (e.f ≤ s.clock.dome → ∃ t, exec .frequencyChange s = .next t ∧ t.clock.groupKhz = e.khz ∧
        t.clock.khz = (if s.clock.khz = s.clock.groupKhz then e.khz else s.clock.khz) ∧
        t.clock.envelope = e.envelope ∧ t.clock.dome = s.clock.dome ∧ t.clock.pendingF = rest ∧
        { t with clock := s.clock } = s) ∧
      (s.clock.dome < e.f → exec .frequencyChange s = .next s))

/-! ### Contexts, kills and deadlock detection (chapters 10, 13 and 14) -/

namespace Sys2Proof.Machine

/-- K of a kill of a running context that no hold stops (R360). -/
def killAt (x : Ctx) : Nat :=
  if x.hold.pending = true ∧ x.hold.cycle ≤ x.cc + 24 then x.hold.cycle else x.cc + 24

/-- The core clock edge of this cycle comes after L + 320 ns (R22). -/
def pastOffset (s : State) (x : Ctx) : Prop :=
  x.launch + 320 < s.clock.dome ∨ (x.launch + 320 = s.clock.dome ∧ s.clock.domeAcc ≠ 0)

/-- Every region that belongs to context `n` has left it, and is being cleared. -/
def regionsLeft (s t : State) (n : Nat) : Prop :=
  ∀ p ∈ (s.ctx n).regions, (s.region p).owner = some n → (t.region p).owner = none ∧ (t.region p).clearing = true

/-- No region waits to be fenced. -/
def noFencesPending (s : State) : Prop := ∀ p, (s.region p).pendingFences = []

/-- The function of context `n` gets an event about it. -/
def ctxEventAdded (s t : State) (n code error : Nat) : Prop :=
  ∃ (e : EventRec), (t.fn (s.ctx n).owner).events = (s.fn (s.ctx n).owner).events ++ [e] ∧ e.code = code ∧ e.ctx = n ∧ e.error = error ∧
    e.handle = (s.ctx n).handle ∧ e.dome = s.clock.dome ∧ (code ≠ 3 → e.cc = schedCc s (s.ctx n))

end Sys2Proof.Machine

/-- A context starts at its launch edge, completes when all cells are halted and idle, and a kill starts, is received,
ends it, or makes the module UNRECOVERABLE (14 What the kill does, 14 How long a kill takes, 13 Context states, 02
Launch and the sync group). Derived. What a kill leaves, the abort that is over at the receipt, the CTX_SCHED_CC of an
event, the causes that go through the root and their delay are the model's choices (log entries 48, 78, 18, 47, 13).
-/
def Obligations.ContextsStartCompleteAndAreKilled : Prop :=
  ∀ (n : Fin 32) (s : State),
    let x := s.ctx n.val
    (x.state = .armed → s.unrecoverable = false → pastOffset s x → x.hold.held = false →
      (x.hold.pending = false → ∃ t, exec (.contextStart n) s = .next t ∧ (t.ctx n.val).state = .running ∧ (t.ctx n.val).cc = 0 ∧
        (t.ctx n.val).fresh = false ∧ (t.ctx n.val).hold.held = false ∧ (∀ m, m ≠ n.val → t.ctx m = s.ctx m) ∧
        (∀ k : CellRef, k.ctx ≠ n → t.cell? k = s.cell? k) ∧
        (∀ k : CellRef, k.ctx = n → ∀ c, s.cell? k = some c → ∃ c', t.cell? k = some c' ∧ c'.begun = true ∧ c'.dmem = c.dmem)) ∧
      (x.hold.pending = true → x.hold.cycle = 0 → x.hold.lastRelease = none → ∃ t, exec (.contextStart n) s = .next t ∧ (t.ctx n.val).state = .running ∧
        (t.ctx n.val).cc = 0 ∧ (t.ctx n.val).fresh = true ∧ (t.ctx n.val).hold.held = true ∧ ∀ k, t.cell? k = s.cell? k) ∧
      (∀ u, x.hold.pending = true → x.hold.cycle = 0 → x.hold.opened = [] → x.hold.lastRelease = some u →
        u + 32 ≤ s.clock.clk → ∃ t, exec (.contextStart n) s = .next t ∧ (t.ctx n.val).state = .running ∧
        (t.ctx n.val).cc = 0 ∧ (t.ctx n.val).fresh = false ∧ (t.ctx n.val).hold.held = false)) ∧
    (¬ pastOffset s x → exec (.contextStart n) s = .next s) ∧
    (x.state = .running → s.unrecoverable = false → nothingDue x = true → schedStill s n.val = true →
      looseStill s n.val true = true →
      (∀ c ∈ s.cellsOf n.val, c.ctl.halted = true ∧ cellIdle c = true) → noFencesPending s →
      (s.fn x.owner).events.length < 256 →
      ∃ t, exec (.contextComplete n) s = .next t ∧ (t.ctx n.val).state = .done ∧
        (t.ctx n.val).hold.held = (x.hold.held && x.hold.opened.any (fun e => moduleWide e.1)) ∧
        (t.ctx n.val).hold.reqs = x.hold.reqs.filter (fun r => moduleWide r.cause) ∧ regionsLeft s t n.val ∧
        ctxEventAdded s t n.val 1 0 ∧ ∀ m, m ≠ n.val → t.ctx m = s.ctx m) ∧
    ((∃ c ∈ s.cellsOf n.val, c.ctl.halted = false) → exec (.contextComplete n) s = .next s) ∧
    (x.kills.find? (killDue s.clock.clk) = none → exec (.killStart n) s = .next s) ∧
    (∀ r, x.kills.find? (killDue s.clock.clk) = some r → killable x = true → s.unrecoverable = false → ∃ t k, exec (.killStart n) s = .next t ∧
      (t.ctx n.val).state = .killing ∧ (t.ctx n.val).kill = some k ∧ (t.ctx n.val).kills = x.kills.erase r ∧ k.code = r.err.code ∧
      k.source = r.source ∧ k.startDome = s.clock.dome ∧ k.startClk = s.clock.clk ∧ k.received = false ∧
      (x.state ≠ .running → k.k = 0) ∧ (x.state = .running → x.hold.held = true → k.k = x.cc) ∧
      (x.state = .running → x.hold.held = false → k.k = killAt x) ∧
      (t.ctx n.val).errors = satInc 0xFFFF x.errors ∧ (x.errlog.length < 4 → (t.ctx n.val).errlog = x.errlog ++ [r.err]) ∧
      (4 ≤ x.errlog.length → (t.ctx n.val).errlog = x.errlog) ∧ (t.ctx n.val).hold.reqs = [] ∧
      (t.ctx n.val).cc = x.cc ∧ (∀ m, m ≠ n.val → t.ctx m = s.ctx m) ∧ (∀ q, t.cell? q = s.cell? q)) ∧
    (∀ r k, x.kills.find? (killDue s.clock.clk) = some r → x.state = .killing → x.kill = some k → k.received = false →
      ∃ t, exec (.killStart n) s = .next t ∧ CtxBecomes s t n.val { x with
        kills := x.kills.erase r, errors := satInc 0xFFFF x.errors
        errlog := if x.errlog.length < 4 then x.errlog ++ [r.err] else x.errlog }) ∧
    (∀ k : Kill, x.kill = some k → x.state = .killing → k.received = false → s.unrecoverable = false →
      (k.startClk + 24 ≤ s.clock.clk → ∃ t free, exec (.killReceipt n) s = .next t ∧
        (t.ctx n.val).kill = some { k with received := true, gotClk := s.clock.clk, freeAny := free } ∧
        (t.ctx n.val).landings = [] ∧ (t.ctx n.val).arrivals = [] ∧ (t.ctx n.val).hreads = [] ∧ (t.ctx n.val).hwrites = [] ∧
        (t.ctx n.val).linkRows = [] ∧ (t.ctx n.val).instances = [] ∧ (t.ctx n.val).kills = [] ∧
        (∀ l ∈ t.transit, l.of ≠ n.val) ∧ (∀ m, m ≠ n.val → t.ctx m = s.ctx m) ∧
        (∀ q : CellRef, q.ctx ≠ n → t.cell? q = s.cell? q) ∧
        (∀ q : CellRef, q.ctx = n → t.cell? q = (s.cell? q).map (fun c => { c with ctl := { c.ctl with live := false } }))) ∧
      (s.clock.clk < k.startClk + 24 → exec (.killReceipt n) s = .next s)) ∧
    (∀ k : Kill, x.kill = some k → x.state = .killing → k.received = true → s.unrecoverable = false →
      (k.gotClk + 704 ≤ s.clock.clk → noFencesPending s → (s.fn x.owner).events.length < 256 → ∃ t,
        exec (.killEnd n) s = .next t ∧ (t.ctx n.val).state = .failed ∧ (t.ctx n.val).error = k.code ∧
        (t.ctx n.val).kill = some { k with stopDome := s.clock.dome } ∧ (t.ctx n.val).slots = [] ∧
        (t.ctx n.val).routes = [] ∧ regionsLeft s t n.val ∧ ctxEventAdded s t n.val 2 k.code ∧
        (∀ m, m ≠ n.val → t.ctx m = s.ctx m)) ∧
      (s.clock.clk < k.gotClk + 704 → exec (.killEnd n) s = .next s)) ∧
    (∀ k : Kill, x.kill = some k → x.state = .killing → 0 < k.slowest → k.startDome ≤ s.clock.dome →
      s.unrecoverable = false →
      (10000 * k.slowest + 704000000 ≤ (s.clock.dome - k.startDome) * k.slowest → ∃ t,
        exec (.killTimer n) s = .next t ∧ t.unrecoverable = true ∧ t.cells = s.cells ∧ t.ctxs = s.ctxs ∧
        t.regions = s.regions ∧ t.transit = s.transit ∧ t.clock = s.clock) ∧
      ((s.clock.dome - k.startDome) * k.slowest < 10000 * k.slowest + 704000000 → exec (.killTimer n) s = .next s))

namespace Sys2Proof.Machine

/-- The first message that port `p` has accepted is `f`, for context `n`, which is at the end of its route and takes
messages. -/
structure AtHead (s : State) (p : Nat) (f : Flit) (rest : List Flit) (mtype : BitVec 6) (n : Nat) : Prop where
  head : (s.port p).rx = f :: rest
  kind : f.mtype = mtype
  tag : s.tagged f.ctx = some n
  here : f.hop = 0
  up : s.unrecoverable = false
  takes : (s.ctx n).state = .loaded ∨ (s.ctx n).state = .armed ∨ (s.ctx n).state = .running

/-- A module of the node that the group includes (Table 13.12). -/
def inGroup (x : Ctx) (k : Nat) : Prop := k < 8 ∧ x.image.nodeMask / 2 ^ k % 2 = 1

/-- The node agrees that it is quiet: two rounds of every module say so, and the counts of loose messages match (R260). -/
def nodeQuiet (x : Ctx) : Prop :=
  ∀ k, inGroup x k → ∃ r, x.quiet.rounds.find? (fun r => decide (r.pos = k)) = some r ∧ r.quiet = true ∧ r.before = true ∧
    ∀ j, inGroup x j → j ≠ k → ∃ o, x.quiet.rounds.find? (fun r => decide (r.pos = j)) = some o ∧
      r.sent.getD j 0 = o.received.getD k 0

end Sys2Proof.Machine

/-- A quiet context is found after QUIET_CC cycles, judged alone or by the summaries of its node, and dumped after
DUMP_MS beyond a node (10 Deadlock detection and dumps, Table 11.7). Derived. -/
def Obligations.QuietContextsAreFoundAndDumped : Prop :=
  (∀ (n : Fin 32) (s : State),
    let x := s.ctx n.val
    let now : Quiet := { x.quiet with quiet := true, since := s.clock.dome, dumped := false }
    (s.lantern.od.quietCc ≤ x.quiet.run → x.quiet.quiet = false → x.image.group = 0 → 0 ∉ x.dumps →
      ∃ t, exec (.quietDetected n) s = .next t ∧ CtxBecomes s t n.val { x with quiet := now, dumps := x.dumps ++ [0] }) ∧
    (s.lantern.od.quietCc ≤ x.quiet.run → x.quiet.quiet = false → x.image.group ≠ 0 →
      ∃ t, exec (.quietDetected n) s = .next t ∧ CtxBecomes s t n.val { x with quiet := now }) ∧
    (x.quiet.run < s.lantern.od.quietCc → ∃ t, exec (.quietDetected n) s = .next t ∧ CtxBecomes s t n.val x) ∧
    (x.state = .running → x.image.group = 2 → x.quiet.quiet = true → x.quiet.dumped = false →
      (x.quiet.since + 1000000 * s.lantern.od.dumpMs ≤ s.clock.dome → ∃ t, exec (.quietDump n) s = .next t ∧
        CtxBecomes s t n.val { x with quiet := { x.quiet with dumped := true }, dumps := x.dumps ++ [1] }) ∧
      (s.clock.dome < x.quiet.since + 1000000 * s.lantern.od.dumpMs → ∃ t, exec (.quietDump n) s = .next t ∧
        CtxBecomes s t n.val x)) ∧
    (x.state = .running → x.image.group = 1 → x.quiet.lastRound + s.lantern.od.summaryNs ≤ s.clock.dome →
      let own := s.ownAddress % 8
      ∃ t, exec (.summaryTimer n) s = .next t ∧ (t.ctx n.val).quiet.lastRound = s.clock.dome ∧
        (∃ (r : Summary), (t.ctx n.val).quiet.rounds.getLast? = some r ∧ r.pos = own ∧ r.quiet = x.quiet.quiet ∧
          ∀ k, k < 8 → r.sent[k]? = some (if k = own then 0 else Mem.rd 0 x.quiet.sent ((k + 7 - own) % 8)) ∧
            r.received[k]? = some (if k = own then 0 else Mem.rd 0 x.quiet.received ((k + 7 - own) % 8))) ∧
        (∀ k, inGroup x k → k ≠ own → ∃ (f : Flit), t.port ((k + 15 - own) % 8) =
            enqueueLoose (s.port ((k + 15 - own) % 8)) x.image.tag [f] ∧ f.mtype = 0x0B ∧ fld f.payload 15 0 = x.image.tag.toNat ∧
            f.payload.getLsbD 16 = x.quiet.quiet) ∧
        (∀ m, m ≠ n.val → t.ctx m = s.ctx m) ∧ ∀ c, t.cell? c = s.cell? c)) ∧
  (∀ (p : Fin 16) (s : State) (f : Flit) (rest : List Flit) (n : Nat), AtHead s p.val f rest 0x0B n →
    let x := s.ctx n
    x.state = .running → x.image.group = 1 → (s.port p.val).parts = [] →
    ∃ (t : State) (r : Summary), exec (.summary p) s = .next t ∧ (t.port p.val).rx = rest ∧
      (t.ctx n).quiet.rounds = x.quiet.rounds.filter (fun o => decide (o.pos ≠ s.partnerAt p.val)) ++ [r] ∧
      r.pos = s.partnerAt p.val ∧ r.quiet = f.payload.getLsbD 16 ∧
      (r.before = true ↔ ∃ o ∈ x.quiet.rounds, o.pos = s.partnerAt p.val ∧ o.quiet = true) ∧
      (∀ k, k < 8 → r.sent[k]? = some (fld f.payload (24 + 128 * k + 63) (24 + 128 * k)) ∧
        r.received[k]? = some (fld f.payload (24 + 128 * k + 127) (24 + 128 * k + 64))) ∧
      (nodeQuiet (t.ctx n) → 0 ∉ x.dumps → (t.ctx n).dumps = x.dumps ++ [0]) ∧
      (¬ nodeQuiet (t.ctx n) → (t.ctx n).dumps = x.dumps) ∧
      (∀ m, m ≠ n → t.ctx m = s.ctx m) ∧ ∀ c, t.cell? c = s.cell? c)

/-! ### Silide links (chapter 11) -/

namespace Sys2Proof.Machine

/-- Mode `r` can be used: both ends offer it, and enough lanes are good (R273). -/
def modeUsable (q : Port) (p : Nat) (good : BitVec 2) (r : Nat) : Prop :=
  1 ≤ r ∧ r ≤ 8 ∧ (classModes (portClass p) &&& q.mask).getLsbD (r - 1) = true ∧ q.partnerWord.getLsbD (51 + r) = true ∧
  (classModes (fld q.partnerWord 46 45)).getLsbD (r - 1) = true ∧ modeLanes r ≤ (good.getLsbD 0).toNat + (good.getLsbD 1).toNat

/-- The mode of lowest rank that can be used. -/
def modeBest (q : Port) (p : Nat) (good : BitVec 2) (r : Nat) : Prop :=
  modeUsable q p good r ∧ ∀ k, modeUsable q p good k → r ≤ k

/-- The partner is another one than OD 0x4000.02 expects (R408). -/
def wrongPartner (s : State) (q : Port) (p : Nat) : Prop :=
  let e : Word := Mem.rd 0xFFFFFFFF s.lantern.od.expect p
  e ≠ 0xFFFFFFFF ∧ (fld q.partnerWord 44 27 ≠ fld e 22 5 ∨ fld q.partnerWord 51 47 ≠ fld e 4 0)

end Sys2Proof.Machine

/-- A port passes DETECT, CAPABILITY, SELECT, TRAIN and ALIGN to ACTIVE by Table 11.2, retrains, and goes DOWN on
failure or timeout (11 Negotiation, Table 11.2, 11 Port failure). Derived. DOWN after the fourth failed round, and the
way back from a RETRAIN that has found a lane failed, are the model's reading (log entry 54). -/
def Obligations.PortsNegotiateRetrainAndGoDown : Prop :=
  ∀ (p : Fin 16) (s : State),
    let q := s.port p.val
    (∀ lanes : BitVec 2, q.state = .detect → lanes ≠ 0 → ∃ t w, exec (.signalDetect p lanes) s = .next t ∧
      t.port p.val = { q with state := .capability, good := lanes, wordAt := s.clock.clk } ∧
      t.out = s.out ++ [.capability p.val w (wordCrc w)] ∧ w.getLsbD 22 = decide (s.clock.refState = 1) ∧
      fld w 59 52 = (classModes (portClass p.val) &&& q.mask).toNat ∧ fld w 51 47 = p.val ∧ fld w 46 45 = portClass p.val ∧
      fld w 44 27 = s.ownAddress ∧ (∀ r, r ≠ p.val → t.port r = s.port r) ∧ { t with ports := s.ports, out := s.out } = s) ∧
    (∀ (w : DWord) (crc : Word) (k : Nat), q.state = .capability →
      (8 ≤ k → crc = wordCrc w → fld w 46 45 = portClass p.val → ∃ t, exec (.capabilityAccept p w crc k) s = .next t ∧
        PortBecomes s t p.val { q with state := .select, partnerWord := w, partnerLocked := w.getLsbD 22, partnerRole := none }) ∧
      (k < 8 ∨ crc ≠ wordCrc w ∨ fld w 46 45 ≠ portClass p.val →
        ∃ t, exec (.capabilityAccept p w crc k) s = .next t ∧ PortBecomes s t p.val q)) ∧
    (∀ (m : BitVec 4) (pl : BitVec 2), q.state = .select →
      let good := q.good &&& pl
      (∀ r, modeBest q p.val good r → r = m.toNat → ∃ t, exec (.modeSelect p m pl) s = .next t ∧ t.port p.val =
        { q with state := .train, mode := r, lanes := if modeLanes r = 2 then 3 else if good.getLsbD 0 then 1 else 2 } ∧
        t.out = s.out ++ [.candidate p.val r]) ∧
      (∀ r, modeBest q p.val good r → r ≠ m.toNat → ∃ t, exec (.modeSelect p m pl) s = .next t ∧ t.port p.val =
        { q with state := .capability, wordAt := s.clock.clk } ∧
        ∃ w, t.out = s.out ++ [.candidate p.val r, .capability p.val w (wordCrc w)]) ∧
      ((∀ r, ¬ modeUsable q p.val good r) → ∃ t, exec (.modeSelect p m pl) s = .next t ∧ (t.port p.val).state = .down)) ∧
    (∀ (a b inv pass : BitVec 2) (e : Fin 2 → Nat), q.state = .train →
      (∀ k : Fin 2, a.getLsbD k.val = true ↔ e k ≤ if q.mode = 1 ∨ q.mode = 3 then 4800000 else 240000) →
      let failed := q.lanes &&& ~~~ (a &&& pass)
      let round := Instr.trainRound p (e 0) (e 1) inv pass
      (failed = 0 → ∃ t, exec round s = .next t ∧
        PortBecomes s t p.val { q with state := .align, rounds := q.rounds + 1, polarity := inv }) ∧
      (failed ≠ 0 → q.rounds + 1 < 4 → ∃ t, exec round s = .next t ∧ PortBecomes s t p.val
        { q with state := .select, good := q.good &&& ~~~ failed, rounds := q.rounds + 1, polarity := inv }) ∧
      (failed ≠ 0 → 4 ≤ q.rounds + 1 → ∃ t, exec round s = .next t ∧ (t.port p.val).state = .down)) ∧
    (∀ rtt : BitVec 16,
      (q.state = .align → q.retraining = none → q.kept = false → (s.clock.stage < 9 ∨ q.compared = true ∨ ¬ wrongPartner s q p.val) → q.mode = 1 ∨ q.mode = 2 →
        ∃ t u, exec (.alignDone p rtt) s = .next t ∧ PortBecomes s t p.val u ∧ u.state = .active ∧ u.mode = q.mode ∧
          u.rtt = rtt ∧ u.len = (if p.val ≤ 6 then 0 else BitVec.ofNat 16 (rtt.toNat - Config.factoryRtt p.val)) ∧ u.txSeq = 0 ∧ u.rxNext = 0 ∧ u.replay = [] ∧ u.rx = [] ∧
          u.credSched = 0 ∧ u.credLoose = 0 ∧ u.retSched = 2048 - q.landing ∧ u.retLoose = 512 ∧
          u.compared = (q.compared || decide (9 ≤ s.clock.stage)) ∧ u.lastHeader = s.clock.ns) ∧
      (∀ since, q.state = .retrain → q.retraining = some (q.mode, since) → q.kept = true → (s.clock.stage < 9 ∨ q.compared = true ∨ ¬ wrongPartner s q p.val) →
        q.mode = 1 ∨ q.mode = 2 → ∃ t u, exec (.alignDone p rtt) s = .next t ∧ PortBecomes s t p.val u ∧ u.state = .active ∧
          u.retraining = none ∧ u.sendNak = true ∧ u.resends = [] ∧ u.replay = q.replay ∧ u.txSeq = q.txSeq ∧ u.rxNext = q.rxNext) ∧
      (q.state = .align → 9 ≤ s.clock.stage → q.compared = false → wrongPartner s q p.val → ∃ t, exec (.alignDone p rtt) s = .next t ∧
        (t.port p.val).state = .down ∧ (t.port p.val).mismatched = true)) ∧
    (q.state = .detect ∨ q.state = .capability ∨ q.state = .select ∨ q.state = .train ∨ q.state = .align →
      ∃ t, exec (.negotiationTimeout p) s = .next t ∧ (t.port p.val).state = .down) ∧
    (q.state = .down → q.mismatched = false → classModes (portClass p.val) &&& Mem.rd 0xFF s.lantern.od.modeMask p.val ≠ 0 →
      ∃ t, exec (.downWait p) s = .next t ∧ PortBecomes s t p.val { q with
        mask := Mem.rd 0xFF s.lantern.od.modeMask p.val, state := .detect, good := 3, rounds := 0, mode := 0, lanes := 0
        kept := false, retraining := none }) ∧
    (q.state = .down → q.mismatched = true → exec (.downWait p) s = .next s) ∧
    (∀ fecLost : Bool, q.state = .active →
      (fecLost = true ∨ (∃ e ∈ q.resends, 16 ≤ e.2) → ∃ t, exec (.retrain p fecLost) s = .next t ∧ PortBecomes s t p.val { q with
        state := .retrain, retrained := true, retrains := satInc 0xFFFF q.retrains
        retraining := some (q.retraining.getD (q.mode, s.clock.ns)), kept := true }) ∧
      (fecLost = false → (∀ e ∈ q.resends, e.2 < 16) → ∃ t, exec (.retrain p fecLost) s = .next t ∧ PortBecomes s t p.val q)) ∧
    (∀ m since, q.retraining = some (m, since) →
      (since + 1000000 * s.lantern.od.retrainMs ≤ s.clock.ns → ∃ t, exec (.retrainTimeout p) s = .next t ∧
        (t.port p.val).retraining = none ∧ ∀ n, s.unrecoverable = false → usesPort (s.ctx n) p.val = true → killable (s.ctx n) = true →
          (t.ctx n).state = .killing ∧ ∃ k, (t.ctx n).kill = some k ∧ k.code = 0x0031 ∧ k.source = 6) ∧
      (s.clock.ns < since + 1000000 * s.lantern.od.retrainMs → exec (.retrainTimeout p) s = .next s))

namespace Sys2Proof.Machine

/-- Flit `f` has left port `p` with its CRC. Once 514 symbols stand, the symbols of their codeword go round the lanes in use;
in a concatenated mode whole blocks of the inner code leave the lanes with their parity (R270, R271, R278). -/
def Left (s t : State) (p : Nat) (f : Flit) : Prop :=
  let q := s.port p
  let syms := q.fecIn ++ flitSymbols (flitBits f)
  let word := rsCodeword (syms.take 514)
  let lanes := [0, 1].filter q.lanes.getLsbD
  let out := s.out ++ [.flit p f (flitCrc ((flitBody f).setWidth 2240))]
  (syms.length < 514 → t.out = out) ∧
  (514 ≤ syms.length → q.mode ≠ 1 → q.mode ≠ 3 → t.out = out ++ lanes.zipIdx.map (fun e =>
    .symbols p e.1 ((word.zipIdx.filter (fun c => decide (c.2 % lanes.length = e.2))).map (·.1)))) ∧
  (514 ≤ syms.length → q.mode = 1 ∨ q.mode = 3 → ∃ l, t.out = out ++ l ∧ ∀ o ∈ l, ∃ lane d, o = .inner p lane d (innerParity d))

/-- No SSTOP with NOW = 1 takes effect on a cell in this cycle (R178). -/
def noStopNow (s : State) (c : CellRef) : Prop :=
  ∀ cell, s.cell? c = some cell → ∀ e ∈ cell.strm.ends, e.1 ≤ cell.now → e.2.2 = false

end Sys2Proof.Machine

/-- Flits are accepted in order, acknowledged, refused with one NAK, resent from the first unacknowledged one; slot
cycles fill the scheduled queue (11 Flits and retry, 11 Classes, credits and order, 11 Scheduled slot frames, Table
11.4, R270). Derived. That credits of a discarded flit are ignored, which class is returned first, and the round robin
of the loose queues are the model's reading (log entry 53); the order of bits, symbols and parity in the code is
presumed (log entry 93). -/
def Obligations.FlitsAreSentAcknowledgedAndResent : Prop :=
  ∀ (p : Fin 16) (s : State),
    let q := s.port p.val
    (q.state = .active → ∀ (w : Wire) (frac : BitVec 6),
      let f := flitOf (wireBits w)
      let got := fun (t : State) => exec (.flitReceive p w frac) s = .next t
      let good := fun (b : Bool) => decide ((wireBits w).extractLsb' 2208 32 = flitCrc (wireBits w)) = b
      (good true → f.cls = 0 → f.mtype = 0 → ∃ t, got t ∧ PortBecomes s t p.val (readHeader q f)) ∧
      (good false → q.nakSent = false → ∃ t, got t ∧ PortBecomes s t p.val { q with
        crcErr := satInc 0xFFFF q.crcErr, nakSent := true, sendNak := true, nakAt := s.clock.ns }) ∧
      (good true → f.cls ≠ 0 → f.seq ≠ q.rxNext → q.nakSent = false → ∃ t, got t ∧
        PortBecomes s t p.val { q with nakSent := true, sendNak := true, nakAt := s.clock.ns }) ∧
      (good true → f.cls ≠ 0 → f.seq = q.rxNext → takesFlit s p.val f = true → ∃ (t : State) (u : Port), got t ∧
        t.port p.val = u ∧ u.rxNext = q.rxNext + 1 ∧ u.nakSent = false ∧ u.rx = q.rx ++ [f] ∧
        u.landing = q.landing + (if f.cls = 2 then 1 else 0) ∧ u.looseBuf = q.looseBuf + (if f.cls = 3 then 1 else 0) ∧
        u.replay = (readHeader q f).replay ∧ u.credSched = (readHeader q f).credSched ∧ u.state = .active ∧
        u.stamps = q.stamps ++ (if f.mtype = 0x10 then [(64 * s.clock.dome + frac.toNat) % 2 ^ 64] else []) ∧
        (∀ r, r ≠ p.val → t.port r = s.port r) ∧ { t with ports := s.ports, ctxs := s.ctxs } = s) ∧
      (good true → f.cls ≠ 0 → f.seq = q.rxNext → takesFlit s p.val f = false → ∃ (t : State) (u : Port), got t ∧
        PortBecomes s t p.val u ∧ u.rxNext = q.rxNext + 1 ∧ u.rx = q.rx ∧ u.discard = satInc 0xFFFF q.discard ∧
        u.landing = q.landing ∧ u.looseBuf = q.looseBuf) ∧
      (good true → f.cls = 0 → f.mtype = 0 → ∃ t, exec (.idle p w) s = .next t ∧ PortBecomes s t p.val (readHeader q f))) ∧
    (∀ (f : Flit) (pre post : List Flit) (g : Flit), q.replay = pre ++ g :: post → g.seq = f.ackseq →
      (∀ h ∈ pre, h.seq ≠ f.ackseq) → (readHeader q f).replay = post ∧
        ∀ e, e ∈ (readHeader q f).resends ↔ e ∈ q.resends ∧ ∃ h ∈ post, h.seq.toNat = e.1) ∧
    (∀ f : Flit, (readHeader q f).credSched = q.credSched + (if f.crclass then 0 else f.credit.toNat) ∧
      (readHeader q f).credLoose = q.credLoose + (if f.crclass then f.credit.toNat else 0) ∧
      (readHeader q f).naked = (q.naked || f.nak)) ∧
    (∀ g rest, q.naked = true → q.replay = g :: rest → ∃ t, exec (.nakResend p) s = .next t ∧ PortBecomes s t p.val { q with
      naked := false, resend := some g.seq, retries := satInc 0xFFFF q.retries }) ∧
    (q.nakSent = true →
      (q.nakAt + 300 ≤ s.clock.ns → ∃ t, exec (.nakRepeat p) s = .next t ∧
        PortBecomes s t p.val { q with sendNak := true, nakAt := s.clock.ns }) ∧
      (s.clock.ns < q.nakAt + 300 → ∃ t, exec (.nakRepeat p) s = .next t ∧ PortBecomes s t p.val q)) ∧
    (q.state = .active → q.lastHeader + 64 ≤ s.clock.ns → ∃ (t : State) (u : Port) (f : Flit),
      exec (.headerTimer p) s = .next t ∧ t.port p.val = u ∧ Left s t p.val f ∧ f.cls = 0 ∧ f.mtype = 0 ∧
      f.ackseq = q.rxNext - 1 ∧ f.nak = q.sendNak ∧
      u.sendNak = false ∧ u.lastHeader = s.clock.ns ∧ u.replay = q.replay ∧ u.txSeq = q.txSeq ∧
      (if f.crclass then u.retLoose + f.credit.toNat = q.retLoose ∧ u.retSched = q.retSched
       else u.retSched + f.credit.toNat = q.retSched ∧ u.retLoose = q.retLoose)) ∧
    (∀ frac : BitVec 6, q.state = .active → s.unrecoverable = false →
      let sent := fun (t : State) (u : Port) (g : Flit) =>
        exec (.flitTransmit p frac) s = .next t ∧ t.port p.val = u ∧ Left s t p.val g
      (∀ f rest k, q.resend = none → q.replay.length < 1024 → q.sched = f :: rest → q.credSched = k + 1 → f.mtype ≠ 0x10 →
        ∃ (t : State) (u : Port) (g : Flit), sent t u g ∧ g.seq = q.txSeq ∧
          g.mtype = f.mtype ∧ g.payload = f.payload ∧ g.arg = f.arg ∧ g.ackseq = q.rxNext - 1 ∧ u.txSeq = q.txSeq + 1 ∧
          u.replay = q.replay ++ [g] ∧ u.sched = rest ∧ u.credSched = k ∧ u.ctrl = q.ctrl ∧ u.loose = q.loose) ∧
      (∀ f rest, q.resend = none → q.replay.length < 1024 → q.sched = [] → q.ctrl = f :: rest → f.mtype ≠ 0x10 →
        ∃ (t : State) (u : Port) (g : Flit), sent t u g ∧ g.seq = q.txSeq ∧ g.mtype = f.mtype ∧ g.payload = f.payload ∧
          u.txSeq = q.txSeq + 1 ∧ u.replay = q.replay ++ [g] ∧ u.ctrl = rest ∧ u.loose = q.loose) ∧
      (∀ r g, q.resend = some r → q.replay.find? (fun f => decide (f.seq = r)) = some g →
        ∃ (t : State) (u : Port) (o : Flit), sent t u o ∧ o.seq = r ∧
          o.payload = g.payload ∧ o.mtype = g.mtype ∧ o.credit = g.credit ∧ u.retSched = q.retSched ∧ u.retLoose = q.retLoose ∧
          Mem.rd 0 u.resends r.toNat = Mem.rd 0 q.resends r.toNat + 1 ∧
          u.replay = q.replay ∧ u.txSeq = q.txSeq ∧ u.sched = q.sched)) ∧
    (∀ n : Fin 32,
      let x := s.ctx n.val
      let e := Mem.rd ({} : SlotEntry) x.slots (32 * p.val + x.cc % 320 / 10)
      let key := 32 * n.val + x.cc % 320 / 10
      running s x = true → x.cc % 10 = 0 → e.kind = 1 → noStopNow s ⟨n, e.cell⟩ → x.linkRows = [] → x.vacs = [] →
      ∃ (t : State) (f : Flit), exec (.slotCycleSend p n) s = .next t ∧ f.mtype = 0x01 ∧
        f.cls = 2 ∧ f.route = BitVec.ofNat 8 e.route ∧ f.arg = 0 ∧
        f.due.toNat = (x.cc + (match Mem.find x.routes e.route with | some r => r.lat | none => 0)) % 2 ^ 22 ∧
        (q.reached.1 ≠ s.clock.clk → t.port p.val = { q with sched := q.sched ++ [f], reached := (s.clock.clk, [key]) }) ∧
        (∀ pre o k, q.reached = (s.clock.clk, [k]) → q.sched = pre ++ [o] →
          (t.port p.val).sched = pre ++ (if key < k then [f, o] else [o, f]))) ∧
    (∀ (n : Fin 32) (v : VacArrival),
      let x := s.ctx n.val
      let e := Mem.rd ({} : SlotEntry) x.slots (32 * p.val + x.cc % 320 / 10)
      running s x = true → x.cc % 10 = 0 → e.kind = 1 → noStopNow s ⟨n, e.cell⟩ → x.linkRows = [] → x.vacs = [v] →
      v.route = e.route → v.cell = e.cell → v.after ≤ x.cc → q.reached.1 ≠ s.clock.clk →
      ∃ (t : State) (f : Flit), exec (.slotCycleSend p n) s = .next t ∧ (t.port p.val).sched = q.sched ++ [f] ∧
        (t.ctx n.val).vacs = [] ∧ f.mtype = 0x01 ∧ f.arg.getLsbD 6 = true ∧ fld f.arg 5 0 = v.sig.toNat ∧
        fld f.arg 31 18 = v.dest.toNat ∧ fld f.arg 63 32 = v.bytes % 2 ^ 32) ∧
    (∀ (n : Fin 32) (l : LinkRow),
      let x := s.ctx n.val
      let e := Mem.rd ({} : SlotEntry) x.slots (32 * p.val + x.cc % 320 / 10)
      running s x = true → x.cc % 10 = 0 → e.kind = 1 → noStopNow s ⟨n, e.cell⟩ → x.linkRows = [l] → l.cycle = x.cc → l.route = e.route → l.cell = e.cell →
      q.reached.1 ≠ s.clock.clk →
      ∃ (t : State) (f : Flit) (g : Flit), exec (.slotCycleSend p n) s = .next t ∧ (t.port p.val).sched = q.sched ++ [f, g] ∧
        (t.ctx n.val).linkRows = [] ∧ f.mtype = l.mtype ∧ g.mtype = l.mtype ∧ f.arg = l.arg0 ∧ g.arg = l.arg1 ∧
        g.payload ++ f.payload = l.data)

/-! ### Messages (chapters 10, 11 and 12) -/

namespace Sys2Proof.Machine

/-- A cell of context number `n`. -/
def cellIn (n : Nat) (id : CellId) : CellRef := ⟨Fin.ofNat 32 n, id⟩

/-- The item at index `i` of what travels on the module has left it, and `t` keeps the rest of it in order. -/
def takenFrom (s t : State) (i : Nat) : Prop := t.transit = s.transit.eraseIdx i

/-- A cell receives something; every other cell and every context is unchanged. -/
def cellGains (s t : State) (c : CellRef) (f : Cell → Cell) : Prop :=
  t.cell? c = (s.cell? c).map f ∧ (∀ d, d ≠ c → t.cell? d = s.cell? d) ∧ ∀ m, t.ctx m = s.ctx m

def gainsRow (r : LooseRow) (cell : Cell) : Cell :=
  { cell with sync := { cell.sync with looseRows := cell.sync.looseRows ++ [r] } }

def gainsMessage (m : StagedMsg) (cell : Cell) : Cell :=
  { cell with sync := { cell.sync with received := cell.sync.received ++ [m] } }

/-- The result `res` of the send `r` returns to the cell that holds it (R249, R250). -/
def gainsResult (r : SendRec) (res : BitVec 2) (cell : Cell) : Cell :=
  let v := cell.sync
  { cell with sync := { v with
      sends := v.sends.map (fun q => if q.seq = r.seq then { q with result := some res } else q)
      nackrun := if res = 0 then 0 else if res = 3 then v.nackrun else satInc 255 v.nackrun
      acked := if res = 0 then satInc 0x7FFF v.acked else v.acked
      lastNack := if res = 1 ∨ res = 2 then some r.target else v.lastNack } }

/-- The port after a loose message of `k` flits has been taken from it: their credits are returned (R283). -/
def looseTaken (q : Port) (rest : List Flit) (k : Nat) : Port :=
  { q with rx := rest, parts := [], looseBuf := q.looseBuf - k, retLoose := q.retLoose + k }

/-- A queue message or a contribution has arrived whole with `f`: the flits before it stand in the port in order, its flits are
as many as its rows take, and RET of each is 0 or a route (Table 11.7, R437). -/
structure WholeMsg (s : State) (p : Nat) (f : Flit) (rest : List Flit) (mtype : BitVec 6) (n : Nat) (ps : List Flit) : Prop where
  head : AtHead s p f rest mtype n
  parts : (s.port p).parts = ps
  same : ∀ g ∈ ps, g.mtype = f.mtype ∧ g.ctx = f.ctx ∧ g.hop = 0
  ret : ∀ g ∈ ps ++ [f], g.due.toNat < 16384 ∨ ∃ r, Mem.find (s.ctx n).routes (g.due.toNat / 16384) = some r
  index : fld f.arg 16 12 = ps.length
  last : ps.length = 2 * fld f.arg 11 8 + 1

/-- The half-rows of the flits, two for a row, in order (Table 11.7). -/
def rowsAre (l : List Flit) (rows : List Row) : Prop :=
  2 * rows.length = l.length ∧
  ∀ i a b, l[2 * i]? = some a → l[2 * i + 1]? = some b → rows[i]? = some (b.payload ++ a.payload)

/-- The types of loose messages, with the commands that take them from port `p`. -/
def looseForms (p : Fin 16) : List (BitVec 6 × Instr) :=
  [(0x03, .rowLoose (.port p)), (0x04, .signal (.port p)), (0x05, .qmsg (.port p)), (0x06, .qresult (.port p)),
   (0x07, .contrib (.port p)), (0x08, .barArrive p), (0x09, .barRelease p), (0x0B, .summary p)]

/-- `f` is the last flit of a loose message of which `ps` have arrived (Table 11.7). -/
def lastOf (f : Flit) (ps : List Flit) : Prop :=
  if f.mtype = 0x03 then f.arg.getLsbD 7 = true ∧ ps.length = 1
  else if f.mtype = 0x05 ∨ f.mtype = 0x07 then fld f.arg 16 12 = ps.length ∧ ps.length = 2 * fld f.arg 11 8 + 1
  else ps = []

/-- The first flit that port `p` has accepted is `f`, of context `n`, with hops to travel, and not a row beyond the last one. -/
structure Passing (s : State) (p : Nat) (f : Flit) (rest : List Flit) (n : Nat) : Prop where
  head : (s.port p).rx = f :: rest
  tag : s.tagged f.ctx = some n
  far : f.hop ≠ 0
  up : s.unrecoverable = false
  alive : (s.ctx n).state = .loaded ∨ (s.ctx n).state = .armed ∨ (s.ctx n).state = .running ∨ (s.ctx n).state = .done
  row : f.mtype = 0x02 ∨ f.mtype = 0x03 → fld f.arg 17 8 < 640

/-- The part of the module holds the flit's route with HOPS equal to its HOP, and the first of its ports is `out` (R291). -/
def goesOut (s : State) (n : Nat) (f : Flit) (out : Nat) : Prop :=
  ∃ r, Mem.find (s.ctx n).routes f.route.toNat = some r ∧ r.hops = f.hop.toNat ∧ r.ports.head? = some out

/-- A flit after one hop. -/
def hopped (f : Flit) : Flit := { f with hop := f.hop - 1 }

/-- A flit is reported as LINK_PLAN with its route and port (R437, Table 14.11). -/
def planReported (s t : State) (n p : Nat) (f : Flit) : Prop :=
  ∃ e : ErrRec, (t.ctx n).kills = (s.ctx n).kills ++ [{
    source := 2, err := e, since := s.clock.clk, sched := (s.ctx n).cc }] ∧ e.code = 0x0030 ∧ e.detail = 16 * f.route.toNat + p

/-- The receive stage of a cell has room for `k` rows (R251). -/
def stageFits (cell : Cell) (k : Nat) : Prop := stagedRows cell + k ≤ 32

/-- A contribution has reached the combining stage of a region (R255). -/
def contribStaged (s t : State) (n region : Nat) (m : StagedContrib) : Prop :=
  t.comb n region = { s.comb n region with stage := (s.comb n region).stage ++ [m] } ∧ (∀ c, t.cell? c = s.cell? c) ∧
  ∀ k, k ≠ n → t.ctx k = s.ctx k

end Sys2Proof.Machine

/-- Loose messages reach the cell or region they name, from the module itself or over a port, whose credits they
return, or go on to their next hop (10 Sending, 10 Acceptance, Table 11.7, 07 Loose streams, R258, R291, R437).
Derived. What moves in a hold for OVERRUN alone, the bytes that a ROW_LOOSE row with 64 zero bytes adds (a free
value), and which flits LINK_PLAN is judged on are the model's choices (log entries 24, 56, 57). -/
def Obligations.LooseMessagesReachTheirCell : Prop :=
  (∀ (i : Nat) (s : State),
    (∀ n id r, s.transit[i]? = some (.row n id r) → ∃ t, exec (.rowLoose (.onModule i)) s = .next t ∧ takenFrom s t i ∧
      cellGains s t (cellIn n id) (gainsRow r)) ∧
    (∀ n id k bytes, s.transit[i]? = some (.signal n id k bytes) → ∃ t, exec (.signal (.onModule i)) s = .next t ∧
      takenFrom s t i ∧ (t.ctx n).arrivals = (s.ctx n).arrivals ++ [{
        due := 0, own := true, cell := id, sig := k, n := 1, bytes := bytes }] ∧ (∀ c, t.cell? c = s.cell? c) ∧
      ∀ m, m ≠ n → t.ctx m = s.ctx m) ∧
    (∀ n id m cell, s.transit[i]? = some (.qmsg n id m) → s.cell? (cellIn n id) = some cell →
      (∀ l ∈ s.transit.take i, channelOf l ≠ channelOf (.qmsg n id m)) →
      (stageFits cell m.rows.length → ∃ t, exec (.qmsg (.onModule i)) s = .next t ∧ takenFrom s t i ∧
        cellGains s t (cellIn n id) (gainsMessage m)) ∧
      (∀ a b k, ¬ stageFits cell m.rows.length → m.reply = .cell a b k → ∃ t, exec (.qmsg (.onModule i)) s = .next t ∧
        t.transit = s.transit.eraseIdx i ++ [.result m.reply 1] ∧ (∀ c, t.cell? c = s.cell? c) ∧ ∀ k, t.ctx k = s.ctx k)) ∧
    (∀ n id seq res cell r, s.transit[i]? = some (.result (.cell n id seq) res) → s.cell? (cellIn n id) = some cell →
      cell.sync.sends.find? (fun q => decide (q.seq = seq)) = some r → r.result = none →
      let oldest := (cell.sync.sends.find? (fun q => decide (q.target = r.target) && q.result.isNone)).map (·.seq)
      (loosePaused (s.ctx n) = false → oldest = some seq → ∃ t, exec (.qresult (.onModule i)) s = .next t ∧ takenFrom s t i ∧
        cellGains s t (cellIn n id) (gainsResult r res)) ∧
      (loosePaused (s.ctx n) = true ∨ oldest ≠ some seq → exec (.qresult (.onModule i)) s = .next s)) ∧
    (∀ n region q src rows reply, s.transit[i]? = some (.contrib n region q src rows reply) →
      (∀ l ∈ s.transit.take i, channelOf l ≠ channelOf (.contrib n region q src rows reply)) →
      region < (s.ctx n).regions.length →
      ((s.comb n region).stage.map (fun m => m.rows.length)).sum + rows.length ≤ 64 →
      ∃ t, exec (.contrib (.onModule i)) s = .next t ∧ takenFrom s t i ∧ contribStaged s t n region
        { q := q, src := src, rows := rows, reply := reply })) ∧
  (∀ (p : Fin 16) (s : State) (f : Flit) (rest : List Flit) (n : Nat) (id : CellId), f.cls = 3 →
    cellExists (s.ctx n).regions.length id = true →
    let q := s.port p.val
    (∀ a : Flit, AtHead s p.val f rest 0x03 n → q.parts = [a] → a.mtype = 0x03 → a.ctx = f.ctx → a.hop = 0 → f.arg.getLsbD 7 = true →
      fld a.arg 31 18 = id.toNat → fld a.arg 17 8 < 640 → fld f.arg 31 18 = id.toNat → fld f.arg 17 8 < 640 → 
      let v : Row := f.payload ++ a.payload
      ∃ t, exec (.rowLoose (.port p)) s = .next t ∧ cellGains s t (cellIn n id) (gainsRow
        { row := fld a.arg 17 8, data := v
          sig := if a.arg.getLsbD 6 then some (BitVec.ofNat 6 (fld a.arg 5 0)) else none
          bytes := if ∀ k, k < 8 → v.extractLsb' (512 * k) 512 ≠ 0 then 512 else 64 * (1 + (Config.freeValue s.free).toNat % 8)
          reply := .none }) ∧
        t.port p.val = looseTaken q rest 2 ∧ ∀ o, o ≠ p.val → t.port o = s.port o) ∧
    (AtHead s p.val f rest 0x03 n → f.arg.getLsbD 7 = false → fld f.arg 31 18 = id.toNat → fld f.arg 17 8 < 640 → ∃ t, exec (.rowLoose (.port p)) s = .next t ∧
      (q.parts = [] → PortBecomes s t p.val { q with rx := rest, parts := [f] }) ∧
      (∀ a : Flit, q.parts = [a] → a.cls = 3 → PortBecomes s t p.val
        { q with rx := rest, parts := [f], looseBuf := q.looseBuf - 1, retLoose := q.retLoose + 1 })) ∧
    (AtHead s p.val f rest 0x04 n → q.parts = [] → fld f.arg 31 18 = id.toNat → ∃ t, exec (.signal (.port p)) s = .next t ∧
      (t.ctx n).arrivals = (s.ctx n).arrivals ++ [{ due := 0, own := true, cell := id, sig := BitVec.ofNat 6 (fld f.arg 5 0)
                                                    n := 1, bytes := fld f.arg 63 32 }] ∧
      t.port p.val = looseTaken q rest 1 ∧
      (∀ c, t.cell? c = s.cell? c) ∧ ∀ m, m ≠ n → t.ctx m = s.ctx m) ∧
    (∀ (a : Flit) (ps : List Flit) (cell : Cell), WholeMsg s p.val f rest 0x05 n (a :: ps) → fld a.arg 31 18 = id.toNat →
      s.cell? (cellIn n id) = some cell →
      let k := ps.length + 2
      (stageFits cell (k / 2) → ∃ (t : State) (m : StagedMsg), exec (.qmsg (.port p)) s = .next t ∧
        cellGains s t (cellIn n id) (gainsMessage m) ∧ rowsAre (a :: ps ++ [f]) m.rows ∧ m.q = a.arg.getLsbD 17 ∧
        m.tag.toNat = fld a.arg 63 48 ∧ m.src = ⟨a.route, a.arg.getLsbD 33, BitVec.ofNat 14 (fld a.arg 47 34)⟩ ∧
        m.accepted = false ∧
        m.reply = .link p.val (a.due.toNat / 16384) (BitVec.ofNat 14 (fld a.arg 47 34)) m.tag (fld a.arg 7 0) ∧
        t.port p.val = looseTaken q rest k ∧ ∀ o, o ≠ p.val → t.port o = s.port o) ∧
      (¬ stageFits cell (k / 2) → a.due.toNat < 16384 → ∃ (t : State) (g : Flit), exec (.qmsg (.port p)) s = .next t ∧
        t.port p.val = enqueueLoose (looseTaken q rest k) (s.ctx n).image.tag [g] ∧ g.mtype = 0x06 ∧ g.route = 0 ∧
        fld g.arg 17 16 = 1 ∧ fld g.arg 63 48 = fld a.arg 63 48 ∧ fld g.arg 31 18 = fld a.arg 47 34 ∧
        fld g.arg 7 0 = fld a.arg 7 0 ∧ (∀ o, o ≠ p.val → t.port o = s.port o) ∧ (∀ c, t.cell? c = s.cell? c) ∧
        ∀ m, t.ctx m = s.ctx m)) ∧
    (∀ (cell : Cell) (r : SendRec), AtHead s p.val f rest 0x06 n → q.parts = [] → fld f.arg 31 18 = id.toNat →
      s.cell? (cellIn n id) = some cell → loosePaused (s.ctx n) = false → cell.sync.sends = [r] → r.result = none → tRoute r.target ≠ 0 →
      (tKind r.target ≠ 2 → r.tag.toNat = fld f.arg 63 48 ∧ r.seq % 256 = fld f.arg 7 0) →
      (tKind r.target = 2 → fld f.arg 63 48 = 0 ∧ fld f.arg 7 0 = 0) →
      ∃ t, exec (.qresult (.port p)) s = .next t ∧ t.port p.val = looseTaken q rest 1 ∧ (∀ o, o ≠ p.val → t.port o = s.port o) ∧
        cellGains s t (cellIn n id) (gainsResult r (BitVec.ofNat 2 (fld f.arg 17 16)))) ∧
    (AtHead s p.val f rest 0x06 n → q.parts = [] → fld f.arg 31 18 = id.toNat → loosePaused (s.ctx n) = false →
      (∀ cell, s.cell? (cellIn n id) = some cell → ∀ r ∈ cell.sync.sends, r.result = none → tRoute r.target = 0) →
      let u := combQueue s n (regionOf id) (id.toNat % 512)
      u.pending = true → fld f.arg 63 48 = 64 * ((u.gen + 1023) % 1024) + id.toNat % 512 →
      ∃ t, exec (.qresult (.port p)) s = .next t ∧ t.port p.val = looseTaken q rest 1 ∧ (∀ o, o ≠ p.val → t.port o = s.port o) ∧
        SumAnswered s t n (regionOf id) (id.toNat % 512) (BitVec.ofNat 2 (fld f.arg 17 16))) ∧
    (∀ (a : Flit) (ps : List Flit), WholeMsg s p.val f rest 0x07 n (a :: ps) → fld a.arg 31 27 < (s.ctx n).regions.length →
      let k := ps.length + 2
      ((s.comb n (fld a.arg 31 27)).stage.map (fun m => m.rows.length)).sum + k / 2 ≤ 64 →
      ∃ (t : State) (m : StagedContrib), exec (.contrib (.port p)) s = .next t ∧ contribStaged s t n (fld a.arg 31 27) m ∧
        rowsAre (a :: ps ++ [f]) m.rows ∧ m.q = fld a.arg 26 21 ∧
        m.src = ⟨a.route, false, BitVec.ofNat 14 (fld a.arg 47 34)⟩ ∧
        m.reply = .link p.val (a.due.toNat / 16384) (BitVec.ofNat 14 (fld a.arg 47 34)) 0 0 ∧
        t.port p.val = looseTaken q rest k ∧ ∀ o, o ≠ p.val → t.port o = s.port o) ∧
    (AtHead s p.val f rest 0x04 n → q.parts = [] →
      cellExists (s.ctx n).regions.length (BitVec.ofNat 14 (fld f.arg 31 18)) = false →
      ∃ t, exec (.signal (.port p)) s = .next t ∧ planReported s t n p.val f ∧ t.port p.val = looseTaken q rest 1)) ∧
  (∀ (p : Fin 16) (s : State) (f : Flit) (rest ps : List Flit) (n : Nat), Passing s p.val f rest n → f.cls = 3 →
    (s.port p.val).parts = ps → lastOf f ps →
    (∀ g ∈ ps, g.mtype = f.mtype ∧ g.ctx = f.ctx ∧ g.hop = f.hop ∧ g.route = f.route ∧ (g.mtype = 0x03 → fld g.arg 17 8 < 640)) →
    ∀ e ∈ looseForms p, f.mtype = e.1 →
      (∀ out, goesOut s n f out → out ≠ p.val → ∃ t, exec e.2 s = .next t ∧
        t.port p.val = looseTaken (s.port p.val) rest (ps.length + 1) ∧
        t.port out = enqueueLoose (s.port out) f.ctx ((ps ++ [f]).map hopped) ∧
        (∀ o, o ≠ p.val → o ≠ out → t.port o = s.port o) ∧ { t with ports := s.ports } = s) ∧
      ((∀ out, ¬ goesOut s n f out) → ∃ t, exec e.2 s = .next t ∧ planReported s t n p.val f ∧ ∀ c, t.cell? c = s.cell? c))

namespace Sys2Proof.Machine

/-- A scheduled flit on a port belongs to an expected pair of its route, due at `due` (R288). -/
structure Due (x : Ctx) (p : Nat) (f : Flit) (e : Expect) (due : Nat) : Prop where
  only : x.expects = [e]
  port : e.port = p
  route : e.route = f.route.toNat
  low : due % 2 ^ 22 = f.due.toNat
  late : x.cc < due
  alive : x.finalCc = none
  near : due < x.cc + 2 ^ 21
  lat : e.lat ≤ due
  pair : (due - e.lat) % 320 = 10 * e.pair

/-- The port after the first accepted flit has been taken from it. -/
def popped (q : Port) (rest : List Flit) : Port := { q with rx := rest }

/-- The port after a scheduled flit has left its landing buffer (R283). -/
def landed (q : Port) (rest : List Flit) : Port := { q with rx := rest, landing := q.landing - 1, retSched := q.retSched + 1 }

/-- The types of scheduled messages, with the commands that take their flits from port `p`. -/
def schedForms (p : Fin 16) : List (BitVec 6 × Instr) := [(0x01, .vacant p), (0x02, .row p), (0x0A, .reduce p)]

/-- The control messages that travel on routes. -/
def noticeForms (p : Fin 16) : List (BitVec 6 × Instr) := [(0x11, .holdNotice p), (0x12, .releaseNotice p)]

/-- The packet that a MGMT flit carries (Table 11.7). -/
def packetOf (f : Flit) (b : List Byte) : Prop :=
  b.length = min 254 (fld f.payload 15 0) ∧ ∀ i, i < b.length → b[i]? = some (f.payload.extractLsb' (16 + 8 * i) 8)

/-- A barrier instance of a module that has heard one partner. -/
def heardFirst (x : Ctx) (f : Flit) : BarInst :=
  { b := fld f.arg 43 41, rejoin := false, scope := fld f.arg 46 44, unit := 0, gen := 0, cur := [], nxt := []
    curKey := some (fld f.arg 63 48, 0, f.arg.getLsbD 47), nxtKey := none, opened := x.cc, lastDone := none, due := []
    j := none, checked := false, heard := [fld f.payload 17 0], heardNext := [], sent := false }

end Sys2Proof.Machine

/-- VACANT, ROW, REDUCE, barrier messages, notices and management packets have their effect where they arrive, and
LINK_PLAN where nothing expects them (Table 11.7, 11 Messages, 12 Transport, 14 Starting a kill, R288, R291, R437).
Derived. Who releases a barrier beyond the module, what waits in a hold, the kill that starts at once, the bytes that
a row with zero bytes adds, and the packets of DSP0236 are the model's choices (log entries 23, 24, 47, 56, 59). -/
def Obligations.ScheduledMessagesAndNoticesArrive : Prop :=
  (∀ (p : Fin 16) (s : State) (f : Flit) (rest : List Flit) (n : Nat),
    let x := s.ctx n
    let q := s.port p.val
    (∀ e d, AtHead s p.val f rest 0x01 n → Due x p.val f e d → x.instances = [] → f.arg.getLsbD 6 = false →
      ∃ t, exec (.vacant p) s = .next t ∧ t.port p.val = popped q rest ∧ (t.ctx n).instances = [{
        port := p.val, route := f.route.toNat, due := d, mtype := 0x01, half0 := some (f.arg, 0), half1 := none }] ∧
        (t.ctx n).arrivals = x.arrivals ∧ (∀ c, t.cell? c = s.cell? c) ∧ ∀ m, m ≠ n → t.ctx m = s.ctx m) ∧
    (∀ e d, AtHead s p.val f rest 0x01 n → Due x p.val f e d → f.arg.getLsbD 6 = true →
      cellExists x.regions.length (BitVec.ofNat 14 (fld f.arg 31 18)) = true →
      ∃ t, exec (.vacant p) s = .next t ∧ t.port p.val = popped q rest ∧ (t.ctx n).arrivals = x.arrivals ++ [{
        due := d, own := false, cell := BitVec.ofNat 14 (fld f.arg 31 18), sig := BitVec.ofNat 6 (fld f.arg 5 0), n := 1
        bytes := fld f.arg 63 32 }]) ∧
    (∀ e d a, AtHead s p.val f rest 0x02 n → Due x p.val f e d → f.arg.getLsbD 7 = true → x.instances = [{
        port := p.val, route := f.route.toNat, due := d, mtype := 0x02, half0 := some a, half1 := none }] →
      cellExists x.regions.length (BitVec.ofNat 14 (fld f.arg 31 18)) = true → fld f.arg 17 8 < 640 → a.1.getLsbD 63 = false →
      ∃ (t : State) (l : Landing), exec (.row p) s = .next t ∧ t.port p.val = popped q rest ∧ (t.ctx n).landings = x.landings ++ [l] ∧
        l.cell = BitVec.ofNat 14 (fld a.1 31 18) ∧ l.row = fld a.1 17 8 ∧ l.data = rowOf a.2 f.payload ∧ l.due = d ∧ l.rank = 3 ∧
        l.own = false ∧ l.bytes = 512 ∧ l.sig = (if a.1.getLsbD 6 then some (BitVec.ofNat 6 (fld a.1 5 0)) else none) ∧
        (t.ctx n).arrivals = x.arrivals ∧ (∀ c, t.cell? c = s.cell? c)) ∧
    (∀ e d a, AtHead s p.val f rest 0x02 n → Due x p.val f e d → f.arg.getLsbD 7 = true → x.instances = [{
        port := p.val, route := f.route.toNat, due := d, mtype := 0x02, half0 := some a, half1 := none }] →
      cellExists x.regions.length (BitVec.ofNat 14 (fld f.arg 31 18)) = true → fld f.arg 17 8 < 640 → a.1.getLsbD 63 = true →
      let v := rowOf a.2 f.payload
      ∃ (t : State) (l : Landing), exec (.row p) s = .next t ∧ (t.ctx n).landings = x.landings ++ [l] ∧ l.data = v ∧ l.due = d ∧
        l.bytes = (if fld f.arg 63 32 % 512 = 0 ∨ ∀ k, k < 8 → v.extractLsb' (512 * k) 512 ≠ 0 then 512 else 64 * (1 + (Config.freeValue s.free).toNat % 8)) ∧
        (t.ctx n).arrivals = x.arrivals ++ [{ due := d, own := false, cell := BitVec.ofNat 14 (fld a.1 31 18)
                                              sig := BitVec.ofNat 6 (fld a.1 5 0), n := 1, bytes := fld f.arg 63 32 }]) ∧
    (∀ e d a, AtHead s p.val f rest 0x0A n → Due x p.val f e d → f.arg.getLsbD 19 = true → x.instances = [{
        port := p.val, route := f.route.toNat, due := d, mtype := 0x0A, half0 := some a, half1 := none }] →
      cellExists x.regions.length (BitVec.ofNat 14 (fld f.arg 43 30)) = true →
      (a.1.getLsbD 44 = true → ∃ (t : State) (l : Landing), exec (.reduce p) s = .next t ∧ (t.ctx n).landings = x.landings ++ [l] ∧
        l.cell = BitVec.ofNat 14 (fld a.1 43 30) ∧ l.row = fld a.1 29 20 ∧ l.data = rowOf a.2 f.payload ∧ l.due = d ∧
        l.bucket = some (fld a.1 47 45, BitVec.ofNat 32 (fld a.1 63 48)) ∧ l.ovf = a.1.getLsbD 17) ∧
      (a.1.getLsbD 44 = false → ∃ (t : State) (m : ExpMsg), exec (.reduce p) s = .next t ∧ (t.ctx n).exps = x.exps ++ [m] ∧ m.due = d ∧
        m.cell = BitVec.ofNat 14 (fld a.1 43 30) ∧ m.k = fld a.1 47 45 ∧ m.tag = fld a.1 63 48 ∧
        m.e = (BitVec.ofNat 16 (fld a.2 15 0)).toInt ∧ m.nan = a.2.getLsbD 18 ∧ m.pinf = a.2.getLsbD 17 ∧
        m.ninf = a.2.getLsbD 16 ∧ m.ovf = a.2.getLsbD 19)) ∧
    (AtHead s p.val f rest 0x02 n → x.expects = [] → ∃ (t : State) (e : ErrRec), exec (.row p) s = .next t ∧ (t.ctx n).landings = x.landings ∧
      (t.ctx n).kills = x.kills ++ [{ source := 2, err := e, since := s.clock.clk, sched := x.cc }] ∧ e.code = 0x0030 ∧
      (f.cls = 2 → t.port p.val = landed q rest)) ∧
    (AtHead s p.val f rest 0x06 n → q.parts = [] → cellExists x.regions.length (BitVec.ofNat 14 (fld f.arg 31 18)) = true →
      loosePaused x = true → ∃ t, exec (.qresult (.port p)) s = .next t ∧
      t.ctx n = { x with waiting := x.waiting ++ [(p.val, f)] } ∧ (f.cls = 3 → t.port p.val = looseTaken q rest 1) ∧ ∀ c, t.cell? c = s.cell? c) ∧
    (AtHead s p.val f rest 0x08 n → q.parts = [] → loosePaused x = false → x.bars = [] → fld f.arg 40 39 = 0 → ∃ t, exec (.barArrive p) s = .next t ∧
      t.ctx n = { x with bars := [heardFirst x f] } ∧ (f.cls = 3 → t.port p.val = looseTaken q rest 1) ∧ ∀ m, m ≠ n → t.ctx m = s.ctx m) ∧
    (∀ i, AtHead s p.val f rest 0x09 n → q.parts = [] → loosePaused x = false → x.bars = [i] → i.b = fld f.arg 43 41 → i.scope = fld f.arg 46 44 →
      i.rejoin = false → i.gen % 4 = fld f.arg 40 39 → i.cur ≠ [] → missing s n i = [] →
      (i.curKey.getD (0, 0, false)).2.2 = false → ∃ t, exec (.barRelease p) s = .next t ∧
      (t.ctx n).arrivals = x.arrivals ++ (releaseCells s n i).map (fun e => arriving 0 true e.1 e.2 1) ∧
      (releaseCells s n i).map (·.1) = instCells x i ∧
      (∃ (i' : BarInst), (t.ctx n).bars = [i'] ∧ i'.gen = i.gen + 1 ∧ i'.cur = i.nxt ∧ i'.nxt = [] ∧ i'.lastDone = some x.btime) ∧
      (f.cls = 3 → t.port p.val = looseTaken q rest 1) ∧
      (∀ m, m ≠ n → t.ctx m = s.ctx m) ∧ ∀ c, t.cell? c = s.cell? c) ∧
    (AtHead s p.val f rest 0x11 n → 256 * p.val + f.route.toNat ∉ x.lagging → ∃ t, exec (.holdNotice p) s = .next t ∧
      t.port p.val = popped q rest ∧ t.ctx n = { x with
        hold := { x.hold with notice := true }, lagging := x.lagging ++ [256 * p.val + f.route.toNat] } ∧
      (∀ m, m ≠ n → t.ctx m = s.ctx m) ∧ ∀ c, t.cell? c = s.cell? c) ∧
    (AtHead s p.val f rest 0x12 n → ∃ t, exec (.releaseNotice p) s = .next t ∧ PortBecomes s t p.val (popped q rest)) ∧
    (Passing s p.val f rest n → f.cls = 2 → ∀ e ∈ schedForms p, f.mtype = e.1 →
      (∀ out, goesOut s n f out → out ≠ p.val → (s.port out).reached.1 ≠ s.clock.clk → ∃ (t : State) (pair : Nat),
        exec e.2 s = .next t ∧ t.port p.val = landed q rest ∧
        t.port out = { s.port out with sched := (s.port out).sched ++ [hopped f], reached := (s.clock.clk, [32 * n + pair]) } ∧
        (∀ o, o ≠ p.val → o ≠ out → t.port o = s.port o) ∧ { t with ports := s.ports } = s) ∧
      ((∀ out, ¬ goesOut s n f out) → ∃ t, exec e.2 s = .next t ∧ planReported s t n p.val f ∧ t.port p.val = landed q rest)) ∧
    ((s.port p.val).rx = f :: rest → s.tagged f.ctx = some n → f.hop ≠ 0 → f.cls = 1 → ∀ e ∈ noticeForms p, f.mtype = e.1 →
      ∀ out, goesOut s n f out → out ≠ p.val → ∃ t, exec e.2 s = .next t ∧ t.port p.val = popped q rest ∧
        t.port out = { s.port out with ctrl := (s.port out).ctrl ++ [hopped f] } ∧
        (∀ o, o ≠ p.val → o ≠ out → t.port o = s.port o) ∧ { t with ports := s.ports } = s)) ∧
  (∀ (p : Fin 16) (s : State) (f : Flit) (rest : List Flit), (s.port p.val).rx = f :: rest → s.unrecoverable = false →
    (∀ n, f.mtype = 0x13 → s.tagged f.ctx = some n → killable (s.ctx n) = true →
      ((s.ctx n).acceptDome ≤ fld f.payload 63 0 → ∃ (t : State) (k : Kill), exec (.killNotice p) s = .next t ∧
        (t.ctx n).state = .killing ∧ (t.ctx n).kill = some k ∧ k.code = 3 ∧ k.source = 3 ∧ k.fromPort = some p.val ∧
        k.notice = fld f.payload 63 0 ∧ (∀ m, m ≠ n → t.ctx m = s.ctx m) ∧ ∀ c, t.cell? c = s.cell? c) ∧
      (fld f.payload 63 0 < (s.ctx n).acceptDome → ∃ t, exec (.killNotice p) s = .next t ∧
        PortBecomes s t p.val (popped (s.port p.val) rest))) ∧
    (f.mtype = 0x13 → s.tagged f.ctx = none → s.oldKills.length < 64 → ∃ t, exec (.killNotice p) s = .next t ∧
      t.oldKills = s.oldKills ++ [(f.ctx, fld f.payload 63 0, p.val)] ∧ (t.port p.val).rx = rest ∧ ∀ m, t.ctx m = s.ctx m) ∧
    (p = 15 → f.mtype = 0x18 → f.cls = 3 → s.pathOpen .port15 = true → ∀ b, packetOf f b →
      let l := s.lantern
      let q := s.port 15
      let u := { q with rx := rest, looseBuf := q.looseBuf - 1, retLoose := q.retLoose + 1 }
      let other := fun o : List Byte => ¬ (o.getD 2 0 = b.getD 2 0 ∧ (o.getD 3 0).toNat % 16 = (b.getD 3 0).toNat % 16)
      -- a packet of another version or for another endpoint is dropped
      (b.length < 4 ∨ (b.getD 0 0).toNat % 16 ≠ 1 ∨ (b.getD 1 0 ≠ 0 ∧ b.getD 1 0 ≠ l.eidLink) →
        ∃ t, exec (.mgmt p) s = .next t ∧ PortBecomes s t 15 u) ∧
      -- the first packet of a message that goes on is kept, in place of what its sender began under the same tag
      (4 ≤ b.length → (b.getD 0 0).toNat % 16 = 1 → b.getD 1 0 = 0 ∨ b.getD 1 0 = l.eidLink →
        (b.getD 3 0).getLsbD 7 = true → (b.getD 3 0).getLsbD 6 = false → ∃ (t : State) (kept : List (List Byte)),
        exec (.mgmt p) s = .next t ∧ t.lantern = { l with inbox := kept ++ [b] } ∧ t.port 15 = u ∧
        (∀ o, o ∈ kept ↔ o ∈ l.inbox ∧ other o) ∧ ∀ m, t.ctx m = s.ctx m)))

/-! ### Time and clocks (chapters 11 and 16) -/

namespace Sys2Proof.Machine

/-- A control flit that belongs to no context goes to the end of a port's control queue. -/
def ctrlSent (s t : State) (p : Nat) (mtype : BitVec 6) (kind : Nat) (payload : Nat) : Prop :=
  ∃ (f : Flit), (t.port p).ctrl = (s.port p).ctrl ++ [f] ∧ f.cls = 1 ∧ f.mtype = mtype ∧ fld f.arg 1 0 = kind ∧
    fld f.payload 191 0 = payload

/-- Half the difference that a TIME_SYNC exchange measures, rounded down, as OFFSET holds it (R297). -/
def measuredOffset (t1 t2 t3 t4 : DWord) : BitVec 24 := BitVec.ofInt 24 (((t2 - t1) - (t4 - t3)).toInt / 2)

/-- The port over which position `k` of the node would be the time input of this module (R295). -/
def masterPort (s : State) (k : Nat) : Nat :=
  if k = s.ownAddress % 8 then 15 else (k + 15 - s.ownAddress % 8) % 8

/-- Position `k` can be the node master now that input `p` is lost: it is locked, and its port carries flits (R300). -/
def mayMaster (s : State) (p k : Nat) : Prop :=
  masterPort s k ≠ p ∧ (s.port (masterPort s k)).state = .active ∧ (s.port (masterPort s k)).partnerLocked = true

/-- The module follows a time input: it is LOCKED, steers back to it, or is locking it in S10 (R409, R416, R417). -/
def followsInput (s : State) : Prop :=
  s.clock.refState = 1 ∨ s.clock.steer ≠ 0 ∨ (s.bring.at_ = .stage 10 ∧ s.isRoot = false)

/-- The bound of a time role in 1/64 ns (R295, R296). -/
def offsetWithin (role : Nat) (o : BitVec 24) : Prop := o.toInt.natAbs ≤ if role = 1 then 8 else 56

end Sys2Proof.Machine

/-- TIME_SYNC exchanges measure the offset; a lost input or reference leads to HOLDOVER, a restored one back to
LOCKED; clock decisions are taken or refused (11 Time alignment, 16 Reference and holdover, Table 11.7). Derived. When
the root decides, how the offset is halved, how a module knows the next master, and the envelope that goes with a
change are the model's choices (log entries 40, 41, 42, 75). -/
def Obligations.TimeAlignmentAndTheReference : Prop :=
  (∀ (p : Nat) (s : State), s.clock.input = some p → (s.port p).state = .active →
    (s.clock.syncStart + 1024 ≤ s.clock.dome → ∃ t, exec .timeSyncTimer s = .next t ∧
      t.clock = { s.clock with exchange := none, syncStart := s.clock.dome } ∧
      ctrlSent s t p 0x10 0 0 ∧ (∀ r, r ≠ p → t.port r = s.port r) ∧
      { t with clock := s.clock, ports := s.ports } = s) ∧
    (s.clock.dome < s.clock.syncStart + 1024 → exec .timeSyncTimer s = .next s)) ∧
  (∀ (p : Fin 16) (frac : BitVec 6) (s : State) (f : Flit) (rest : List Flit),
    let q := s.port p.val
    let now := (64 * s.clock.dome + frac.toNat) % 2 ^ 64
    q.state = .active → q.resend = none → q.replay.length < 1024 → q.sched = [] → q.ctrl = f :: rest → f.mtype = 0x10 →
    ∃ (t : State) (g : Flit), exec (.flitTransmit p frac) s = .next t ∧ (t.port p.val).replay = q.replay ++ [g] ∧
      (fld f.arg 1 0 = 0 → fld g.payload 63 0 = now ∧ t.clock = { s.clock with exchange := some (p.val, now) }) ∧
      (fld f.arg 1 0 ≠ 0 → fld g.payload 191 128 = now ∧ fld g.payload 127 0 = fld f.payload 127 0 ∧ t.clock = s.clock)) ∧
  (∀ (p : Fin 16) (s : State) (f : Flit) (rest : List Flit) (u : Nat) (us : List Nat), (s.port p.val).rx = f :: rest →
    f.mtype = 0x10 → (s.port p.val).stamps = u :: us → u < 2 ^ 64 →
    (fld f.arg 1 0 = 0 → ∃ (t : State) (g : Flit), exec (.timeSync p) s = .next t ∧ (t.port p.val).rx = rest ∧
      (t.port p.val).stamps = us ∧ (t.port p.val).partnerLocked = decide (fld f.payload 263 256 ≠ 0) ∧
      (t.port p.val).partnerRole = some (fld f.payload 271 264) ∧
      (t.port p.val).ctrl = (s.port p.val).ctrl ++ [g] ∧ g.mtype = 0x10 ∧ fld g.arg 1 0 = 1 ∧
      fld g.payload 63 0 = fld f.payload 63 0 ∧ fld g.payload 127 64 = u ∧ { t with ports := s.ports } = s) ∧
    (fld f.arg 1 0 = 1 → s.clock.exchange = some (p.val, fld f.payload 63 0) →
      let word := fun k => f.payload.extractLsb' (64 * k) 64
      let o := measuredOffset (word 0) (word 1) (word 2) (BitVec.ofNat 64 u)
      ∃ t, exec (.timeSync p) s = .next t ∧ t.clock.offset = o ∧ t.clock.exchange = none ∧
        t.clock.roundTrip = ((BitVec.ofNat 64 u - word 0) - (word 2 - word 1)).toNat ∧
        t.clock.lastSync = s.clock.dome ∧ t.clock.dome = s.clock.dome ∧
        (s.clock.refState = 2 → offsetWithin s.clock.role o → t.clock.refState = 1 ∧ t.clock.refPort = p.val) ∧
        (s.clock.refState ≠ 2 ∨ ¬ offsetWithin s.clock.role o → t.clock.refState = s.clock.refState) ∧
        (s.clock.input ≠ some p.val ∨ fld f.payload 271 264 ≠ 1 ∨ s.lantern.od.timeMode = 1 →
          t.clock.input = s.clock.input ∧ t.clock.role = s.clock.role) ∧
        { t with clock := s.clock, ports := s.ports } = s)) ∧
  (∀ (p : Nat) (s : State), s.clock.input = some p →
    (s.clock.lastSync + 10000 ≤ s.clock.dome → ∃ t, exec .timeInputLost s = .next t ∧
      (followsInput s → t.clock.refState = 2 ∧ t.clock.refLost = true ∧ t.clock.steer = 0) ∧
      (¬ followsInput s → t.clock.refState = s.clock.refState ∧ t.clock.refLost = s.clock.refLost ∧ t.clock.steer = s.clock.steer) ∧
      t.clock.exchange = none ∧ t.clock.dome = s.clock.dome ∧
      { t with clock := s.clock, ports := s.ports } = s ∧
      (∀ k, s.lantern.od.timeMode = 0 → k < 8 → mayMaster s p k → (∀ j, j < k → ¬ mayMaster s p j) →
        t.clock.role = (if k = s.ownAddress % 8 then 2 else 1) ∧ t.clock.input = some (masterPort s k)) ∧
      (s.lantern.od.timeMode = 0 → (∀ k, k < 8 → ¬ mayMaster s p k) → s.ownAddress % 8 = 0 →
        t.clock.role = 0 ∧ t.clock.input = none) ∧
      (s.lantern.od.timeMode = 0 → (∀ k, k < 8 → ¬ mayMaster s p k) → s.ownAddress % 8 ≠ 0 →
        t.clock.role = 1 ∧ t.clock.input = some (masterPort s 0))) ∧
    (s.clock.dome < s.clock.lastSync + 10000 → exec .timeInputLost s = .next s)) ∧
  (∀ s : State, (followsInput s → ∃ t, exec .referenceLost s = .next t ∧
      t = { s with clock := { s.clock with refState := 2, refLost := true, steer := 0 } }) ∧
    (¬ followsInput s → exec .referenceLost s = .next s)) ∧
  (∀ (role p : Nat) (o : BitVec 24) (s : State), s.chooseInput none = (role, some p) → p < 16 →
    (s.clock.refState = 2 → ∃ t, exec (.referenceRestored o) s = .next t ∧ t.clock.input = some p ∧
      t.clock.role = role ∧ t.clock.offset = o ∧ (t.port p).timeIn = true ∧
      t.clock.refState = (if o.toInt.natAbs ≤ (if role = 1 then 8 else 56) then 1 else 2) ∧ t.clock.dome = s.clock.dome ∧
      { t with clock := s.clock, ports := s.ports } = s) ∧
    (s.clock.refState = 0 → s.clock.domeValid = true → ∃ t, exec (.referenceRestored o) s = .next t ∧
      t = { s with clock := { s.clock with lateInput := true } })) ∧
  (∀ (p : Fin 16) (s : State) (f : Flit) (rest : List Flit), (s.port p.val).rx = f :: rest → f.mtype = 0x14 →
    s.lantern.od.timeMode = 0 → fld f.arg 1 0 = 1 →
    let khz := fld f.payload 31 0
    let at_ := fld f.payload 95 32
    (p ≠ 15 → ∃ t, exec (.clockAgree p) s = .next t ∧ PortBecomes s t p.val { s.port p.val with rx := rest }) ∧
    (p = 15 → s.clock.dome + 50000 ≤ at_ → 400000 ≤ khz → khz ≤ maxClock s.grade → khz % 25000 = 0 → s.clock.pendingF = [] →
      ∃ t, exec (.clockAgree p) s = .next t ∧ t.clock = { s.clock with
          pendingF := [{ f := at_, khz := khz, envelope := s.lantern.od.envelope }] } ∧
        (t.port p.val).rx = rest ∧ { t with clock := s.clock, ports := s.ports } = s) ∧
    (p = 15 → (at_ < s.clock.dome + 50000 ∨ khz < 400000 ∨ maxClock s.grade < khz ∨ khz % 25000 ≠ 0) →
      ∃ t, exec (.clockAgree p) s = .next t ∧ t.clock = s.clock ∧
        (∃ (g : Flit), (t.port 15).ctrl = (s.port 15).ctrl ++ [g] ∧ g.mtype = 0x14 ∧ fld g.arg 1 0 = 0 ∧
          fld g.payload 31 0 = s.clock.proposed % 2 ^ 32))) ∧
  (∀ (p : Fin 16) (s : State) (f : Flit) (rest : List Flit), (s.port p.val).rx = f :: rest → f.mtype = 0x14 →
    fld f.arg 1 0 = 0 → s.isRoot = true → s.clock.proposals = [] → s.clock.pendingF = [] →
    let khz := Min.min s.clock.proposed (fld f.payload 31 0)
    ∃ t, exec (.clockAgree p) s = .next t ∧
      t.clock.pendingF = [{ f := s.clock.dome + 100000, khz := khz, envelope := s.lantern.od.envelope }] ∧
      Mem.find t.clock.proposals (fld f.payload 119 96) = some (fld f.payload 31 0) ∧
      ∃ g ∈ (t.port p.val).ctrl, g.mtype = 0x14 ∧ fld g.arg 1 0 = 1 ∧ fld g.payload 31 0 = khz % 2 ^ 32)

/-! ### Supplies, power and temperature (chapters 16 and 17) -/

namespace Sys2Proof.Machine

/-- A cause of the whole module has reached every context that a hold can stop, and no other (R39, R44). -/
def allAsked (s t : State) (cause : HoldCause) (src : Nat) : Prop :=
  (∀ n, holdable (s.ctx n) = true → (cause, src) ∉ (s.ctx n).hold.opened → (s.ctx n).hold.reqs = [] →
    t.ctx n = { s.ctx n with hold := { (s.ctx n).hold with reqs := [{ cause := cause, src := src, since := s.clock.clk }] } }) ∧
  (∀ n, holdable (s.ctx n) = false → t.ctx n = s.ctx n) ∧ { t with ctxs := s.ctxs, power := s.power } = s

/-- Bring-up after a supply has left its range: during S0 the stage is going to fail (Table 16.2). -/
def rangeLeft (s : State) : Bring :=
  if s.bring.at_ = .stage 0 then { s.bring with supplyLeft := true } else s.bring

/-- Both supplies in range (R402). -/
def suppliesGood (v54 v12 : Nat) : Prop := 50000 ≤ v54 ∧ v54 ≤ 58000 ∧ 11400 ≤ v12 ∧ v12 ≤ 12600

/-- So many nanoseconds have passed since a step of a cap, if there has been one. -/
def spanPassed (s : State) (last : Option Nat) (span : Nat) : Prop := ∀ t0, last = some t0 → t0 + span ≤ s.clock.ns

/-- A cap has moved, and at most the proposal with it. -/
def onlyCapMoves (s t : State) (measured thermal : Nat) : Prop :=
  t.clock.measured = measured ∧ t.clock.thermal = thermal ∧ t.clock.khz = s.clock.khz ∧ t.clock.dome = s.clock.dome ∧
  { t with clock := s.clock, ports := s.ports } = s

/-- Everything volatile is lost, and the lantern's persistent store stays (R402, R403). -/
def poweredDown (s t : State) : Prop :=
  t.bring.at_ = .off ∧ t.clock = {} ∧ t.ctxs = [] ∧ t.cells = [] ∧ t.regions = [] ∧ t.ports = [] ∧ t.fns = [] ∧
  t.leases = [] ∧ t.sessions = [] ∧ t.transit = [] ∧ t.lantern.copyA = s.lantern.copyA ∧ t.lantern.copyB = s.lantern.copyB ∧
  t.lantern.log = s.lantern.log ∧ t.lantern.activeB = s.lantern.activeB ∧ t.lantern.crcA = s.lantern.crcA ∧
  t.lantern.crcB = s.lantern.crcB ∧ t.lantern.slotA = s.lantern.slotA ∧ t.lantern.slotB = s.lantern.slotB ∧
  t.lantern.fuses = s.lantern.fuses ∧ t.lantern.wear = s.lantern.wear

/-- The supply events that shut the module down (Table 16.1). -/
def fatalSupply : ShutCause → Prop
  | .v54 mv us => mv < 44000 ∨ 60000 < mv ∨ (mv < 50000 ∧ 20000 < us)
  | .v12 mv us => (mv < 10800 ∨ 13200 < mv) ∧ 50 < us
  | .removal => True

end Sys2Proof.Machine

/-- Supplies in range start bring-up, low ones and overpower hold every context, excursions set flags or shut down;
caps step; sensors hold, release, shut down (Table 16.1, 16 Power envelope and throttling, 16 Supplies, 17
Environment). Derived. What a shutdown keeps, the supply readings and the clock in a hold for POWER, and the moment
from which the steps of a cap are counted are the model's choices (log entries 63, 64, 65); START_US of a module whose
PRESENT# mates last is a free value. -/
def Obligations.SuppliesPowerAndTemperature : Prop :=
  ∀ s : State,
    (∀ (first : Byte) (v54 v12 : Nat),
      (suppliesGood v54 v12 → s.bring.at_ = .off → s.power.present = true → ∃ t, exec (.supplyInRange first v54 v12) s = .next t ∧
        t = { s with bring := { s.bring with at_ := .stage 0 }
                     power := { s.power with first := first, v54mv := v54, v12mv := v12 } }) ∧
      (suppliesGood v54 v12 → s.bring.at_ = .off → s.power.present = false → ∃ t, exec (.supplyInRange first v54 v12) s = .next t ∧
        t = { s with power := { s.power with first := first, v54mv := v54, v12mv := v12 } }) ∧
      (suppliesGood v54 v12 → s.bring.at_ ≠ .off → ∃ t, exec (.supplyInRange first v54 v12) s = .next t ∧
        t = { s with power := { s.power with v54mv := v54, v12mv := v12 } }) ∧
      (¬ suppliesGood v54 v12 → exec (.supplyInRange first v54 v12) s = .next s)) ∧
    (∀ mv, s.bring.at_ ≠ .off →
      (44000 ≤ mv → mv < 50000 → ∃ t, exec (.supplyLow mv) s = .next t ∧ allAsked { s with bring := rangeLeft s } t .power 0 ∧
        t.power = { s.power with v54mv := mv, supplyLow := true }) ∧
      (58000 < mv → mv ≤ 60000 → ∃ t, exec (.v54High mv) s = .next t ∧
        t = { s with bring := rangeLeft s, power := { s.power with v54mv := mv, v54High := true } }) ∧
      (∀ us, (mv < 11400 ∨ 12600 < mv) → ¬ fatalSupply (.v12 mv us) → ∃ t, exec (.v12Excursion mv us) s = .next t ∧
        t = { s with bring := rangeLeft s, power := { s.power with v12mv := mv, v12Range := true } })) ∧
    (∀ mv, 50500 ≤ mv → ∃ t, exec (.supplyRestored mv) s = .next t ∧
      t.power = { s.power with v54mv := mv, supplyLow := false } ∧
      t.clock.khz = (if s.power.supplyLow = true then s.clock.groupKhz else s.clock.khz) ∧
      t.clock.domeAcc * s.clock.khz ≤ s.clock.domeAcc * t.clock.khz ∧
      t.clock.nsAcc * s.clock.khz ≤ s.clock.nsAcc * t.clock.khz ∧
      { t.clock with khz := s.clock.khz, domeAcc := s.clock.domeAcc, nsAcc := s.clock.nsAcc } = s.clock ∧
      { t with power := s.power, clock := s.clock } = s) ∧
    (∀ cause, (fatalSupply cause → ∃ t, exec (.shutdown cause) s = .next t ∧ poweredDown s t) ∧
      (¬ fatalSupply cause → exec (.shutdown cause) s = .next s)) ∧
    (s.power.present = false → s.bring.at_ = .off → suppliesGood s.power.v54mv s.power.v12mv → ∃ t, exec .presentMate s = .next t ∧
      t = { s with power := { s.power with present := true }, free := s.free + 1
                   bring := { s.bring with at_ := .stage 0, startUs := (Config.freeValue s.free).toNat % 2 ^ 32 } }) ∧
    (s.power.present = true ∨ s.bring.at_ ≠ .off ∨ ¬ suppliesGood s.power.v54mv s.power.v12mv → ∃ t, exec .presentMate s = .next t ∧
      t = { s with power := { s.power with present := true } }) ∧
    (∀ a b c : BitVec 16,
      let limit := if s.grade = .liquid then 3740 else 1760
      (limit < a.toNat → ∃ t, exec (.powerSample a b c) s = .next t ∧ allAsked s t .power 0 ∧ t.power.overPower = true ∧
        t.power.p54 = b.toNat ∧ t.power.p54avg10 = c.toNat) ∧
      (a.toNat ≤ limit → ∃ t, exec (.powerSample a b c) s = .next t ∧ { t with power := s.power } = s ∧
        t.power.overPower = (s.power.overPower && decide (s.clock.envelope ≤ b.toNat)) ∧ t.power.p54 = b.toNat ∧
        t.power.p54avg10 = c.toNat)) ∧
    (s.clock.envelope < s.power.p54avg10 → spanPassed s s.clock.measuredAt 10000000 → ∃ t,
      exec .measuredCapStep s = .next t ∧ onlyCapMoves s t (Max.max 400000 (s.clock.measured - 25000)) s.clock.thermal) ∧
    (s.power.p54avg10 + 100 < s.clock.envelope → spanPassed s s.clock.measuredAt 100000000 → ∃ t,
      exec .measuredCapStep s = .next t ∧ onlyCapMoves s t
        (if s.clock.measured + 25000 ≤ s.modelCap then s.clock.measured + 25000 else s.clock.measured) s.clock.thermal) ∧
    (∀ t0, s.clock.measuredAt = some t0 → s.clock.ns < t0 + 10000000 → exec .measuredCapStep s = .next s) ∧
    (∀ t0, s.clock.thermalAt = some t0 → s.clock.ns < t0 + 10000000 → exec .thermalCapStep s = .next s) ∧
    (∀ k, k < 64 → 10 * s.lantern.od.holdC - 50 < s.sensor k → spanPassed s s.clock.thermalAt 10000000 → ∃ t,
      exec .thermalCapStep s = .next t ∧ onlyCapMoves s t s.clock.measured (Max.max 400000 (s.clock.thermal - 25000))) ∧
    ((∀ k, k < 64 → s.sensor k < 10 * s.lantern.od.releaseC ∧ s.sensor k ≤ 10 * s.lantern.od.holdC - 50) →
      spanPassed s s.clock.thermalAt 100000000 → ∃ t, exec .thermalCapStep s = .next t ∧ onlyCapMoves s t s.clock.measured
        (if s.clock.thermal + 25000 ≤ maxClock s.grade then s.clock.thermal + 25000 else s.clock.thermal)) ∧
    (∀ (k : BitVec 6) (v : BitVec 16),
      (10 * s.lantern.od.holdC ≤ v.toInt → ∃ t, exec (.sensorHold k v) s = .next t ∧ allAsked s t .thermal k.toNat ∧
        t.power.thermalHold = true ∧ t.sensor k.toNat = v.toInt) ∧
      (v.toInt < 10 * s.lantern.od.holdC → ∃ t, exec (.sensorHold k v) s = .next t ∧ { t with power := s.power } = s ∧
        t.power.thermalHold = s.power.thermalHold ∧ t.sensor k.toNat = v.toInt) ∧
      (∃ t, exec (.sensorRelease k v) s = .next t ∧ { t with power := s.power } = s ∧ t.sensor k.toNat = v.toInt ∧
        (∀ j, j < 64 → j ≠ k.toNat → t.sensor j = s.sensor j) ∧
        ((∀ j, j < 64 → t.sensor j < 10 * s.lantern.od.releaseC) → t.power.thermalHold = false) ∧
        ((∃ j, j < 64 ∧ 10 * s.lantern.od.releaseC ≤ t.sensor j) → t.power.thermalHold = s.power.thermalHold)) ∧
      (1200 ≤ v.toInt → ∃ t, exec (.overtempShutdown k v) s = .next t ∧ poweredDown s t))

/-! ### Bring-up and resets (chapter 16) -/

namespace Sys2Proof.Machine

/-- The stage of a stage command, and its duration. -/
def stageOf : Instr → Option (Nat × Word)
  | .stageS0 d _ _ => some (0, d)
  | .stageS1 d => some (1, d)
  | .stageS2 d _ _ => some (2, d)
  | .stageS3 d _ => some (3, d)
  | .stageS4 d _ => some (4, d)
  | .stageS5 d => some (5, d)
  | .stageS6 d _ _ => some (6, d)
  | .stageS7 d _ _ _ => some (7, d)
  | .stageS8 d => some (8, d)
  | .stageS9 d => some (9, d)
  | .stageS10 d _ _ => some (10, d)
  | .stageS11 d => some (11, d)
  | _ => none

/-- The bit of a region in a mask of the regions offered. -/
def isOffered (s : State) (p : Nat) : Prop := (s.region p).fenced = false ∧ (s.region p).retrain = []

/-- No region is offered. -/
def noneOffered (s : State) : Prop := ∀ p, p < 32 → ¬ isOffered s p

/-- RESULT and other fields of the record of a stage (Table 16.3). -/
def recField (t : State) (k hi lo : Nat) : Nat := fld (Mem.rd (0 : Codeword) t.bring.records k) hi lo

/-- The first copy of every persistent group is the one in use: it is intact, and the second one is not or has no higher
sequence number (R387, R389). -/
def firstCopies (l : Lantern) : Prop :=
  ∀ g, g < 8 → vecAt l.crcA g = copyCheck l.copyA (vecAt l.seqA g) g ∧
    (vecAt l.crcB g ≠ copyCheck l.copyB (vecAt l.seqB g) g ∨ vecAt l.seqB g ≤ vecAt l.seqA g)

/-- The answer of the boot ROM's checks for the active slot, or for the other one (R395). -/
def slotCheck (l : Lantern) (active : Bool) : Nat :=
  (if l.activeB = active then l.slotB else l.slotA).check l.fuses

/-- A port is checked and leads to no partner or to another one than expected (R408). -/
def mismatchedAt (s : State) (p : Nat) : Prop :=
  (Mem.rd 0xFFFFFFFF s.lantern.od.expect p : Word) ≠ 0xFFFFFFFF ∧ ((s.port p).state ≠ .active ∨ wrongPartner s (s.port p) p)

/-- A fence of a region takes effect: the region leaves service, and a lease on it is damaged. -/
def regionFenced (t : State) (p : Nat) : Prop := (t.region p).fenced = true

end Sys2Proof.Machine

/-- Every stage of bring-up runs only in its turn, writes its record, and goes on, stops or enters recovery by its
result, with the effect of Table 16.2 (Table 16.2, Table 16.3, 16 Stages). Derived. The initial clock of S2, the
boundary of S10, the warnings of S1, S8 and S9, and that the command of S7 puts the ports into DETECT (R272 says stage
S8, which begins then) are the model's reading (log entry 66). -/
def Obligations.EveryStageRecordsItselfAndGoesOn : Prop :=
  (∀ (i : Instr) (k : Nat) (dur : Word) (s : State), stageOf i = some (k, dur) →
    (s.bring.at_ ≠ .stage k → exec i s = .next s) ∧
    (s.bring.at_ = .stage k → ∃ (t : State) (r : Codeword) (result : ℕ), exec i s = .next t ∧ Mem.find t.bring.records k = some r ∧ fld r 7 0 = k ∧
      fld r 15 8 = result ∧ fld r 127 96 = dur.toNat ∧ fld r 95 64 = s.bring.startUs % 2 ^ 32 ∧
      (∀ j, j ≠ k → Mem.find t.bring.records j = Mem.find s.bring.records j) ∧
      (result = 1 ∨ result = 2 ∨ result = 3) ∧
      (result = 3 → t.bring.at_ = if k = 1 then .recovery else .fatal) ∧
      (result ≠ 3 → t.clock.stage = k ∧ t.bring.at_ = if k = 11 then .ready else .stage (k + 1)) ∧
      (result ≠ 3 → t.bring.startUs = s.bring.startUs + dur.toNat))) ∧
  (∀ s : State,
    (∀ dur, s.bring.at_ = .stage 0 → firstCopies s.lantern →
      vecAt s.lantern.wear 0 < 1000000 → ∃ t, exec (.stageS0 dur 0 0) s = .next t ∧
        t.lantern.od = { s.lantern.copyA with startCount := s.lantern.copyA.startCount + 1 } ∧
        t.lantern.address = s.lantern.copyA.address ∧ t.lantern.defaults = 0) ∧
    (∀ dur bad logs, s.bring.at_ = .stage 0 → ∃ t, exec (.stageS0 dur bad logs) s = .next t ∧
      recField t 0 15 8 = (if s.bring.supplyLeft = true then 3 else 1) ∧ recField t 0 135 128 = s.power.first.toNat) ∧
    (∀ dur, s.bring.at_ = .stage 1 → ∃ t, exec (.stageS1 dur) s = .next t ∧
      (slotCheck s.lantern true = 0 → t.lantern.runningB = s.lantern.activeB ∧ recField t 1 15 8 = 1) ∧
      (slotCheck s.lantern true ≠ 0 → slotCheck s.lantern false = 0 → t.lantern.runningB = !s.lantern.activeB ∧
        recField t 1 15 8 = 2) ∧
      (slotCheck s.lantern true ≠ 0 → slotCheck s.lantern false ≠ 0 → t.bring.at_ = .recovery ∧ t.lantern = s.lantern ∧
        recField t 1 15 8 = 3) ∧
      recField t 1 151 144 = s.lantern.slotA.check s.lantern.fuses ∧ recField t 1 159 152 = s.lantern.slotB.check s.lantern.fuses) ∧
    (∀ dur ppb, s.bring.at_ = .stage 2 → ∃ t, exec (.stageS2 dur true ppb) s = .next t ∧ t.clock.on = true ∧
      t.clock.envelope = s.lantern.od.envelope ∧ t.clock.khz = t.clock.groupKhz ∧ t.clock.proposed = t.clock.khz ∧
      t.clock.khz = 400000 + 25000 *
        ((Min.min (maxClock s.grade) (Config.modelCap (decide (s.grade = .liquid)) s.lantern.od.envelope) - 400000) / 25000) ∧
      recField t 2 15 8 = 1 ∧ recField t 2 159 128 = ppb.toNat) ∧
    (∀ dur ppb, s.bring.at_ = .stage 2 → ∃ t, exec (.stageS2 dur false ppb) s = .next t ∧ t.bring.at_ = .fatal ∧
      recField t 2 15 8 = 3 ∧ t.clock = s.clock) ∧
    (∀ dur (failed : BitVec 256), s.bring.at_ = .stage 3 → ∃ t, exec (.stageS3 dur failed) s = .next t ∧
      (∀ p, p < 32 → (regionFenced t p ↔ regionFenced s p ∨ fld failed (8 * p + 7) (8 * p) ≠ 0)) ∧
      (noneOffered t → recField t 3 15 8 = 3) ∧ (¬ noneOffered t → recField t 3 15 8 = if failed = 0 then 1 else 2) ∧
      recField t 3 383 128 = failed.toNat) ∧
    (∀ dur failed, s.bring.at_ = .stage 4 → ∃ t, exec (.stageS4 dur failed) s = .next t ∧
      (noneOffered t → recField t 4 15 8 = 3) ∧ (¬ noneOffered t → recField t 4 15 8 = if failed = [] then 1 else 2)) ∧
    (∀ dur c, s.bring.at_ = .stage 4 → Mem.rd 0 (s.region c.region.val).spares c.block.val = 0 → s.lantern.od.cellFences = [] →
      s.lantern.od.regionFences = 0 → ∃ t, exec (.stageS4 dur [c]) s = .next t ∧
        Mem.rd 0 (t.region c.region.val).spares c.block.val = c.pos.val + 1 ∧
        ∀ p, (t.region p).fenced = (s.region p).fenced) ∧
    (∀ dur, s.bring.at_ = .stage 5 → ∃ t, exec (.stageS5 dur) s = .next t ∧
      (∀ p, p < 32 → (t.inService.getLsbD p = true ↔ isOffered s p)) ∧ recField t 5 159 128 = t.inService.toNat ∧
      (noneOffered s → recField t 5 15 8 = 3) ∧ (¬ noneOffered s → recField t 5 15 8 = 1)) ∧
    (∀ dur skew, s.bring.at_ = .stage 6 → ∃ t, exec (.stageS6 dur true skew) s = .next t ∧ t.bring.pcieReady = true ∧
      recField t 6 15 8 = 1 ∧ recField t 6 175 144 = skew.toNat) ∧
    (∀ dur skew, s.bring.at_ = .stage 6 → ∃ t, exec (.stageS6 dur false skew) s = .next t ∧ t.bring.pcieReady = s.bring.pcieReady ∧
      recField t 6 15 8 = 3) ∧
    (∀ dur h0 h1 refclk, s.bring.at_ = .stage 7 → ∃ t, exec (.stageS7 dur h0 h1 refclk) s = .next t ∧ t.bring.h0 = h0 ∧ t.bring.h1 = h1 ∧
      (t.bring.common.getLsbD 0 = (refclk.getLsbD 0 && decide (h0 ≠ .held))) ∧
      (t.bring.common.getLsbD 1 = (refclk.getLsbD 1 && decide (h1 ≠ .held))) ∧
      recField t 7 15 8 = (if h0 = .failed ∨ h1 = .failed then 2 else 1) ∧
      ∀ p, p < 16 → (t.port p).state = (if classModes (portClass p) &&& Mem.rd 0xFF s.lantern.od.modeMask p = 0 then .down else .detect)) ∧
    (∀ dur, s.bring.at_ = .stage 8 → ∃ t, exec (.stageS8 dur) s = .next t ∧ t.ports = s.ports ∧ t.ctxs = s.ctxs ∧
      ((∀ p, p < 16 → (s.port p).state = .active) → recField t 8 15 8 = 1) ∧
      ((∃ p, p < 16 ∧ (s.port p).state ≠ .active) → recField t 8 15 8 = 2)) ∧
    (∀ dur, s.bring.at_ = .stage 9 → ∃ t, exec (.stageS9 dur) s = .next t ∧
      ((∀ p, p < 16 → ¬ mismatchedAt s p) → recField t 9 15 8 = 1) ∧ ((∃ p, p < 16 ∧ mismatchedAt s p) → recField t 9 15 8 = 2)) ∧
    (∀ dur p, s.bring.at_ = .stage 9 → p < 16 → (s.port p).state = .active → wrongPartner s (s.port p) p → ∃ t,
      exec (.stageS9 dur) s = .next t ∧ (t.port p).state = .down ∧ (t.port p).mismatched = true) ∧
    (∀ dur o, s.bring.at_ = .stage 10 → s.isRoot = false → s.clock.refState = 0 → ∃ t,
      exec (.stageS10 dur none o) s = .next t ∧ t.clock.domeValid = true ∧ t.clock.refState = 0 ∧ t.clock.input = none ∧
      t.clock.dome = s.clock.dome ∧ recField t 10 15 8 = 2) ∧
    (∀ dur o, s.bring.at_ = .stage 10 → s.isRoot = false → s.clock.refState ≠ 0 → ∃ t,
      exec (.stageS10 dur none o) s = .next t ∧ t.clock.refState = 2 ∧ recField t 10 15 8 = 2) ∧
    (∀ dur time o, s.bring.at_ = .stage 10 → s.isRoot = true → ∃ t, exec (.stageS10 dur time o) s = .next t ∧
      t.clock.role = 3 ∧ t.clock.refState = 0 ∧ t.clock.dome = s.clock.dome ∧ recField t 10 15 8 = 1) ∧
    (∀ dur (p : Fin 16) (role : ℕ) (time : DWord) (o : BitVec 24), s.bring.at_ = .stage 10 → s.chooseInput none = (role, some p.val) →
      s.bring.warm = false → ∃ t, exec (.stageS10 dur (some time) o) s = .next t ∧ t.clock.domeValid = true ∧
      t.clock.refState = (if o.toInt.natAbs ≤ (if role = 1 then 8 else 56) then 1 else 2) ∧ t.clock.role = role ∧
      t.clock.input = some p.val ∧ t.clock.dome = time.toNat ∧ (t.port p.val).timeIn = true ∧
      recField t 10 15 8 = t.clock.refState) ∧
    (∀ dur, s.bring.at_ = .stage 11 → (s.fn (pfOf 0)).events.length < 256 → ∃ (t : State) (e : EventRec), exec (.stageS11 dur) s = .next t ∧
      t.clock.warm = false ∧ recField t 11 15 8 = 1 ∧ (t.fn (pfOf 0)).events = (s.fn (pfOf 0)).events ++ [e] ∧ e.code = 5 ∧
      e.mask = s.inService.toNat))

namespace Sys2Proof.Machine

/-- A function reset has hit function `f`: its rings and registers are at reset, and its contexts end (R354). -/
def fnReset (s t : State) (f : FnRef) : Prop :=
  (t.fn f).cmdqOn = false ∧ (t.fn f).cplqOn = false ∧ (t.fn f).cmds = [] ∧ (t.fn f).events = [] ∧ (t.fn f).intOn = false ∧
  (∀ k, Mem.find s.sessions k = some f → Mem.find t.sessions k = none) ∧
  ∀ n, (s.ctx n).owner = f → ((s.ctx n).state = .loading → (t.ctx n).state = .free) ∧
    (s.unrecoverable = false → (s.ctx n).state = .loaded ∨ (s.ctx n).state = .armed ∨ (s.ctx n).state = .running →
      (t.ctx n).state = .killing ∧ ∃ k, (t.ctx n).kill = some k ∧ k.code = 2 ∧ k.source = 5)

/-- Contexts of other functions and their sessions go on. -/
def othersStay (s t : State) (hit : FnRef → Prop) : Prop :=
  (∀ n, ¬ hit (s.ctx n).owner → t.ctx n = s.ctx n) ∧ ∀ k f, Mem.find s.sessions k = some f → ¬ hit f → Mem.find t.sessions k = some f

end Sys2Proof.Machine

/-- Resets of a function or port kill its contexts and reset its registers; a crossing timeout, a channel retrain,
PERST# and a re-entry act as stated (13 Two hosts, 16 Warm re-entry, 16 Clock-domain crossings, Table 16.5, 14 How
long a kill takes). Derived. That the tables are in order is the invariant of StepKeepsTablesInOrder. Kills by a reset
start at once, what a kill and a restart at S0 keep, what a channel that times out records, a region that retrains,
and the state that REENTER leaves are the model's reading (log entries 47, 48, 28, 51, 63, 66); that a reset of a VF
keeps its quotas and one of a PF or a port puts those of its functions to 0 is the model's own inference. -/
def Obligations.ResetsReentryAndCrossings : Prop :=
  ∀ s : State, Mem.sortedFrom none s.ctxs = true → Mem.sortedFrom none s.sessions = true →
    (∀ (f : FnRef), f.fn ≠ 0 → ∃ t, exec (.functionLevelReset f) s = .next t ∧ fnReset s t f ∧
      othersStay s t (fun g => g = f) ∧ (t.fn f).maxContexts = (s.fn f).maxContexts) ∧
    (∀ (f : FnRef), f.fn = 0 → ∃ t, exec (.functionLevelReset f) s = .next t ∧
      (∀ g : FnRef, g.host = f.host → fnReset s t g ∧ (t.fn g).maxContexts = 0) ∧ othersStay s t (fun g => g.host = f.host)) ∧
    (∀ (h : Fin 2) (k : ResetKind) (r : PcieTrain), s.unrecoverable = false → ∃ t, exec (.portReset h k r) s = .next t ∧
      (∀ g : FnRef, g.host = h → fnReset s t g) ∧ othersStay s t (fun g => g.host = h) ∧
      t.train h = (if k = .fundamental then .held else r) ∧ (∀ g, g ≠ h → t.train g = s.train g)) ∧
    (∀ (h : Fin 2) (k : ResetKind) (r : PcieTrain), s.unrecoverable = true → k ≠ .linkDown → ∃ t, exec (.portReset h k r) s = .next t ∧
      t.unrecoverable = false ∧ t.bring.at_ = .stage 0 ∧ t.ctxs = [] ∧ t.lantern.copyA = s.lantern.copyA) ∧
    (∀ (h : Fin 2) (refclk : Bool) (r : PcieTrain),
      (s.bring.pcieReady = true → s.train h = .held → ∃ t, exec (.perstDeassert h refclk r) s = .next t ∧ t.train h = r ∧
        t.bring.common.getLsbD h.val = refclk ∧
        (∀ g, g ≠ h → t.train g = s.train g ∧ t.bring.common.getLsbD g.val = s.bring.common.getLsbD g.val) ∧ { t with bring := s.bring } = s) ∧
      (s.bring.pcieReady = false ∨ s.train h ≠ .held → exec (.perstDeassert h refclk r) s = .next s)) ∧
    (∀ p : Fin 16, ∃ t, exec (.crossingTimeout (.silide p)) s = .next t ∧ t.clock.cdcTimeout = true ∧
      (t.port p.val).state = .down ∧ ∀ n, s.unrecoverable = false → usesPort (s.ctx n) p.val = true →
        killable (s.ctx n) = true → (t.ctx n).state = .killing) ∧
    (∀ h : Fin 2, ∃ t, exec (.crossingTimeout (.pcie h)) s = .next t ∧ t.clock.cdcTimeout = true ∧
      ∀ g : FnRef, g.host = h → fnReset s t g) ∧
    (∃ t, exec (.crossingTimeout .lantern) s = .next t ∧ t.clock.cdcTimeout = true ∧ t.lantern.restarting = true) ∧
    (∀ (p : Fin 32) (ch : Fin 8), ch.val ∉ (s.region p.val).retrain → ∃ t, exec (.crossingTimeout (.hbm p ch)) s = .next t ∧
      (t.region p.val).retrain = (s.region p.val).retrain ++ [ch.val] ∧
      (∀ n, (s.region p.val).owner = some n → ∃ e, (t.ctx n).kills = (s.ctx n).kills ++ [{
        source := 2, err := e, since := s.clock.clk, sched := (s.ctx n).cc }] ∧ e.code = 0x0024)) ∧
    (∀ (p : Fin 32) (ch : Fin 8), ch.val ∈ (s.region p.val).retrain →
      (∃ t, exec (.hbmChannelRetrain p ch true) s = .next t ∧ ch.val ∉ (t.region p.val).retrain ∧
        (t.region p.val).fenced = (s.region p.val).fenced) ∧
      ((s.region p.val).owner = none → ∃ t, exec (.hbmChannelRetrain p ch false) s = .next t ∧
        (t.region p.val).fenced = true) ∧
      (∀ n, (s.region p.val).owner = some n → ∃ t, exec (.hbmChannelRetrain p ch false) s = .next t ∧
        (t.region p.val).fenced = (s.region p.val).fenced ∧
        (t.region p.val).pendingFences = (s.region p.val).pendingFences ++ [(none, 0)])) ∧
    (∀ (p : Fin 32) (ch : Fin 8) ok, ch.val ∉ (s.region p.val).retrain → exec (.hbmChannelRetrain p ch ok) s = .next s) ∧
    (∀ (f : FnRef) (v : Word), f.fn = 0 → v.getLsbD 0 = true → s.bring.at_ = .ready → s.clock.stage = 11 → ∃ t,
      exec (.reenter f v) s = .next t ∧ t.bring.at_ = .stage 8 ∧ t.bring.warm = true ∧ t.clock.warm = true ∧
      t.clock.dome = s.clock.dome ∧ t.clock.refState = (if s.clock.refState = 1 then 2 else s.clock.refState) ∧
      (∀ p, p < 16 → (t.port p).compared = false ∧ (t.port p).mismatched = false ∧ (t.port p).retraining = none ∧
        (t.port p).state = (if classModes (portClass p) &&& Mem.rd 0xFF s.lantern.od.modeMask p = 0 then .down else .detect)) ∧
      (∀ n, s.unrecoverable = false → ((s.ctx n).slots ≠ [] ∨ (s.ctx n).routes ≠ []) → killable (s.ctx n) = true →
        (t.ctx n).state = .killing ∧ ∃ k, (t.ctx n).kill = some k ∧ k.code = 0x0031) ∧
      (∀ n, (s.ctx n).slots = [] → (s.ctx n).routes = [] → t.ctx n = s.ctx n)) ∧
    (∀ (f : FnRef) (v : Word), f.fn ≠ 0 ∨ v.getLsbD 0 = false ∨ s.clock.stage ≠ 11 → exec (.reenter f v) s = .next s)

/-! ### The host interface (chapter 13) -/

namespace Sys2Proof.Machine

/-- Commands of the ring that are unfinished. -/
def ringCmds (q : Fn) : Nat := (q.cmds.filter (fun c => c.mbox = false)).length

/-- The module accepts commands: after stage S10, and throughout a warm re-entry. -/
def takesCommands (s : State) : Prop := s.clock.stage = 11 ∨ s.clock.warm = true

/-- The record `r` of command `c` of Table 13.6, for context `n`, or 255 for none. -/
def RecordIs (s : State) (r : Course) (c : Cmd) (code n result : Nat) : Prop :=
  fld r 15 0 = cmdId c ∧ fld r 31 16 = code ∧ fld r 39 32 = cmdHandle c ∧ fld r 47 40 = n % 256 ∧ fld r 55 54 = 0 ∧
  (fld r 53 53 = 1 ↔ n < 32 ∧ (s.ctx n).padded = true) ∧ fld r 255 64 = result % 2 ^ 192

/-- Command `c` of function `f` finishes: with its record in HOST_MBOX_RES, in the ring where it has room, or waiting. -/
def Answered (s t : State) (f : FnRef) (c : Cmd) (code n result : Nat) : Prop :=
  let q := s.fn f
  ∃ r, RecordIs s r c code n result ∧
    if c.mbox = true then (t.fn f).mboxRes = r ∧ fld r 56 56 = 1 ∧
      (if q.cfg.msixOn = false then t.out = s.out
      else if q.cfg.msixFnMask = true ∨ q.msixMask.getLsbD 1 = true then (t.fn f).msixPend.getLsbD 1 = true
      else Out.msix f 1 ∈ t.out)
    else if q.records = [] ∧ cplRoom q ≠ 0 then
      (∃ rest, t.out = s.out ++ .record f (q.cplqBase.toNat / 4096 * 4096 + 32 * q.cplqTail) r :: rest) ∧
      fld r 56 56 = b01 q.phase ∧ (t.fn f).cplqTail = (q.cplqTail + 1) % 2 ^ q.cplqSize
    else (c.seq, r) ∈ (t.fn f).records ∧ t.out = s.out

/-- Command number `seq` of function `f` is `c`, accepted, with this opcode and not finished. -/
def acceptedCmd (s : State) (f : FnRef) (seq op : Nat) (c : Cmd) : Prop :=
  (s.fn f).cmds.find? (fun o => decide (o.seq = seq)) = some c ∧ c.accepted = true ∧ cmdOp c = op ∧ s.unrecoverable = false ∧
  ∀ e ∈ (s.fn f).records, e.1 ≠ seq

/-- The parameter bytes of each opcode (Table 13.8). -/
def parBytes : Nat → List (Nat × Nat)
  | 0x02 => [(8, 8)]
  | 0x03 => [(8, 10)]
  | 0x10 => [(8, 20), (24, 35)]
  | 0x11 => [(8, 8), (16, 31)]
  | 0x12 => [(8, 15)]
  | 0x16 => [(8, 31)]
  | 0x17 => [(8, 8)]
  | _ => []

/-- A command that R344 answers BAD_COMMAND: an undefined opcode, a reserved byte that is not 0, a HANDLE where none is named, a
parameter outside its range (Table 13.8), or SET_VF_QUOTA from a VF. -/
def malformed (f : FnRef) (c : Cmd) : Prop :=
  let op := cmdOp c
  let p := cmdPar c
  ¬ (op ≤ 3 ∨ (0x10 ≤ op ∧ op ≤ 0x17)) ∨
  (∃ k, 4 ≤ k ∧ k < 64 ∧ p k k ≠ 0 ∧ ∀ r ∈ parBytes op, k < r.1 ∨ r.2 < k) ∨
  ((op ≤ 3 ∨ op = 0x17) ∧ cmdHandle c ≠ 0xFF) ∨
  (op = 0x03 ∧ (f.fn ≠ 0 ∨ p 8 8 < 1 ∨ 15 < p 8 8 ∨ 8 < p 9 9 ∨ 32 < p 10 10)) ∨
  (op = 0x10 ∧ (p 8 15 % 4096 ≠ 0 ∨ p 24 31 % 64 ≠ 0)) ∨
  (op = 0x11 ∧ 15 < p 8 8) ∨
  (op = 0x16 ∧ (640 < p 12 13 + p 14 15 ∨ p 16 23 % 16384 ≠ 0 ∨ p 24 31 % 16384 ≠ 0 ∨ 15999991808 < p 16 23 + p 24 31)) ∨
  (op = 0x17 ∧ (p 8 8 < 1 ∨ 32 < p 8 8))

/-- The states in which a command on a handle is legal (Table 13.11). -/
def legalStates : Nat → List CtxState
  | 0x10 => [.free]
  | 0x11 => [.loaded, .armed, .running]
  | 0x12 => [.loaded]
  | 0x13 => [.loading, .loaded, .armed, .running, .killing]
  | 0x14 => [.loaded, .done, .failed]
  | 0x15 => [.running]
  | 0x16 => [.running]
  | _ => []

/-- The command names a handle (R344). -/
def onHandleOp (c : Cmd) : Prop := 0x10 ≤ cmdOp c ∧ cmdOp c ≤ 0x16

/-- The number of the context on a function's handle, 255 for none. -/
def ctxOf (q : Fn) (h : Nat) : Nat := (Mem.find q.handles h).getD 255

/-- The state of a handle of function `f`. -/
def stateOf (s : State) (f : FnRef) (h : Nat) : CtxState :=
  match Mem.find (s.fn f).handles h with
  | some n => (s.ctx n).state
  | none => .free

/-- The message of vector `k` does not leave: nothing waits, or something holds it back. -/
def heldBack (q : Fn) (k : ℕ) : Prop :=
  q.msixPend.getLsbD k = false ∨ q.cfg.msixOn = false ∨ q.cfg.msixFnMask = true ∨ q.msixMask.getLsbD k = true

/-- Nothing but function `f` and what the module sends out differs. -/
def onlyFn (s t : State) (f : FnRef) : Prop := (∀ g, g ≠ f → t.fn g = s.fn g) ∧ { t with fns := s.fns, out := s.out } = s

end Sys2Proof.Machine

/-- Writes of ring, mailbox and other registers of a function have the effects of chapter 13 and of the model's
configuration space, and change nothing else (13 Rings, 13 Registers, Table 13.17, Table 13.18, Table 13.19, 13 BARs
and windows). Derived. The fields of the configuration space and the masking of MSI-X are presumed from PCI Express
(log entry 73). That enabling the command ring leaves the completion phase as it is, where R339 read literally sets it
with either ring, is the model's reading (log entry 50). -/
def Obligations.RingsAndRegistersOfAFunction : Prop :=
  ∀ (f : FnRef) (v : Word) (s : State),
    let q := s.fn f
    (fld v 15 0 < 2 ^ q.cmdqSize → ∃ t, exec (.cmdqTailWrite f v) s = .next t ∧
      FnBecomes s t f { q with cmdqTail := fld v 15 0, fetchStop := false }) ∧
    (2 ^ q.cmdqSize ≤ fld v 15 0 → ∃ t, exec (.cmdqTailWrite f v) s = .next t ∧ FnBecomes s t f { q with cfgErr := true }) ∧
    (q.cmdqOn = false → 4 ≤ fld v 4 0 → fld v 4 0 ≤ 16 → ∃ t, exec (.cmdqCfgWrite f v) s = .next t ∧
      FnBecomes s t f (if v.getLsbD 31 = true then
        { q with cmdqSize := fld v 4 0, cmdqOn := true, cmdqHead := 0, cmdqTail := 0, fetchStop := false }
        else { q with cmdqSize := fld v 4 0 })) ∧
    (q.cmdqOn = true → v.getLsbD 31 = false → q.cmdqOff = false → q.cmds ≠ [] → ∃ t, exec (.cmdqCfgWrite f v) s = .next t ∧
      FnBecomes s t f { q with cmdqOff := true }) ∧
    (q.cmdqOn = true → v.getLsbD 31 = false → q.cmdqOff = false → q.cmds = [] → q.cplqOff = false → ∃ t,
      exec (.cmdqCfgWrite f v) s = .next t ∧ FnBecomes s t f { q with cmdqOn := false }) ∧
    (q.cmdqOn = true → v.getLsbD 31 = true ∨ q.cmdqOff = true → ∃ t, exec (.cmdqCfgWrite f v) s = .next t ∧
      FnBecomes s t f { q with cfgErr := true }) ∧
    (q.cplqOn = false → 4 ≤ fld v 4 0 → fld v 4 0 ≤ 16 → v.getLsbD 31 = true →
      (2 * 2 ^ q.cmdqSize ≤ 2 ^ fld v 4 0 → ∃ t, exec (.cplqCfgWrite f v) s = .next t ∧ FnBecomes s t f
        { q with cplqSize := fld v 4 0, cplqOn := true, cplqHead := 0, cplqTail := 0, phase := true }) ∧
      (2 ^ fld v 4 0 < 2 * 2 ^ q.cmdqSize → ∃ t, exec (.cplqCfgWrite f v) s = .next t ∧
        FnBecomes s t f { q with cfgErr := true })) ∧
    (q.cplqOn = true → v.getLsbD 31 = false → q.cplqOff = false → q.cmds ≠ [] → ∃ t, exec (.cplqCfgWrite f v) s = .next t ∧
      FnBecomes s t f { q with cplqOff := true }) ∧
    (∃ t, exec (.cplqHeadWrite f v) s = .next t ∧ FnBecomes s t f { q with cplqHead := fld v 15 0 }) ∧
    (v.getLsbD 0 = true → (∀ c ∈ q.cmds, c.mbox = false) → ∃ t, exec (.hostMboxGo f v) s = .next t ∧ FnBecomes s t f
      { q with mboxRes := 0, nextSeq := q.nextSeq + 1, cmds := q.cmds ++ [{ seq := q.nextSeq, raw := q.mboxCmd, mbox := true, accepted := false, acceptedAt := 0 }] }) ∧
    (v.getLsbD 0 = true → (∃ c ∈ q.cmds, c.mbox = true) → ∃ t, exec (.hostMboxGo f v) s = .next t ∧
      FnBecomes s t f { q with cfgErr := true }) ∧
    (v.getLsbD 0 = false → ∃ t, exec (.hostMboxGo f v) s = .next t ∧ FnBecomes s t f q) ∧
    (∀ d : DWord,
      (∃ t, exec (.registerWrite (.fn f 0x000) d) s = .next t ∧ FnBecomes s t f { q with
        wrIgnored := q.wrIgnored && !d.getLsbD 30, cfgErr := q.cfgErr && !d.getLsbD 29, dmaErr := q.dmaErr && !d.getLsbD 28
        evtOverflow := q.evtOverflow && !d.getLsbD 27 }) ∧
      (q.cmdqOn = false → ∃ t, exec (.registerWrite (.fn f 0x008) d) s = .next t ∧ ∃ b : DWord,
        FnBecomes s t f { q with cmdqBase := b } ∧ b.toNat = d.toNat / 4096 * 4096) ∧
      (q.cplqOn = false → ∃ t, exec (.registerWrite (.fn f 0x028) d) s = .next t ∧ ∃ b : DWord,
        FnBecomes s t f { q with cplqBase := b } ∧ b.toNat = d.toNat / 4096 * 4096) ∧
      (q.cmdqOn = true → ∃ t, exec (.registerWrite (.fn f 0x008) d) s = .next t ∧ FnBecomes s t f { q with cfgErr := true }) ∧
      (q.cplqOn = true → ∃ t, exec (.registerWrite (.fn f 0x028) d) s = .next t ∧ FnBecomes s t f { q with cfgErr := true }) ∧
      (∃ (t : State) (u : Fn), u = { q with coalUs := fld d 31 16, coalN := fld d 15 8, intOn := d.getLsbD 0 } ∧
        exec (.registerWrite (.fn f 0x048) d) s = .next t ∧
        (d.getLsbD 0 = false ∨ q.unsignalled < Max.max 1 (fld d 15 8) → FnBecomes s t f u) ∧
        (d.getLsbD 0 = true → Max.max 1 (fld d 15 8) ≤ q.unsignalled →
          (q.cfg.msixOn = true → q.cfg.msixFnMask = false → q.msixMask.getLsbD 0 = false →
            FnBecomes { s with out := s.out ++ [.msix f 0] } t f { u with unsignalled := 0 }) ∧
          (q.cfg.msixOn = true → q.cfg.msixFnMask = true ∨ q.msixMask.getLsbD 0 = true →
            FnBecomes s t f { u with unsignalled := 0, msixPend := q.msixPend ||| 1 }))) ∧
      (∀ k : Nat, k < 8 → ∃ t, exec (.registerWrite (.fn f (BitVec.ofNat 12 (0x080 + 8 * k))) d) s = .next t ∧ ∃ m : Codeword,
        FnBecomes s t f { q with mboxCmd := m } ∧
        ∀ i, i < 512 → m.getLsbD i = if i / 64 = k then d.getLsbD (i % 64) else q.mboxCmd.getLsbD i) ∧
      (∀ off : BitVec 12, off ∈ [0x020, 0x038, 0x0C0, 0x0C8, 0x0D0, 0x0D8] ∨ 0x100 ≤ off.toNat → ∃ t,
        exec (.registerWrite (.fn f off) d) s = .next t ∧ FnBecomes s t f q) ∧
      (d.getLsbD 32 = true → heldBack q 1 → ∃ t, exec (.registerWrite (.msix f 0x008) d) s = .next t ∧ FnBecomes s t f { q with
        msixData := q.msixData.set 0 (d.setWidth 32), msixMask := q.msixMask ||| 1 }) ∧
      (d.getLsbD 32 = false → q.msixPend = 1 → q.cfg.msixOn = true → q.cfg.msixFnMask = false → ∃ t, exec (.registerWrite (.msix f 0x008) d) s = .next t ∧
        FnBecomes { s with out := s.out ++ [.msix f 0] } t f { q with
          msixData := q.msixData.set 0 (d.setWidth 32), msixMask := q.msixMask &&& 2, msixPend := 0 }) ∧
      (q.msixPend = 0 →
        (∃ t, exec (.registerWrite (.config f .busMaster) d) s = .next t ∧
          FnBecomes s t f { q with cfg := { q.cfg with busMaster := d.getLsbD 0 } }) ∧
        (∃ t, exec (.registerWrite (.config f .powerState) d) s = .next t ∧
          FnBecomes s t f { q with cfg := { q.cfg with d3hot := decide (fld d 1 0 = 3) } }) ∧
        (∃ t, exec (.registerWrite (.config f .msixEnable) d) s = .next t ∧
          FnBecomes s t f { q with cfg := { q.cfg with msixOn := d.getLsbD 0 } }) ∧
        (f.fn = 0 → fld d 15 0 ≤ 15 → ∃ t, exec (.registerWrite (.config f .numVfs) d) s = .next t ∧
          FnBecomes s t f { q with cfg := { q.cfg with numVfs := d.setWidth 16 } })) ∧
      (d.getLsbD 0 = false → q.msixPend = 1 → q.cfg.msixOn = true → q.msixMask.getLsbD 0 = false → ∃ t,
        exec (.registerWrite (.config f .msixFnMask) d) s = .next t ∧ FnBecomes { s with out := s.out ++ [.msix f 0] } t f
          { q with cfg := { q.cfg with msixFnMask := false }, msixPend := 0 }) ∧
      (f.fn ≠ 0 → exec (.registerWrite (.config f .vfEnable) d) s = .next s) ∧
      (f.fn = 0 → ∃ t, exec (.registerWrite (.config f .vfEnable) d) s = .next t ∧ (t.fn f).cfg.vfOn = d.getLsbD 0 ∧
        (d.getLsbD 0 = true → q.cfg.vfWas = false → ∀ g : FnRef, g.host = f.host →
          (t.fn g).maxContexts = 0 ∧ (t.fn g).maxRegions = 0) ∧
        (d.getLsbD 0 = false ∨ q.cfg.vfWas = true → ∀ g : FnRef, g ≠ f → t.fn g = s.fn g)) ∧
      (∀ g, exec (.registerWrite (.moduleWin g 0x3010) d) s = exec (.reenter g (d.setWidth 32)) s) ∧
      (∀ (h : Fin 8) (r : BitVec 5) (k n : Nat), Mem.find q.handles h.val = some n → (s.ctx n).state = .loaded →
        r.toNat < (s.ctx n).regions.length → k < 64 → fld d 63 48 = 0 →
        (∀ j, j < 64 → j ≠ k → combExpect (combQueue s n r.toNat j).cfg = 0) → ∃ (t : State) (w : DWord),
        exec (.registerWrite (.regionWin f h r (BitVec.ofNat 12 (0x100 + 16 * k))) d) s = .next t ∧
        combQueue t n r.toNat k = { combQueue s n r.toNat k with cfg := w } ∧
        (∀ i, i < 64 → w.getLsbD i = (d.getLsbD i && (decide (i < 12) || decide (25 ≤ i)))) ∧ t.fn f = q) ∧
      (∀ g off, g.fn ≠ 0 → exec (.registerWrite (.moduleWin g off) d) s = .next s) ∧
      (∀ g : FnRef, g.fn = 0 → ∃ t, exec (.registerWrite (.moduleWin g 0x3008) d) s = .next t ∧ t = { s with clock := { s.clock with
        refLost := s.clock.refLost && !d.getLsbD 25, cdcTimeout := s.clock.cdcTimeout && !d.getLsbD 24
        lateInput := s.clock.lateInput && !d.getLsbD 17 } }) ∧
      (∀ (h : Fin 8) n, Mem.find q.handles h.val = some n →
        ((s.ctx n).state = .loaded → ∃ t, exec (.registerWrite (.ctxWin f h 0x0020) d) s = .next t ∧
          CtxBecomes s t n { s.ctx n with haz := { (s.ctx n).haz with enable := d.getLsbD 0 } }) ∧
        ((s.ctx n).state ≠ .loaded → ∃ t, exec (.registerWrite (.ctxWin f h 0x0020) d) s = .next t ∧
          CtxBecomes s t n (s.ctx n)) ∧
        ((s.ctx n).state ≠ .loaded → ∀ id off, ∃ t, exec (.registerWrite (.cellWin f h id off) d) s = .next t ∧
          FnBecomes s t f { q with wrIgnored := true }) ∧
        (n < 32 → (s.ctx n).state = .loaded → ∀ (id : CellId) (off : BitVec 14) (c : Cell), off.toNat % 8 = 0 →
          off.toNat < 0x3000 → cregDefined (off.toNat / 8) = true → s.cell? ⟨Fin.ofNat 32 n, id⟩ = some c → ∃ t,
            exec (.registerWrite (.cellWin f h id off) d) s = .next t ∧ CellBecomes s t ⟨Fin.ofNat 32 n, id⟩
              (writeCreg c (BitVec.ofNat 12 (off.toNat / 8)) (d.setWidth 32))) ∧
        ((s.ctx n).state = .loaded → ∀ (id : CellId) (off : BitVec 14), cregDefined (off.toNat / 8) = false →
          exec (.registerWrite (.cellWin f h id off) d) s = .next s)))

/-- Commands are fetched while their records have room, accepted in turn or refused by status; records and events
carry their fields and phase; HOST_KILL kills (13 Rings, Table 13.6, Table 13.8, Table 13.9, Table 13.11, 13 Events
and errors, 13 Context states). Derived. The room of records before events and the kill that HOST_KILL starts at once
are the model's reading (log entries 46 and 47). -/
def Obligations.CommandsAreFetchedAcceptedAndAnswered : Prop :=
  ∀ (f : FnRef) (s : State),
    let q := s.fn f
    (∀ raw : Codeword, takesCommands s → q.cmdqOn = true → q.cmdqOff = false → q.fetchStop = false → q.cmdqHead ≠ q.cmdqTail →
      ringCmds q < 64 → ringCmds q + 1 ≤ cplRoom q →
      (∃ t, exec (.commandFetch f (some raw)) s = .next t ∧ FnBecomes s t f { q with
        cmdqHead := (q.cmdqHead + 1) % 2 ^ q.cmdqSize, nextSeq := q.nextSeq + 1
        cmds := q.cmds ++ [{ seq := q.nextSeq, raw := raw, mbox := false, accepted := false, acceptedAt := 0 }] }) ∧
      (∃ t, exec (.commandFetch f none) s = .next t ∧ FnBecomes s t f { q with dmaErr := true, fetchStop := true })) ∧
    (∀ e, q.cmdqHead = q.cmdqTail ∨ q.fetchStop = true ∨ q.cmdqOff = true ∨ cplRoom q ≤ ringCmds q ∨ 64 ≤ ringCmds q → ∃ t,
      exec (.commandFetch f e) s = .next t ∧ FnBecomes s t f q ∨ exec (.commandFetch f e) s = .next s) ∧
    (∀ seq c, q.cmds.find? (fun o => decide (o.seq = seq)) = some c → c.accepted = false → takesCommands s → inTurn q c = true →
      (∀ e ∈ q.records, e.1 ≠ seq) → s.unrecoverable = false →
      (malformed f c → ¬ onHandleOp c → ∃ t, exec (.commandAccept f seq) s = .next t ∧ Answered s t f c 1 255 0 ∧ onlyFn s t f) ∧
      (malformed f c → onHandleOp c → ∃ t, exec (.commandAccept f seq) s = .next t ∧
        Answered s t f c 1 (ctxOf q (cmdHandle c)) 0 ∧ onlyFn s t f) ∧
      (¬ malformed f c → onHandleOp c → 7 < cmdHandle c → ∃ t,
        exec (.commandAccept f seq) s = .next t ∧ Answered s t f c 2 255 0 ∧ onlyFn s t f) ∧
      (¬ malformed f c → onHandleOp c → cmdHandle c ≤ 7 → stateOf s f (cmdHandle c) ∉ legalStates (cmdOp c) → ∃ t,
        exec (.commandAccept f seq) s = .next t ∧ Answered s t f c 3 (ctxOf q (cmdHandle c)) 0 ∧ onlyFn s t f) ∧
      (¬ malformed f c → (onHandleOp c → cmdHandle c ≤ 7 ∧ stateOf s f (cmdHandle c) ∈ legalStates (cmdOp c)) → ∃ t,
        exec (.commandAccept f seq) s = .next t ∧ FnBecomes { s with accepts := s.accepts + 1 } t f
          { q with cmds := q.cmds.map (fun o => if o.seq = seq then
            { o with accepted := true, acceptedAt := s.clock.dome, acceptClk := s.clock.clk, acceptNum := s.accepts } else o) })) ∧
    (∀ seq c, q.cmds.find? (fun o => decide (o.seq = seq)) = some c → c.accepted = false → takesCommands s → inTurn q c = true →
      (∀ e ∈ q.records, e.1 ≠ seq) → s.unrecoverable = true → ∃ (t : State) (n : Nat), exec (.commandAccept f seq) s = .next t ∧
        Answered s t f c 0x0021 n 0 ∧ n = (if 0x10 ≤ cmdOp c ∧ cmdOp c ≤ 0x16 then ctxOf q (cmdHandle c) else 255) ∧ onlyFn s t f) ∧
    (∀ seq c, q.cmds.find? (fun o => decide (o.seq = seq)) = some c → inTurn q c = false → exec (.commandAccept f seq) s = .next s) ∧
    (∀ e rest, q.records = [] → q.events = e :: rest → cplRoom q ≠ 0 → ∃ (t : State) (r : BitVec 256) (more : List Out), exec (.eventRecord f) s = .next t ∧
      t.out = s.out ++ .record f (q.cplqBase.toNat / 4096 * 4096 + 32 * q.cplqTail) r :: more ∧ onlyFn s t f ∧
      fld r 15 0 = 0xFFFF ∧ fld r 31 16 = e.code % 2 ^ 16 ∧ fld r 39 32 = e.handle % 256 ∧ fld r 47 40 = e.ctx % 256 ∧
      fld r 55 54 = 1 ∧ fld r 53 53 = b01 e.padded ∧ fld r 56 56 = b01 q.phase ∧ fld r 127 64 = e.dome % 2 ^ 64 ∧
      fld r 143 128 = e.error % 2 ^ 16 ∧ fld r 151 144 = e.lease % 256 ∧ fld r 191 160 = e.mask % 2 ^ 32 ∧
      fld r 255 192 = e.cc % 2 ^ 64 ∧ (t.fn f).events = rest ∧ (t.fn f).cplqTail = (q.cplqTail + 1) % 2 ^ q.cplqSize ∧
      ((t.fn f).phase = !q.phase ↔ (q.cplqTail + 1) % 2 ^ q.cplqSize = 0)) ∧
    (∀ seq r0 rest, q.records = (seq, r0) :: rest → cplRoom q ≠ 0 → ∃ (t : State) (r : BitVec 256) (more : List Out), exec (.eventRecord f) s = .next t ∧
      t.out = s.out ++ .record f (q.cplqBase.toNat / 4096 * 4096 + 32 * q.cplqTail) r :: more ∧ onlyFn s t f ∧
      fld r 56 56 = b01 q.phase ∧ (∀ i, i ≠ 56 → r.getLsbD i = r0.getLsbD i) ∧ (t.fn f).records = rest ∧
      (t.fn f).cmds = q.cmds.filter (fun c => c.seq ≠ seq)) ∧
    ((q.cplqTail + 1) % 2 ^ q.cplqSize = q.cplqHead % 2 ^ q.cplqSize → exec (.eventRecord f) s = .next s) ∧
    (q.intOn = true → q.coalUs ≠ 0 → q.unsignalled ≠ 0 →
      (q.firstUnsig + 1000 * q.coalUs ≤ s.clock.dome → q.cfg.msixOn = true → q.cfg.msixFnMask = false →
        q.msixMask.getLsbD 0 = false → ∃ t, exec (.msixTimer f) s = .next t ∧
        FnBecomes { s with out := s.out ++ [.msix f 0] } t f { q with unsignalled := 0 }) ∧
      (q.firstUnsig + 1000 * q.coalUs ≤ s.clock.dome → q.cfg.msixOn = true →
        q.cfg.msixFnMask = true ∨ q.msixMask.getLsbD 0 = true → ∃ t, exec (.msixTimer f) s = .next t ∧
        FnBecomes s t f { q with unsignalled := 0, msixPend := q.msixPend ||| 1 }) ∧
      (s.clock.dome < q.firstUnsig + 1000 * q.coalUs → exec (.msixTimer f) s = .next s)) ∧
    (q.coalUs = 0 → exec (.msixTimer f) s = .next s) ∧
    (∀ (v : Word) n, Mem.find q.handles (fld v 2 0) = some n → v.getLsbD 8 = true → s.unrecoverable = false →
      killable (s.ctx n) = true → ∃ (t : State) (k : Kill), exec (.hostKill f v) s = .next t ∧ (t.ctx n).state = .killing ∧
        (t.ctx n).kill = some k ∧ k.code = 1 ∧ k.source = 1 ∧ k.startDome = s.clock.dome ∧
        (∀ m, m ≠ n → t.ctx m = s.ctx m) ∧ t.cells = s.cells) ∧
    (∀ v : Word, v.getLsbD 8 = false ∨ Mem.find q.handles (fld v 2 0) = none ∨ s.unrecoverable = true ∨
      (∃ n, Mem.find q.handles (fld v 2 0) = some n ∧ killable (s.ctx n) = false) → exec (.hostKill f v) s = .next s) ∧
    (∀ seq c, acceptedCmd s f seq 0x00 c → ∃ t, exec (.commandNop f seq) s = .next t ∧ Answered s t f c 0 255 0 ∧ onlyFn s t f)

/-! ### The commands of a host (chapters 08 and 13) -/

namespace Sys2Proof.Machine

/-- Command `c` names the handle of context `n`. -/
def onContext (s : State) (f : FnRef) (c : Cmd) (n : Nat) : Prop := Mem.find (s.fn f).handles (cmdHandle c) = some n

/-- A context of this session is live. -/
def sessionInUse (s : State) (k : Nat) : Prop := ∃ e ∈ s.ctxs, e.2.session = k ∧ sessionBusy e.2 = true

/-- The parameters of a LEASE_CREATE (Table 13.8). -/
def leaseMask (c : Cmd) (i : Nat) : Prop := (cmdPar c 8 11).testBit i = true

/-- A context holds region `p`. -/
def heldBySome (s : State) (p : Nat) : Prop :=
  ∃ m, (s.region p).owner = some m ∧
    ((s.ctx m).state = .loaded ∨ (s.ctx m).state = .armed ∨ (s.ctx m).state = .running ∨ (s.ctx m).state = .killing)

/-- The rows of a lease end at region `p`: a region no context owns keeps no row, and its HBM is cleared (R201). -/
def leaseEnds (s t : State) (p : Nat) : Prop :=
  (t.region p).owner = (s.region p).owner ∧
  ((s.region p).owner = none → (t.region p).kept = [] ∧ (t.region p).clearing = true) ∧
  ((s.region p).owner ≠ none → t.region p = s.region p)

end Sys2Proof.Machine

/-- Sessions, quotas, host windows and leases: each command has the effect and the status of Table 13.8, and changes
nothing else (Table 13.8, 13 Commands, 13 Functions and handles, Table 8.4, Table 13.9). That the tables are in order
is the invariant of StepKeepsTablesInOrder. -/
def Obligations.SessionQuotaWindowAndLeaseCommands : Prop :=
  ∀ (f : FnRef) (seq : Nat) (c : Cmd) (s : State), Mem.sortedFrom none s.leases = true →
    (∀ k, acceptedCmd s f seq 0x01 c → 1 ≤ k → k < 256 → Mem.find s.sessions k = none →
      (∀ j, 1 ≤ j → j < k → Mem.find s.sessions j ≠ none) → ∃ t, exec (.openSession f seq) s = .next t ∧
        Answered s t f c 0 255 k ∧ Mem.find t.sessions k = some f ∧ (∀ j, j ≠ k → Mem.find t.sessions j = Mem.find s.sessions j) ∧
        onlyFn { s with sessions := t.sessions } t f) ∧
    (acceptedCmd s f seq 0x01 c → (∀ j, 1 ≤ j → j < 256 → Mem.find s.sessions j ≠ none) → ∃ t,
      exec (.openSession f seq) s = .next t ∧ Answered s t f c 0x000B 255 0 ∧ onlyFn s t f) ∧
    (acceptedCmd s f seq 0x02 c →
      let k := cmdPar c 8 8
      (Mem.find s.sessions k = some f → ¬ sessionInUse s k → ∃ t, exec (.closeSession f seq) s = .next t ∧
        Answered s t f c 0 255 0 ∧ Mem.find t.sessions k = none ∧
        (∀ j, j ≠ k → Mem.find t.sessions j = Mem.find s.sessions j) ∧
        (∀ j l, Mem.find s.leases j = some l → (l.session = k → Mem.find t.leases j = none ∧ ∀ e ∈ l.regions, leaseEnds s t e.1) ∧
          (l.session ≠ k → Mem.find t.leases j = some l)) ∧ t.ctxs = s.ctxs ∧ t.cells = s.cells) ∧
      (Mem.find s.sessions k = some f → sessionInUse s k → ∃ t, exec (.closeSession f seq) s = .next t ∧
        Answered s t f c 3 255 0 ∧ onlyFn s t f) ∧
      (Mem.find s.sessions k ≠ some f → ∃ t, exec (.closeSession f seq) s = .next t ∧
        Answered s t f c 4 255 0 ∧ onlyFn s t f)) ∧
    (acceptedCmd s f seq 0x03 c → 1 ≤ cmdPar c 8 8 → cmdPar c 8 8 ≤ 15 → ∃ t, exec (.setVfQuota f seq) s = .next t ∧
      Answered s t f c 0 255 0 ∧ { t with fns := s.fns, out := s.out } = s ∧
      ∀ g : FnRef, (g.host = f.host ∧ g.fn.val = cmdPar c 8 8 → (t.fn g).maxContexts = cmdPar c 9 9 ∧
          (t.fn g).maxRegions = cmdPar c 10 10 ∧ (t.fn g).handles = (s.fn g).handles) ∧
        (g ≠ f → ¬ (g.host = f.host ∧ g.fn.val = cmdPar c 8 8) → t.fn g = s.fn g)) ∧
    (∀ n, acceptedCmd s f seq 0x11 c → onContext s f c n →
      (s.ctx n).state = .loaded ∨ (s.ctx n).state = .armed ∨ (s.ctx n).state = .running →
      let w := cmdPar c 8 8
      let addr := cmdPar c 16 23
      let size := cmdPar c 24 31
      (addr % 4096 = 0 → size % 4096 = 0 → size ≤ 2 ^ 32 → ∃ t, exec (.setHostWindow f seq) s = .next t ∧
        Answered s t f c 0 n 0 ∧ Mem.find (t.ctx n).hwin w = (if size = 0 then none else some (addr, size)) ∧
        (∀ j, j ≠ w → Mem.find (t.ctx n).hwin j = Mem.find (s.ctx n).hwin j) ∧
        { t.ctx n with hwin := (s.ctx n).hwin } = s.ctx n ∧ (∀ m, m ≠ n → t.ctx m = s.ctx m) ∧
        onlyFn { s with ctxs := t.ctxs } t f) ∧
      (addr % 4096 ≠ 0 ∨ size % 4096 ≠ 0 ∨ 2 ^ 32 < size → ∃ t, exec (.setHostWindow f seq) s = .next t ∧
        Answered s t f c 8 n 0 ∧ onlyFn s t f)) ∧
    (∀ n, acceptedCmd s f seq 0x16 c → onContext s f c n → (s.ctx n).state = .running →
      (∀ k, (∀ i, leaseMask c i → i < (s.ctx n).regions.length ∧ ∀ p, (s.ctx n).regions[i]? = some p →
          (s.region p).owner = some n ∧ ∀ j l, Mem.find s.leases j = some l → ∀ e ∈ l.regions, e.1 ≠ p) →
        Mem.find s.sessions (s.ctx n).session = some f → 1 ≤ k → k ≤ 32 → Mem.find s.leases k = none →
        (∀ j, 1 ≤ j → j < k → Mem.find s.leases j ≠ none) → ∃ t l, exec (.leaseCreate f seq) s = .next t ∧
          Answered s t f c 0 n k ∧ Mem.find t.leases k = some l ∧ l.session = (s.ctx n).session ∧ l.damaged = false ∧
          l.spadBase = cmdPar c 12 13 ∧ l.spadRows = cmdPar c 14 15 ∧ l.hbmBase = cmdPar c 16 23 ∧ l.hbmLen = cmdPar c 24 31 ∧
          (∀ p i, (p, i) ∈ l.regions ↔ leaseMask c i ∧ (s.ctx n).regions[i]? = some p) ∧
          (∀ j, j ≠ k → Mem.find t.leases j = Mem.find s.leases j) ∧ onlyFn { s with leases := t.leases } t f) ∧
      ((∃ i, leaseMask c i ∧ (s.ctx n).regions.length ≤ i) ∨
        (∃ i p, leaseMask c i ∧ (s.ctx n).regions[i]? = some p ∧ (s.region p).owner ≠ some n) ∨
        (∃ i p j l, leaseMask c i ∧ (s.ctx n).regions[i]? = some p ∧ Mem.find s.leases j = some l ∧ ∃ e ∈ l.regions, e.1 = p) ∨
        Mem.find s.sessions (s.ctx n).session ≠ some f → ∃ t, exec (.leaseCreate f seq) s = .next t ∧
          Answered s t f c 7 n 0 ∧ onlyFn s t f)) ∧
    (∀ l, acceptedCmd s f seq 0x17 c → Mem.find s.leases (cmdPar c 8 8) = some l → Mem.find s.sessions l.session = some f →
      ((∀ e ∈ l.regions, ¬ heldBySome s e.1) → ∃ t, exec (.leaseRelease f seq) s = .next t ∧ Answered s t f c 0 255 0 ∧
        Mem.find t.leases (cmdPar c 8 8) = none ∧ (∀ e ∈ l.regions, leaseEnds s t e.1) ∧
        (∀ p, (∀ e ∈ l.regions, e.1 ≠ p) → t.region p = s.region p) ∧
        (∀ j, j ≠ cmdPar c 8 8 → Mem.find t.leases j = Mem.find s.leases j) ∧ t.ctxs = s.ctxs ∧ t.cells = s.cells) ∧
      ((∃ e ∈ l.regions, heldBySome s e.1) → ∃ t, exec (.leaseRelease f seq) s = .next t ∧ Answered s t f c 3 255 0 ∧
        onlyFn s t f))

/-! ### Loads, launches, kills and dumps by command (chapters 09, 10 and 13) -/

namespace Sys2Proof.Machine

/-- Bytes `off` to `off + n - 1` of section entry `i` of an image: TYPE 0, UNIT 2, OFFSET 8, LENGTH 12 (Table 13.13). -/
def secNum (b : List Byte) (i off n : ℕ) : ℕ := imgNum b (64 + 16 * i + off) n

/-- Section entry `i` has this TYPE and UNIT. -/
def secIs (b : List Byte) (kind unit i : ℕ) : Prop := i < imgNum b 6 2 ∧ secNum b i 0 1 = kind ∧ secNum b i 2 2 = unit

/-- The route entry of route `r` stands at byte `o`, and is used. -/
def routeEntry (b : List Byte) (r o : ℕ) : Prop :=
  ∃ i, secIs b 4 0 i ∧ 1 ≤ r ∧ r ≤ 255 ∧ o = secNum b i 8 4 + 32 * (r - 1) ∧ imgNum b o 1 ≠ 0

/-- The port of hop `i` of the route entry at `o`: bits [4i + 3:4i] of its bytes 8 to 23. -/
def hopOf (b : List Byte) (o i : ℕ) : ℕ := imgNum b (o + 8) 16 / 2 ^ (4 * i) % 16

/-- The slot word of pair `k` of a port. -/
def slotOf (b : List Byte) (port k w : ℕ) : Prop := ∃ i, secIs b 5 port i ∧ k < 32 ∧ w = imgNum b (secNum b i 8 4 + 4 * k) 4

/-- Pair `k` of a port is owned or transit in the slot plan of an image. -/
def slotUsed (b : List Byte) (port k : ℕ) : Prop := ∃ w, slotOf b port k w ∧ w / 2 ^ 30 ≠ 0

/-- A port is the first hop of a route of the image. -/
def firstHop (b : List Byte) (port : ℕ) : Prop := ∃ r o, routeEntry b r o ∧ hopOf b o 0 = port

/-- The header breaks no check below Table 13.13, and LENGTH does not exceed IMAGE_LEN. -/
def headerFormat (s : State) (n : ℕ) (b : List Byte) : Prop :=
  let len := imgNum b 8 4
  let own := imgNum b 24 3 % 8
  64 ≤ b.length ∧ len ≤ b.length ∧ len ≤ (s.ctx n).imageLen ∧ 64 + 16 * imgNum b 6 2 ≤ len ∧
  b.take 4 = [0x59, 0x4C, 0x42, 0x33] ∧ imgNum b 4 2 = 1 ∧
  (crc32c ((b.take 12 ++ [0, 0, 0, 0] ++ b.drop 16).take len)).toNat = imgNum b 12 4 ∧
  1 ≤ imgNum b 27 1 ∧ imgNum b 27 1 ≤ 32 ∧ (imgNum b 31 1 = 1 ∨ imgNum b 31 1 = 2) ∧ imgNum b 32 2 ≠ 0xFFFF ∧
  imgNum b 38 1 ≤ 2 ∧ (imgNum b 39 1).testBit own = true ∧ (imgNum b 38 1 = 0 → imgNum b 39 1 = 2 ^ own) ∧
  ∀ i, 52 ≤ i → i < 64 → imgNum b i 1 = 0

/-- The route entry at `o` breaks no check below Table 13.13. -/
def routeFormat (b : List Byte) (o : ℕ) : Prop :=
  let hops := imgNum b o 1
  (hops = 0 ∧ ∀ i, i < 32 → imgNum b (o + i) 1 = 0) ∨
  (1 ≤ hops ∧ hops ≤ 32 ∧ (∀ i, 25 ≤ i → i < 32 → imgNum b (o + i) 1 = 0) ∧ (∀ i, i < hops → hopOf b o i ≠ 15) ∧
    (∀ i, hops ≤ i → i < 32 → hopOf b o i = 0) ∧
    imgNum b (o + 4) 4 = ((List.range hops).map (fun i =>
      if hopOf b o i ≤ 6 then 960 else 832 + 40 * imgNum b (34 + (hopOf b o i - 7) / 2) 1)).sum)

/-- The slot word `w` of a port breaks no check below Table 13.13. -/
def slotFormat (b : List Byte) (port w : ℕ) : Prop :=
  w = 0 ∨ ((w / 2 ^ 30 = 1 ∨ w / 2 ^ 30 = 2) ∧ w % 256 = 0 ∧ (∃ o, routeEntry b (w / 2 ^ 22 % 256) o ∧ hopOf b o 0 = port) ∧
    (w / 2 ^ 30 = 1 → w / 2 ^ 17 % 32 < imgNum b 27 1 ∧ w / 2 ^ 12 % 32 ≤ 23))

/-- The 64 queue configurations from byte `o` on are valid (R256). -/
def combFormat (b : List Byte) (o : ℕ) : Prop :=
  let w (q : ℕ) : ℕ := imgNum b (o + 8 * q) 8
  let last (q : ℕ) : ℕ := w q % 256 + w q / 256 % 16
  ∀ q, q < 64 → w q / 2 ^ 48 ≠ 0 → last q ≤ 255 ∧ w q / 2 ^ 12 % 2 ^ 13 = 0 ∧
    (w q / 2 ^ 40 % 256 = 0 → w q / 2 ^ 34 % 32 < imgNum b 27 1 ∧ w q / 2 ^ 29 % 32 ≤ 23) ∧
    (w q / 2 ^ 40 % 256 ≠ 0 → ∃ e, routeEntry b (w q / 2 ^ 40 % 256) e) ∧
    ∀ r, r < 64 → r ≠ q → w r / 2 ^ 48 ≠ 0 → last q < w r % 256 ∨ last r < w q % 256

/-- Section entry `i` breaks no check below Table 13.13. -/
def sectionFormat (b : List Byte) (i : ℕ) : Prop :=
  let unit := secNum b i 2 2
  let off := secNum b i 8 4
  let len := secNum b i 12 4
  let cellUnit := unit / 512 < imgNum b 27 1 ∧ unit / 16 % 32 ≤ 23
  secNum b i 1 1 = 0 ∧ secNum b i 4 4 = 0 ∧ off + len ≤ imgNum b 8 4 ∧
  ((secNum b i 0 1 = 1 ∧ cellUnit ∧ len ≤ 65536 ∧ len % 32 = 0) ∨
   (secNum b i 0 1 = 2 ∧ cellUnit ∧ len ≤ 16384 ∧ len % 4 = 0) ∨
   (secNum b i 0 1 = 3 ∧ unit < imgNum b 27 1 ∧ len = 512 ∧ combFormat b off) ∨
   (secNum b i 0 1 = 4 ∧ unit = 0 ∧ len = 8160 ∧ ∀ e, e < 255 → routeFormat b (off + 32 * e)) ∨
   (secNum b i 0 1 = 5 ∧ unit ≤ 14 ∧ len = 128 ∧ ∀ k, k < 32 → slotFormat b unit (imgNum b (off + 4 * k) 4)))

/-- Check 2 of R350: the image breaks no format check. -/
def imageFormat (s : State) (n : ℕ) (b : List Byte) : Prop :=
  headerFormat s n b ∧ (∀ i, i < imgNum b 6 2 → sectionFormat b i) ∧
  ∀ i j, i < j → j < imgNum b 6 2 → ¬ (secNum b i 0 1 = secNum b j 0 1 ∧ secNum b i 2 2 = secNum b j 2 2)

/-- The checks 2 to 5 of R350 on an image, each with the status of its failure. -/
def imageChecks (s : State) (n : Nat) (b : List Byte) : List (Prop × Nat) :=
  [(imageFormat s n b, 0x0010),
   (imgNum b 24 3 = s.lantern.address.toNat, 0x0011),
   (imgNum b 28 1 = 3 ∧ imgNum b 29 1 = 3 ∧ imgNum b 30 1 = 1, 0x0012),
   (imgNum b 31 1 = 1 ∨ (imgNum b 31 1 = 2 ∧ s.stepping = .b0), 0x0013),
   (∀ e ∈ s.ctxs, e.2.state = .free ∨ e.2.passedTag = false ∨ e.2.image.tag ≠ BitVec.ofNat 16 (imgNum b 32 2), 0x0014)]

/-- How many regions contexts of the functions that `mine` names own. -/
def ownedBy (s : State) (mine : FnRef → Bool) : ℕ :=
  ((List.range 32).filter (fun p => (s.region p).owner.any (fun m => mine (s.ctx m).owner))).length

/-- `k` more regions exceed no limit of R335; the handles of a VF count with this load's. -/
def inQuota (s : State) (f : FnRef) (k : ℕ) : Prop :=
  ownedBy s (fun g => decide (g.host = f.host)) + k ≤ (if f.host = 0 then s.lantern.od.h0Regions else s.lantern.od.h1Regions) ∧
  (f.fn ≠ 0 → (s.fn f).handles.length ≤ (s.fn f).maxContexts ∧
    ownedBy s (fun g => decide (g = f)) + k ≤ (s.fn f).maxRegions)

/-- The checks 6 and 7, which come once the load is the oldest that is not placed. -/
def placeChecks (s : State) (n : Nat) (b : List Byte) : List (Prop × Nat) :=
  let x := s.ctx n
  [(Mem.find s.sessions x.session = some x.owner, 0x0004),
   (inQuota s x.owner (imgNum b 27 1), 0x0005),
   (∀ p k, slotUsed b p k → (s.port p).state = .active ∧ ((s.port p).mode = 1 ∨ (s.port p).mode = 2), 0x0015),
   (∀ p, firstHop b p → (s.port p).state = .active, 0x0016),
   (∀ p, 7 ≤ p → p ≤ 14 → firstHop b p ∨ (∃ k, slotUsed b p k) →
     (s.port p).len.toNat ≤ 10 * imgNum b (34 + (p - 7) / 2) 1, 0x0017)]

/-- The first check that fails has this status. -/
def firstFails : List (Prop × ℕ) → ℕ → Prop
  | [], _ => False
  | e :: l, st => (¬ e.1 ∧ st = e.2) ∨ (e.1 ∧ firstFails l st)

/-- No check fails. -/
def allPass (l : List (Prop × ℕ)) : Prop := ∀ e ∈ l, e.1

/-- Region `p` is free for the placement of context `n` (R217): in service as the acceptance latched it, not in training again, not
owned, not CLEARING and not cleared since, in no lease of another session. -/
def freeFor (s : State) (n p : ℕ) : Prop :=
  ((s.ctx n).service.getD p (offered (s.region p), [])).1 = true ∧ (s.region p).retrain = [] ∧ (s.region p).owner = none ∧
  (s.region p).clearing = false ∧ p ∉ (s.ctx n).cleared ∧ ∀ k l, s.leaseOf p = some (k, l) → l.session = (s.ctx n).session

/-- The leased regions of the session that the placement of `k` logical regions binds: (physical, logical) pairs. -/
def claims (s : State) (n k : ℕ) : List (ℕ × ℕ) :=
  (s.leases.filter (fun e => decide (e.2.session = (s.ctx n).session))).flatMap (fun e => e.2.regions.filter (fun r => decide (r.2 < k)))

/-- The leased regions of the session can all be bound (the first loop of R218). -/
def leasesHold (s : State) (n k : ℕ) : Prop :=
  (∀ e ∈ claims s n k, freeFor s n e.1) ∧ ((claims s n k).map (·.2)).Nodup

/-- The candidates of R218 for the next logical region after those that `l` binds. -/
def freeChoice (s : State) (n k : ℕ) (l : List ℕ) (p : ℕ) : Prop :=
  p < 32 ∧ freeFor s n p ∧ s.leaseOf p = none ∧ p ∉ l ∧ ∀ e ∈ claims s n k, e.1 ≠ p

/-- The order of the candidates: thermal class, then number. -/
def rank (s : State) (n p : ℕ) : ℕ := 32 * (s.ctx n).classes.getD p 0 + p

/-- `l` binds logical regions 0, 1, … as R218 says: a leased one to its region, another one to the candidate of lowest rank. -/
def binds (s : State) (n k : ℕ) (l : List ℕ) : Prop :=
  ∀ i p, l[i]? = some p → (p, i) ∈ claims s n k ∨
    ((∀ q, (q, i) ∉ claims s n k) ∧ freeChoice s n k (l.take i) p ∧
      ∀ q, freeChoice s n k (l.take i) q → rank s n p ≤ rank s n q)

/-- R218 finds no region for a logical region. -/
def noRegions (s : State) (n k : ℕ) : Prop :=
  ∃ l, l.length < k ∧ binds s n k l ∧ (∀ q, (q, l.length) ∉ claims s n k) ∧ ∀ q, ¬ freeChoice s n k l q

/-- A slot pair of the image is one of a context that holds its masks (R221). -/
def slotsBusy (s : State) (b : List Byte) : Prop :=
  ∃ e ∈ s.ctxs, ∃ p k, slotUsed b p k ∧ Mem.find e.2.slots (32 * p + k) ≠ none

/-- The placement of an image fails with this result code (R218, R221, Table 9.6). -/
def placeFails (s : State) (n : ℕ) (b : List Byte) (code : ℕ) : Prop :=
  let k := imgNum b 27 1
  (¬ leasesHold s n k ∧ code = 2) ∨ (leasesHold s n k ∧ noRegions s n k ∧ code = 1) ∨
  (leasesHold s n k ∧ (∃ l, l.length = k ∧ binds s n k l) ∧ slotsBusy s b ∧ code = 3)

/-- Region `p` is bound as logical region `i` of context `n`, with the maps of R220. -/
def boundAs (s t : State) (n i p : ℕ) : Prop :=
  let z := if s.lantern.od.mapRotate = true then (s.region p).binds % 64 else 0
  (t.region p).owner = some n ∧ (t.region p).logical = i ∧ (t.region p).binds = (s.region p).binds + 1 ∧
  ∀ k, k < 8 → fld (t.region p).chmap (3 * k + 2) (3 * k) = k ^^^ (z % 8) ∧
    fld (t.region p).bankxor (4 * k + 3) (4 * k) = (z / 8 + 5 * k) % 16

/-- A memory of words of `w` bits holds what the section of this type and unit gives, 0 elsewhere (R60). -/
def memoryOf {w : ℕ} (b : List Byte) (kind unit : ℕ) (m : Mem (BitVec w)) : Prop :=
  (∀ i, secIs b kind unit i → ∀ a, Mem.rd 0 m a =
    if w / 8 * (a + 1) ≤ secNum b i 12 4 then BitVec.ofNat w (imgNum b (secNum b i 8 4 + w / 8 * a) (w / 8)) else 0) ∧
  ((∀ i, ¬ secIs b kind unit i) → ∀ a, Mem.rd 0 m a = 0)

/-- The route table, the slot plans and the queue configurations of context `n` are those of the image. -/
def plansOf (t : State) (n : ℕ) (b : List Byte) : Prop :=
  (∀ r o, routeEntry b r o → Mem.find (t.ctx n).routes r = some {
    hops := imgNum b o 1, ports := (List.range (imgNum b o 1)).map (hopOf b o), dest := imgNum b (o + 1) 3
    lat := imgNum b (o + 4) 4, ret := imgNum b (o + 24) 1 }) ∧
  (∀ r, (∀ o, ¬ routeEntry b r o) → Mem.find (t.ctx n).routes r = none) ∧
  (∀ p k w, p ≤ 14 → slotOf b p k w → w / 2 ^ 30 ≠ 0 → Mem.find (t.ctx n).slots (32 * p + k) = some {
    kind := w / 2 ^ 30, route := w / 2 ^ 22 % 256, cell := BitVec.ofNat 14 (w / 256) }) ∧
  (∀ p k, p ≤ 14 → k < 32 → ¬ slotUsed b p k → Mem.find (t.ctx n).slots (32 * p + k) = none) ∧
  ∀ r i q, secIs b 3 r i → r < imgNum b 27 1 → q < 64 →
    (Mem.rd {} (t.comb n r).qs q).cfg = BitVec.ofNat 64 (imgNum b (secNum b i 8 4 + 8 * q) 8) &&& 0xFFFFFFFFFE000FFF

/-- What the header of an image says (Table 13.12). -/
def headerSays (i : ImageInfo) (b : List Byte) : Prop :=
  i.binary = imgNum b 16 8 ∧ i.regions = imgNum b 27 1 ∧ i.profile = imgNum b 31 1 ∧ i.tag.toNat = imgNum b 32 2 ∧
  i.allow = [imgNum b 34 1, imgNum b 35 1, imgNum b 36 1, imgNum b 37 1] ∧ i.group = imgNum b 38 1 ∧ i.nodeMask = imgNum b 39 1 ∧
  i.dumpLaddr = imgNum b 40 8 ∧ i.dumpLen = imgNum b 48 4

/-- A map register shows the regions `l` (Table 9.9). -/
def mapShows (m : BitVec 192) (l : List ℕ) : Prop :=
  ∀ i, i < 32 → fld m (6 * i + 5) (6 * i) = match l[i]? with | some p => 32 + p | none => 0

/-- The class of a temperature in tenths of a degree (R217). -/
def classAt (s : State) (t : ℤ) : ℕ :=
  if t < 10 * s.lantern.od.class1 then 0 else if t < 10 * s.lantern.od.class2 then 1
  else if t < 10 * s.lantern.od.class3 then 2 else 3

/-- `c` is the class of region `p` by its hottest sensor. -/
def thermalIs (s : State) (p c : ℕ) : Prop :=
  (∀ k, k < 64 → Config.sensorRegion k = p → classAt s (Mem.rd 0 s.power.sensors k) ≤ c) ∧
  (c = 0 ∨ ∃ k, k < 64 ∧ Config.sensorRegion k = p ∧ classAt s (Mem.rd 0 s.power.sensors k) = c)

/-- A LOAD accepted before that of context `n`, of one cycle H0 first, is not placed yet (Table 9.3). -/
def waitsForAnother (s : State) (n : ℕ) : Prop :=
  let x := s.ctx n
  ∃ e ∈ s.ctxs, e.1 ≠ n ∧ e.2.state = .loading ∧ (e.2.acceptClk < x.acceptClk ∨ (e.2.acceptClk = x.acceptClk ∧
    (e.2.owner.host < x.owner.host ∨ (e.2.owner.host = x.owner.host ∧ e.2.acceptNum < x.acceptNum))))

/-- A KILL_NOTICE for the tag of an image has come since the LOAD of context `n` was accepted (R366). -/
def killedMeanwhile (s : State) (n : Nat) (b : List Byte) : Prop :=
  ∃ o ∈ s.oldKills, o.1 = BitVec.ofNat 16 (imgNum b 32 2) ∧ (s.ctx n).acceptDome ≤ o.2.1

/-- Context `n` is loading, and `c` is the LOAD of its function `f`. -/
def loadingBy (s : State) (n : Nat) (f : FnRef) (c : Cmd) : Prop :=
  (s.ctx n).state = .loading ∧ (s.ctx n).owner = f ∧ s.cmdsOn n 0x10 = [c] ∧ acceptedCmd s f c.seq 0x10 c ∧
  s.lantern.restarting = false ∧ s.cmdsOn n 0x15 = []

/-- The image of a LOAD that waits for its placement: the one that comes now and passes the checks 2 to 5, or the one read before. -/
def placing (s : State) (n : ℕ) (image : Option (List Byte)) (b : List Byte) : Prop :=
  ((s.ctx n).got = some b ∧ imageFormat s n b ∧ (imgNum b 31 1 = 1 ∨ s.stepping = .b0)) ∨
  ((s.ctx n).got = none ∧ image = some b ∧ allPass (imageChecks s n b) ∧ ¬ killedMeanwhile s n b)

/-- The handle is free again, and so is the context number; other contexts and the regions are as before. -/
def loadUndone (s t : State) (n : Nat) : Prop :=
  (t.ctx n).state = .free ∧ Mem.find (t.fn (s.ctx n).owner).handles (s.ctx n).handle = none ∧ t.regions = s.regions ∧
  (∀ m, m ≠ n → t.ctx m = s.ctx m) ∧ ∀ k : CellRef, k.ctx.val ≠ n → t.cell? k = s.cell? k

/-- A byte of a context's logical HBM. -/
def hbmByte (s : State) (x : Ctx) (a : Nat) : Nat :=
  fld (Mem.rd 0 (s.region (x.regions.getD (hbmRegion a) 0)).hbm (hbmOffset a / 64)) (8 * (hbmOffset a % 64) + 7) (8 * (hbmOffset a % 64))

/-- The bytes of a dump stand in the context's HBM area and have gone to its host area (R262). -/
def dumpWritten (s t : State) (n : Nat) (bytes : List Byte) : Prop :=
  let x := s.ctx n
  (∃ more, t.out = s.out ++ .dumpHost n x.dumpAddr (bytes.take x.dumpLen) :: more) ∧
  ∀ i b, i < x.image.dumpLen → bytes[i]? = some b → hbmOk x (x.image.dumpLaddr + i) 1 = true →
    hbmByte t x (x.image.dumpLaddr + i) = b.toNat

end Sys2Proof.Machine

/-- LOAD reads, checks, places and binds a binary or ends with the status of the first failing check; LAUNCH, KILL,
RELEASE and DUMP act as in Table 13.8 (13 Loading a binary, 13 Context states, Table 13.8, Table 13.11, Table 13.12,
Table 13.13, 09 The placement function, Table 9.3, Table 9.6, 10 Deadlock detection and dumps). Derived. The model's
readings: the layout of a dump is a free value (log entry 9); KILL starts its kill at once (log entry 47, DEDUCED) and
the comparison with kept KILL_NOTICEs is log entry 55; a section table beyond LENGTH, the own position in NODE_MASK
and two leases that claim one logical region are log entry 68; a region in HBM training again is not in service (log
entry 51); the order of records and events is log entry 46; cc in events is log entry 18. -/
def Obligations.LoadsLaunchesKillsReleasesAndDumps : Prop :=
  ∀ (f : FnRef) (c : Cmd) (n : Nat) (s : State), n < 32 →
    (acceptedCmd s f c.seq 0x10 c → Mem.find (s.fn f).handles (cmdHandle c) = none → Mem.find s.ctxs n = none →
      (∀ m, m < n → Mem.find s.ctxs m ≠ none) → ∃ t, exec (.load f c.seq) s = .next t ∧
        (t.ctx n).state = .loading ∧ (t.ctx n).owner = f ∧ (t.ctx n).handle = cmdHandle c ∧ (t.ctx n).session = cmdPar c 20 20 ∧
        (t.ctx n).dumpAddr = cmdPar c 24 31 ∧ (t.ctx n).dumpLen = cmdPar c 32 35 ∧ (t.ctx n).acceptDome = c.acceptedAt ∧
        (t.ctx n).acceptClk = c.acceptClk ∧ (t.ctx n).acceptNum = c.acceptNum ∧
        (∀ p, p < 32 → ∃ d, (t.ctx n).classes[p]? = some d ∧ thermalIs s p d ∧ (t.region p).thermal = d) ∧
        (∀ p, p < 32 → (t.ctx n).service[p]? = some (offered (s.region p), (s.region p).spares)) ∧
        (t.ctx n).imageLen = cmdPar c 16 19 ∧
        Mem.find (t.fn f).handles (cmdHandle c) = some n ∧ t.out = s.out ++ [.hostRead n (cmdPar c 8 15) (cmdPar c 16 19)] ∧
        (t.fn f).cmds = (s.fn f).cmds ∧ t.cells = s.cells ∧ (∀ m, m ≠ n → t.ctx m = s.ctx m) ∧
        ∀ p, (t.region p).owner = (s.region p).owner ∧ (t.region p).hbm = (s.region p).hbm) ∧
    (loadingBy s n f c → (s.ctx n).got = none → ∃ t, exec (.loadComplete (Fin.ofNat 32 n) none) s = .next t ∧ Answered s t f c 9 n 0 ∧
      loadUndone s t n) ∧
    (∀ b : List Byte, loadingBy s n f c → (s.ctx n).got = none →
      (∀ st, firstFails (imageChecks s n b) st → ∃ t, exec (.loadComplete (Fin.ofNat 32 n) (some b)) s = .next t ∧
        Answered s t f c st n 0 ∧ loadUndone s t n) ∧
      (allPass (imageChecks s n b) → killedMeanwhile s n b → ∃ t k, exec (.loadComplete (Fin.ofNat 32 n) (some b)) s = .next t ∧
        Answered { s with ctxs := t.ctxs } t f c 0x000A n 0 ∧ (t.ctx n).state = .killing ∧ (t.ctx n).kill = some k ∧
        k.code = 3 ∧ k.source = 3) ∧
      (allPass (imageChecks s n b) → ¬ killedMeanwhile s n b → waitsForAnother s n → ∃ t i,
        exec (.loadComplete (Fin.ofNat 32 n) (some b)) s = .next t ∧ headerSays i b ∧
        CtxBecomes s t n { s.ctx n with image := i, passedTag := true, got := some b })) ∧
    (∀ (b : List Byte) (image : Option (List Byte)), loadingBy s n f c → placing s n image b →
      ((s.ctx n).got = some b → waitsForAnother s n → exec (.loadComplete (Fin.ofNat 32 n) image) s = .next s) ∧
      (¬ waitsForAnother s n →
        (∀ st, firstFails (placeChecks s n b) st → ∃ t, exec (.loadComplete (Fin.ofNat 32 n) image) s = .next t ∧
          Answered s t f c st n 0 ∧ loadUndone s t n) ∧
        (∀ code, allPass (placeChecks s n b) → placeFails s n b code → ∃ t,
          exec (.loadComplete (Fin.ofNat 32 n) image) s = .next t ∧
          Answered s t f c (if code = 1 then 0x0018 else if code = 2 then 0x0007 else 0x0019) n 0 ∧ loadUndone s t n ∧
          Mem.find t.plcInfo n = some (BitVec.ofNat 32 (2 ^ 24 * code))) ∧
        (∀ l, allPass (placeChecks s n b) → l.Nodup → (∀ p ∈ l, p < 32) → leasesHold s n (imgNum b 27 1) → l.length = imgNum b 27 1 →
          binds s n (imgNum b 27 1) l → ¬ slotsBusy s b → ∃ t m, exec (.loadComplete (Fin.ofNat 32 n) image) s = .next t ∧
          mapShows m l ∧ Answered { s with ctxs := t.ctxs } t f c 0 n m.toNat ∧ Mem.find t.plcMap n = some m ∧
          Mem.find t.plcInfo n = some (BitVec.ofNat 32 l.length) ∧ (t.ctx n).state = .loaded ∧ (t.ctx n).regions = l ∧
          headerSays (t.ctx n).image b ∧ plansOf t n b ∧ (t.ctx n).runProfile = imgNum b 31 1 ∧
          ((t.ctx n).padded = true ↔ s.stepping = .b0 ∧ imgNum b 31 1 = 1) ∧
          (∀ i p, l[i]? = some p → boundAs s t n i p) ∧
          (∀ p, p ∉ l → t.region p = s.region p) ∧ (∀ m, m ≠ n → t.ctx m = s.ctx m) ∧
          ∀ i p k j, l[i]? = some p → k < 24 → j < 16 → ∃ q, t.cell? ⟨Fin.ofNat 32 n, cellIdOf i k j⟩ = some q ∧
            memoryOf b 1 (512 * i + 16 * k + j) q.imem ∧ memoryOf b 2 (512 * i + 16 * k + j) q.dmem ∧
            t.physCell (t.ctx n) (cellIdOf i k j) =
              ⟨Fin.ofNat 32 p, Fin.ofNat 24 k, Fin.ofNat 17 (if Mem.rd 0 (t.region p).spares k = j + 1 then 16 else j)⟩))) ∧
    (acceptedCmd s f c.seq 0x12 c → onContext s f c n → (s.ctx n).state = .loaded → s.power.thermalHold = false →
      s.power.supplyLow = false → s.power.overPower = false →
      (c.acceptedAt + 5000 ≤ cmdPar c 8 15 → ∃ t, exec (.launch f c.seq) s = .next t ∧ Answered s t f c 0 n 0 ∧
        t.ctx n = { s.ctx n with
          state := .armed, launch := cmdPar c 8 15, cc := 0
          haz := { (s.ctx n).haz with active := (s.ctx n).haz.enable } } ∧
        (∀ m, m ≠ n → t.ctx m = s.ctx m) ∧ onlyFn { s with ctxs := t.ctxs } t f) ∧
      (cmdPar c 8 15 < c.acceptedAt + 5000 → ∃ t, exec (.launch f c.seq) s = .next t ∧ Answered s t f c 0x0020 n 0 ∧
        onlyFn s t f)) ∧
    (acceptedCmd s f c.seq 0x13 c → onContext s f c n →
      (killable (s.ctx n) = true → c ∈ (s.fn f).cmds → ∃ t k, exec (.kill f c.seq) s = .next t ∧ (t.ctx n).state = .killing ∧
        (t.ctx n).kill = some k ∧ k.code = 1 ∧ k.source = 0 ∧ k.startDome = s.clock.dome ∧ k.startClk = s.clock.clk ∧
        ((s.ctx n).state = .loaded → s.cmdsOn n 0x15 = [] → c ∈ (t.fn f).cmds) ∧ (∀ m, m ≠ n → t.ctx m = s.ctx m) ∧ t.cells = s.cells) ∧
      ((s.ctx n).state = .killing → exec (.kill f c.seq) s = .next s) ∧
      ((s.ctx n).state ≠ .killing → killable (s.ctx n) = false → ∃ t, exec (.kill f c.seq) s = .next t ∧
        Answered s t f c 3 n 0 ∧ onlyFn s t f)) ∧
    (acceptedCmd s f c.seq 0x14 c → onContext s f c n → (s.ctx n).owner = f → (s.ctx n).handle = cmdHandle c →
      ((s.ctx n).state = .done ∨ (s.ctx n).state = .failed → ∃ t, exec (.release f c.seq) s = .next t ∧
        Answered s t f c 0 n 0 ∧ (t.ctx n).state = .free ∧ (t.ctx n).slots = [] ∧
        Mem.find (t.fn f).handles (cmdHandle c) = none ∧ t.regions = s.regions ∧ (∀ m, m ≠ n → t.ctx m = s.ctx m) ∧
        ∀ k : CellRef, k.ctx.val ≠ n → t.cell? k = s.cell? k) ∧
      ((s.ctx n).state = .loaded → noFencesPending s → ∃ t, exec (.release f c.seq) s = .next t ∧
        (t.ctx n).state = .free ∧ Mem.find (t.fn f).handles (cmdHandle c) = none ∧ regionsLeft s t n ∧
        ∀ m, m ≠ n → t.ctx m = s.ctx m)) ∧
    (acceptedCmd s f c.seq 0x15 c → onContext s f c n → (s.ctx n).state = .running → ∃ t, exec (.dump f c.seq) s = .next t ∧
      CtxBecomes s t n { s.ctx n with dumps := (s.ctx n).dumps ++ [2] }) ∧
    (acceptedCmd s f c.seq 0x15 c → onContext s f c n → (s.ctx n).state ≠ .running → ∃ t, exec (.dump f c.seq) s = .next t ∧
      Answered s t f c 0x000A n 0 ∧ onlyFn s t f) ∧
    (∀ cause rest, (s.ctx n).state = .running → (s.ctx n).dumps = cause :: rest → (s.ctx n).regions.Nodup →
      s.unrecoverable = false →
      ∃ t bytes, exec (.dumpDone (Fin.ofNat 32 n)) s = .next t ∧ dumpWritten s t n bytes ∧
        (∀ m, m ≠ n → t.ctx m = s.ctx m) ∧
        (cause = 2 → (s.ctx n).owner = f → s.cmdsOn n 0x15 = [c] → acceptedCmd s f c.seq 0x15 c →
          (t.ctx n).state = .running ∧ (t.ctx n).dumps = rest ∧
          Answered { s with out := s.out ++ [.dumpHost n (s.ctx n).dumpAddr (bytes.take (s.ctx n).dumpLen)] } t f c 0 n 0) ∧
        (cause ≤ 1 → (s.fn (s.ctx n).owner).events.length < 256 → ctxEventAdded s t n 3 0) ∧
        (cause = 1 → t.ctx n = { s.ctx n with dumps := rest }) ∧
        (cause = 0 → (t.ctx n).state = .killing ∧ ∃ k, (t.ctx n).kill = some k ∧ k.code = 0x0012 ∧ k.source = 4)) ∧
    ((s.ctx n).state ≠ .running ∨ (s.ctx n).dumps = [] ∨ s.unrecoverable = true →
      exec (.dumpDone (Fin.ofNat 32 n)) s = .next s)

/-! ### The object dictionary (chapters 09 and 15) -/

namespace Sys2Proof.Machine

/-- The entries that recovery serves (R396). -/
def servedDown (idx sub : ℕ) : Prop :=
  (idx = 0x1000 ∧ 1 ≤ sub ∧ sub ≤ 5) ∨ (idx = 0x8000 ∧ sub = 2) ∨ idx = 0x8003 ∨ idx = 0x8010 ∨ (idx = 0x8011 ∧ sub = 1)

/-- A request for an entry answers BUSY: during a restart, and in recovery or after a fatal failure for what is not served then, the
stage records after a fatal failure apart (R377, R396, R405). -/
def answersBusy (s : State) (idx sub : ℕ) : Prop :=
  (s.lantern.restarting = true ∧ s.lantern.recovery = false) ∨
  ((s.lantern.restarting = true ∨ s.bring.at_ = .recovery ∨ s.bring.at_ = .fatal) ∧ ¬ servedDown idx sub ∧
    ¬ (s.bring.at_ = .fatal ∧ idx = 0x7010))

/-- The path reaches the lantern, and the request is not answered BUSY. -/
def serves (s : State) (q : ReqPath) (idx sub : Nat) : Prop := s.pathOpen q = true ∧ ¬ answersBusy s idx sub

/-- The packets of an answer to the sender of the last request over port 15: header, then 64 bytes of the message each. -/
def packetsOf (l : Lantern) (msg : List Byte) : List (List Byte) :=
  let n := (msg.length + 63) / 64
  (List.range n).map (fun i =>
    [0x01, l.peerEid, l.eidLink,
      BitVec.ofNat 8 ((if i = 0 then 128 else 0) + (if i + 1 = n then 64 else 0) + 16 * (i % 4) + l.peerTag.toNat)] ++
    (msg.drop (64 * i)).take 64)

/-- A message goes out on the path: over port 15 its packets join the port's management queue as MGMT flits. -/
def mctpSent (s t : State) (q : ReqPath) (bytes : List Byte) : Prop :=
  (q = .port15 → t.out = s.out ∧ (∀ p, p ≠ 15 → t.port p = s.port p) ∧
    t.port 15 = (packetsOf s.lantern bytes).foldl (fun o pkt => enqueueLoose o 0xFFFF [mgmtFlit pkt]) (s.port 15)) ∧
  (q ≠ .port15 → t.out = s.out ++ [.mctp q bytes] ∧ t.ports = s.ports)

/-- Message type 0x7E and the vendor ID, most significant byte first (R378). -/
def messageHead : List Byte := [0x7E, BitVec.ofNat 8 (Config.vendorId.toNat / 256), BitVec.ofNat 8 Config.vendorId.toNat]

/-- The bytes of the response of Table 15.1, as a message. -/
def responseBytes (op : Nat) (tag : Byte) (status : Nat) (data : List Byte) : List Byte :=
  messageHead ++ [BitVec.ofNat 8 (op + 128), tag, BitVec.ofNat 8 status, 0, BitVec.ofNat 8 data.length,
    BitVec.ofNat 8 (data.length / 256)] ++ data

/-- The response of Table 15.1 goes out on the path. -/
def responded (s t : State) (q : ReqPath) (op : Nat) (tag : Byte) (status : Nat) (data : List Byte) : Prop :=
  mctpSent s t q (responseBytes op tag status data)

/-- A request is answered and changes nothing. -/
def onlyResponse (s t : State) (q : ReqPath) (op : Nat) (tag : Byte) (status : Nat) (data : List Byte) : Prop :=
  responded s t q op tag status data ∧ { t with out := s.out, ports := s.ports } = s

/-- The request with this operation: 1 READ, 2 WRITE, 3 INFO (Table 15.1). -/
def withOp (r : OdReq) (op : Byte) : OdReq := { r with op := op }

/-- Values of entries of Table 15.4: index, subindex, size in bytes, value. -/
def scalarEntries (s : State) : List (Nat × Nat × Nat × Int) :=
  let od := s.lantern.od
  ([(0x1000, 3, 1, if s.grade = .liquid then 1 else 2), (0x1000, 4, 1, if s.stepping = .a1 then 0xA1 else 0xB0),
   (0x1000, 6, 4, s.lantern.fwVersion), (0x1003, 0, 4, od.startCount), (0x1010, 0, 2, s.lantern.defaults.toNat),
   (0x1020, 1, 1, od.h0Regions), (0x1020, 2, 1, od.h1Regions), (0x2000, 1, 2, od.envelope), (0x2000, 2, 4, s.clock.groupKhz)] : List (Nat × Nat × Nat × Int)) ++
  ([(0x2000, 3, 4, if s.grade = .liquid then 1500000 else 900000), (0x3001, 5, 2, s.sensor 4), (0x3010, 1, 2, od.class1),
   (0x3010, 2, 2, od.class2), (0x3010, 3, 2, od.class3), (0x3011, 1, 2, od.holdC), (0x3011, 2, 2, od.releaseC),
   (0x4000, 1, 4, od.address.toNat), (0x4002, 0, 1, if od.mapRotate then 1 else 0), (0x4003, 0, 2, od.ceLimit)] : List (Nat × Nat × Nat × Int)) ++
  ([(0x4010, 0, 4, od.cellFences.length), (0x4011, 1, 4, od.regionFences.toNat), (0x5000, 4, 1, if s.stepping = .a1 then 1 else 2),
   (0x6002, 0, 2, od.retrainMs), (0x6010, 1, 1, od.timeMode), (0x6010, 2, 4, od.rootAddress.toNat),
   (0x7001, 1, 4, s.lantern.restarts), (0x7001, 2, 4, s.lantern.lost), (0x7020, 1, 4, od.quietCc), (0x7020, 2, 4, od.summaryNs),
   (0x7020, 3, 4, od.dumpMs), (0x7020, 4, 2, od.holdLimitMs), (0x7030, 0, 1, s.lantern.logNext), (0x8003, 1, 1, s.lantern.fuses),
   (0x8011, 2, 1, s.lantern.fwStatus)] : List (Nat × Nat × Nat × Int))

/-- The persistent scalars that M writes: index, subindex, size in bytes, group, range, and the value set (Table 15.4). -/
def writableEntries (g : Grade) (od : OdVals) (v : Nat) : List (Nat × Nat × Nat × Nat × Prop × OdVals) :=
  let i : Int := (BitVec.ofNat 16 v).toInt
  [(0x1020, 1, 1, 1, v ≤ 32, { od with h0Regions := v }), (0x1020, 2, 1, 1, v ≤ 32, { od with h1Regions := v }),
   (0x2000, 1, 2, 2, (if g = .liquid then 1600 ≤ v ∧ v ≤ 3400 else 1000 ≤ v ∧ v ≤ 1600) ∧ v % 100 = 0, { od with envelope := v }),
   (0x3010, 1, 2, 3, 0 ≤ i ∧ i ≤ 125 ∧ i < od.class2 ∧ od.class2 < od.class3, { od with class1 := i }),
   (0x3010, 2, 2, 3, 0 ≤ i ∧ i ≤ 125 ∧ od.class1 < i ∧ i < od.class3, { od with class2 := i }),
   (0x3010, 3, 2, 3, 0 ≤ i ∧ i ≤ 125 ∧ od.class1 < od.class2 ∧ od.class2 < i, { od with class3 := i }),
   (0x3011, 1, 2, 3, 80 ≤ i ∧ i ≤ 115 ∧ od.releaseC + 5 ≤ i, { od with holdC := i }),
   (0x3011, 2, 2, 3, i + 5 ≤ od.holdC, { od with releaseC := i }),
   (0x4000, 1, 4, 4, v < 2 ^ 18, { od with address := BitVec.ofNat 32 v }),
   (0x4002, 0, 1, 4, v ≤ 1, { od with mapRotate := decide (v = 1) }), (0x4003, 0, 2, 4, 1 ≤ v, { od with ceLimit := v }),
   (0x6002, 0, 2, 6, 1 ≤ v ∧ v ≤ 1000, { od with retrainMs := v }), (0x6010, 1, 1, 6, v ≤ 1, { od with timeMode := v }),
   (0x6010, 2, 4, 6, v < 2 ^ 18, { od with rootAddress := BitVec.ofNat 32 v }),
   (0x7020, 1, 4, 7, 256 ≤ v ∧ v ≤ 2 ^ 24, { od with quietCc := v }), (0x7020, 2, 4, 7, 1024 ≤ v ∧ v ≤ 2 ^ 20, { od with summaryNs := v }),
   (0x7020, 3, 4, 7, 1 ≤ v ∧ v ≤ 60000, { od with dumpMs := v }), (0x7020, 4, 2, 7, True, { od with holdLimitMs := v })]

/-- The check word of a copy of group `g`: CRC-32C of its values and its sequence number. -/
def checkWord (od : OdVals) (seq : Word) (g : Nat) : Word := crc32c (groupValues od g ++ bytesOf seq.toNat 4)

/-- The first copy of a group is in use: it is intact, and the other one is not, or has no higher sequence number. -/
def firstInUse (l : Lantern) (g : Nat) : Prop :=
  vecAt l.crcA g = checkWord l.copyA (vecAt l.seqA g) g ∧
  (vecAt l.crcB g ≠ checkWord l.copyB (vecAt l.seqB g) g ∨ vecAt l.seqB g ≤ vecAt l.seqA g)

/-- A group has been stored: the copy that is not in use takes the values with the next sequence number, and the wear is counted. -/
def groupStored (l m : Lantern) (g : Nat) : Prop :=
  vecAt m.wear g = vecAt l.wear g + 1 ∧ (∀ h, h < 8 → h ≠ g → vecAt m.wear h = vecAt l.wear h) ∧
  (firstInUse l g → vecAt m.seqB g = vecAt l.seqA g + 1 ∧ m.copyB = groupFrom g m.od l.copyB ∧
    vecAt m.crcB g = checkWord m.od (vecAt m.seqB g) g ∧ m.copyA = l.copyA ∧ m.seqA = l.seqA ∧ m.crcA = l.crcA) ∧
  (¬ firstInUse l g → vecAt m.seqA g = vecAt l.seqB g + 1 ∧ m.copyA = groupFrom g m.od l.copyA ∧
    vecAt m.crcA g = checkWord m.od (vecAt m.seqA g) g ∧ m.copyB = l.copyB ∧ m.seqB = l.seqB ∧ m.crcB = l.crcB)

/-- A request of the scalar at an index and subindex. -/
def scalarReq (r : OdReq) (idx sub : Nat) : Prop := r.index.toNat = idx ∧ r.sub.toNat = sub ∧ r.zero = 0 ∧ r.offset = 0

/-- What the request of a path class M may do. -/
def isM (q : ReqPath) : Prop := ∀ h n, q ≠ .vf h n

end Sys2Proof.Machine

/-- READ returns the entry, WRITE of a persistent entry checks class, length, range and endurance and stores its
group, INFO describes it; failures change nothing (Table 15.1, Table 15.2, Table 15.4, 15 Requests and responses, 15
Types and access, 15 Persistence, 15 Access paths). Derived. BUSY first, then the order of the other checks (log entry
61), STORE_ERROR from an operand of the command, the bytes under the check word and the counting of wear (log entries
44 and 94), the envelope that a new ENVELOPE_W changes at the agreed clock change (log entry 75), and the bytes around
a message on MCTP (log entry 59, PRESUMED from DSP0236 and DSP0239) are the model's choices. -/
def Obligations.ObjectDictionaryReadsWritesAndInfo : Prop :=
  ∀ (q : ReqPath) (r : OdReq) (s : State),
    (s.pathOpen q = false → exec (.odRead q (withOp r 1)) s = .next s ∧ exec (.odInfo q (withOp r 3)) s = .next s ∧
      ∀ data, exec (.odWrite q (withOp r 2) data false) s = .next s) ∧
    (s.pathOpen q = true → answersBusy s r.index.toNat r.sub.toNat →
      (∃ t, exec (.odRead q (withOp r 1)) s = .next t ∧ onlyResponse s t q 1 r.tag 6 []) ∧
      (∃ t, exec (.odInfo q (withOp r 3)) s = .next t ∧ onlyResponse s t q 3 r.tag 6 []) ∧
      ∀ data, ∃ t, exec (.odWrite q (withOp r 2) data false) s = .next t ∧ onlyResponse s t q 2 r.tag 6 []) ∧
    -- requests that arrive in one cycle: H0, H1, I3C, port 15
    (∀ l : List Instr, { s.arrive l with pending := s.pending } = s ∧ (s.arrive l).pending = s.pending ++
      l.filter (fun i => (requestPath i).isNone) ++
      ([0, 1, 2, 3] : List ℕ).flatMap (fun k => l.filter (fun i => decide ((requestPath i).map pathRank = some k)))) ∧
    (serves s q r.index.toNat r.sub.toNat →
      (r.op ≠ 1 → r.op ≠ 2 → r.op ≠ 3 → ∃ t, exec (.odRead q r) s = .next t ∧ onlyResponse s t q r.op.toNat r.tag 8 []) ∧
      (∀ idx sub size v, (idx, sub, size, v) ∈ scalarEntries s → scalarReq r idx sub →
        (size ≤ r.length.toNat → r.length.toNat ≤ 1024 → ∃ t, exec (.odRead q (withOp r 1)) s = .next t ∧
          onlyResponse s t q 1 r.tag 0 ((List.range size).map (fun k => BitVec.ofInt 8 (v / 256 ^ k)))) ∧
        (r.length.toNat < size → ∃ t, exec (.odRead q (withOp r 1)) s = .next t ∧ onlyResponse s t q 1 r.tag 4 [])) ∧
      (∀ sub, 1 ≤ sub → sub ≤ 12 → r.index.toNat = 0x7010 → r.sub.toNat = sub → r.zero = 0 → 1 ≤ r.length.toNat →
        r.offset.toNat + r.length.toNat ≤ 64 → ∃ t, exec (.odRead q (withOp r 1)) s = .next t ∧ onlyResponse s t q 1 r.tag 0
          ((List.range r.length.toNat).map (fun k =>
            let o := r.offset.toNat + k
            BitVec.ofNat 8 (fld (Mem.rd 0 s.bring.records (sub - 1)) (8 * o + 7) (8 * o))))) ∧
      (r.index.toNat = 0x8020 → r.sub.toNat = 2 → r.zero = 0 → 1 ≤ r.length.toNat → r.length.toNat ≤ 1024 →
        r.offset.toNat + r.length.toNat ≤ 4851 →
        (∀ a rep, Mem.find s.lantern.attest (pathKey q) = some a → a.report = some rep → ∃ t, exec (.odRead q (withOp r 1)) s = .next t ∧
          onlyResponse s t q 1 r.tag 0 ((rep.drop r.offset.toNat).take r.length.toNat)) ∧
        ((∀ a, Mem.find s.lantern.attest (pathKey q) = some a → a.report = none) → ∃ t, exec (.odRead q (withOp r 1)) s = .next t ∧
          onlyResponse s t q 1 r.tag 6 [])) ∧
      (r.zero = 0 → r.index.toNat = 0x4012 → r.sub.toNat = 1 ∨ r.sub.toNat = 2 → ∃ t, exec (.odRead q (withOp r 1)) s = .next t ∧
        onlyResponse s t q 1 r.tag 2 []) ∧
      (r.zero ≠ 0 → (∃ t, exec (.odRead q (withOp r 1)) s = .next t ∧ onlyResponse s t q 1 r.tag 8 []) ∧
        ∀ data, ∃ t, exec (.odWrite q (withOp r 2) data false) s = .next t ∧ onlyResponse s t q 2 r.tag 8 []) ∧
      (r.zero = 0 → r.index.toNat < 0x1000 →
        (∃ t, exec (.odRead q (withOp r 1)) s = .next t ∧ onlyResponse s t q 1 r.tag 1 []) ∧
        (∃ t, exec (.odInfo q (withOp r 3)) s = .next t ∧ onlyResponse s t q 3 r.tag 1 []) ∧
        ∀ data, ∃ t, exec (.odWrite q (withOp r 2) data false) s = .next t ∧ onlyResponse s t q 2 r.tag 1 []) ∧
      (∀ idx sub size v g ok od data, (idx, sub, size, g, ok, od) ∈ writableEntries s.grade s.lantern.od v → scalarReq r idx sub →
        v = natOfBytes data →
        (isM q → r.length.toNat = size → data.length = size →
          (ok → od ≠ s.lantern.od → vecAt s.lantern.wear g < 1000000 → ∃ t, exec (.odWrite q (withOp r 2) data false) s = .next t ∧
            t.lantern.od = od ∧ groupStored s.lantern t.lantern g ∧ t.lantern.address = s.lantern.address ∧
            (idx ≠ 0x2000 → responded s t q 2 r.tag 0 [] ∧ t.clock = s.clock ∧ t.ctxs = s.ctxs ∧ t.cells = s.cells) ∧
            (idx ≠ 0x2000 → idx ≠ 0x4003 → { t with out := s.out, ports := s.ports, lantern := s.lantern } = s) ∧
            (idx = 0x2000 → ∃ u : State, responded u t q 2 r.tag 0 [] ∧ u.out = s.out ∧ u.clock.envelope = s.clock.envelope ∧
              u.clock.khz = s.clock.khz ∧ (s.clock.on = true → u.clock.proposed = u.lowestCap) ∧
              (s.clock.on = false → u.clock = s.clock ∧ u.ports = s.ports))) ∧
          (ok → od ≠ s.lantern.od → vecAt s.lantern.wear g < 1000000 → ∃ t, exec (.odWrite q (withOp r 2) data true) s = .next t ∧
            onlyResponse s t q 2 r.tag 10 []) ∧
          (ok → od = s.lantern.od → ∃ t, exec (.odWrite q (withOp r 2) data false) s = .next t ∧ onlyResponse s t q 2 r.tag 0 []) ∧
          (ok → od ≠ s.lantern.od → 1000000 ≤ vecAt s.lantern.wear g → ∃ t, exec (.odWrite q (withOp r 2) data false) s = .next t ∧
            onlyResponse s t q 2 r.tag 7 []) ∧
          (¬ ok → ∃ t, exec (.odWrite q (withOp r 2) data false) s = .next t ∧ onlyResponse s t q 2 r.tag 3 [])) ∧
        (isM q → r.length.toNat ≠ size → ∃ t, exec (.odWrite q (withOp r 2) data false) s = .next t ∧ onlyResponse s t q 2 r.tag 4 []) ∧
        (¬ isM q → ∃ t, exec (.odWrite q (withOp r 2) data false) s = .next t ∧ onlyResponse s t q 2 r.tag 2 []) ∧
        (16 ≤ r.length.toNat → r.length.toNat ≤ 1024 → ∃ (t : State) (info : List Byte), exec (.odInfo q (withOp r 3)) s = .next t ∧
          onlyResponse s t q 3 r.tag 0 info ∧ info.length = 16 ∧ info[2]? = some (BitVec.ofNat 8 g) ∧
          (info[1]?.map (fun b => b.getLsbD 7)) = some true ∧ info[4]? = some (BitVec.ofNat 8 size))) ∧
      (∀ idx sub size v data, (idx, sub, size, v) ∈ scalarEntries s → (∀ g od w e, e ∈ writableEntries g od w → (e.1, e.2.1) ≠ (idx, sub)) →
        scalarReq r idx sub → ∃ t, exec (.odWrite q (withOp r 2) data false) s = .next t ∧ onlyResponse s t q 2 r.tag 5 []))

namespace Sys2Proof.Machine

/-- The record of a fence of a cell or a region (R391, R392). -/
def fenceWord (w : Word) (p : Nat) (cell : Option (Nat × Nat)) (cause : Nat) : Prop :=
  fld w 28 24 = p ∧ fld w 7 0 = cause ∧ fld w 30 29 = 0 ∧ fld w 13 8 = 0 ∧
  match cell with
  | some (b, k) => fld w 23 19 = b ∧ fld w 18 14 = k
  | none => fld w 23 14 = 0

/-- The next record of the log is written, with this code (R393). -/
def logged (s t : State) (code : Nat) : Prop :=
  ∃ r, Mem.find t.lantern.log s.lantern.logNext = some r ∧ r.code = code ∧ r.seq = s.lantern.logSeq + 1 ∧
    r.start = t.lantern.od.startCount ∧ r.crc = crc32c (bytesOf r.seq 4 ++ bytesOf r.start 4 ++ bytesOf r.dome 8 ++ bytesOf r.code 2 ++
      List.replicate 6 0 ++ bytesOf r.arg 8)

/-- No record of cell `c` stands. -/
def cellUnrecorded (s : State) (c : PhysCell) : Prop := ∀ w ∈ s.lantern.od.cellFences, sameCell w c = false

/-- Rows, or words, that stand at the position of cell `c`, `size` to a position. -/
def rowsAt {α : Type} (c : Option PhysCell) (size : ℕ) (m : Mem α) : Mem α :=
  m.filter (fun e => c.any (fun c => decide (e.1 / size = 17 * c.block.val + c.pos.val)))

/-- No context changes, but that the loads under way keep a fence of a region no context owns, and the leased rows that it takes, to
withdraw it where their placement takes the region by the map of their acceptance (Table 9.3). -/
def fenceHeard (s t : State) (p : ℕ) (c : Option PhysCell) (cause : ℕ) : Prop :=
  ((s.region p).owner ≠ none → t.ctxs = s.ctxs) ∧
  (∀ n, (s.ctx n).state ≠ .loading → t.ctx n = s.ctx n) ∧
  ∀ n, (s.region p).owner = none → (s.ctx n).state = .loading →
    t.ctx n = { s.ctx n with
      fences := (s.ctx n).fences ++ [(p, c, cause)]
      keptRows := (s.ctx n).keptRows ++ (rowsAt c 1024 (s.region p).kept).map (fun e => (p, e))
      keptErrs := (s.ctx n).keptErrs ++ (rowsAt c 65536 (s.region p).scrubErr).map (fun e => (p, e)) }

/-- A cell is fenced persistently: a record in group 5, logged, and the spare stands in, or the fence waits (R223, R391). -/
def cellFenced (s t : State) (c : PhysCell) (cause : Nat) : Prop :=
  (∃ w, t.lantern.od = { s.lantern.od with cellFences := s.lantern.od.cellFences ++ [w] } ∧ w.getLsbD 31 = true ∧
    fenceWord w c.region.val (some (c.block.val, c.pos.val)) cause) ∧
  groupStored s.lantern t.lantern 5 ∧ logged s t 1 ∧
  ((s.region c.region.val).owner = none → Mem.rd 0 (s.region c.region.val).spares c.block.val = 0 →
    Mem.rd 0 (t.region c.region.val).spares c.block.val = c.pos.val + 1 ∧
    (t.region c.region.val).fenced = (s.region c.region.val).fenced) ∧
  ((s.region c.region.val).owner ≠ none → t.region c.region.val = { s.region c.region.val with
    pendingFences := (s.region c.region.val).pendingFences ++ [(some c, cause)] }) ∧
  (∀ p, p ≠ c.region.val → t.region p = s.region p) ∧ fenceHeard s t c.region.val (some c) cause

/-- A region is fenced persistently. -/
def regionFencedFor (s t : State) (p cause : Nat) : Prop :=
  t.lantern.od.regionFences.getLsbD p = true ∧ Mem.rd 0 t.lantern.od.regionCause p = cause ∧
  (∀ j, j ≠ p → t.lantern.od.regionFences.getLsbD j = s.lantern.od.regionFences.getLsbD j) ∧
  groupStored s.lantern t.lantern 5 ∧ logged s t 1 ∧
  ((s.region p).owner = none → (t.region p).fenced = true) ∧
  ((s.region p).owner ≠ none → (t.region p).fenced = (s.region p).fenced ∧
    (t.region p).pendingFences = (s.region p).pendingFences ++ [(none, cause)]) ∧
  (∀ j, j ≠ p → t.region j = s.region j) ∧ fenceHeard s t p none cause

/-- Group 5 and the log can be written, and the records have room. -/
def fencesKept (s : State) : Prop :=
  vecAt s.lantern.wear 5 < 1000000 ∧ s.lantern.logStopped = false ∧ s.lantern.od.cellFences.length < 255

end Sys2Proof.Machine

/-- Fences of units and of FENCE are recorded, logged and take effect at once or when the region leaves its context;
UNFENCE removes the record only (15 Fences, Table 15.6, 09 Fencing, 15 The lantern, 15 Persistent log, 15
Persistence). Derived. A target that has a record already changes nothing (log entry 51); bits [7:0] of a FENCE are
ignored, nonzero reserved bits answer VALUE_OUT_OF_RANGE, and an UNFENCE is logged where a record goes (log entry 61);
the copy that a store rewrites (log entry 94) and the bytes under its check word (log entry 44) are the model's
choices too. -/
def Obligations.FencesAreRecordedAndTakeEffect : Prop :=
  ∀ s : State,
    (s.lantern.restarting = false → fencesKept s → ∀ c : PhysCell, cellUnrecorded s c →
      (∃ t, exec (.fenceRecord (.residueCell c)) s = .next t ∧ cellFenced s t c 2) ∧
      (∃ t, exec (.fenceRecord (.uncorrectable c)) s = .next t ∧ cellFenced s t c 3) ∧
      (∃ t, exec (.fenceRecord (.ceLimit c)) s = .next t ∧ cellFenced s t c 4)) ∧
    (s.lantern.restarting = false → fencesKept s → ∀ p : Fin 32, s.lantern.od.regionFences.getLsbD p.val = false →
      (∃ t, exec (.fenceRecord (.residueComb p)) s = .next t ∧ regionFencedFor s t p.val 5) ∧
      (∃ t, exec (.fenceRecord (.secondHbmUe p)) s = .next t ∧ regionFencedFor s t p.val 7)) ∧
    (s.lantern.restarting = true → ∀ e : FenceEvent,
      (s.lantern.buffered.length < 256 → ∃ t, exec (.fenceRecord e) s = .next t ∧
        t.lantern = { s.lantern with buffered := s.lantern.buffered ++ [e] } ∧
        { t with lantern := s.lantern, reports := s.reports } = s) ∧
      (256 ≤ s.lantern.buffered.length → ∃ t, exec (.fenceRecord e) s = .next t ∧
        t.lantern = { s.lantern with lost := s.lantern.lost + 1 } ∧ { t with lantern := s.lantern, reports := s.reports } = s)) ∧
    (∀ (q : ReqPath) (tag : Byte) (w : Word), serves s q 0x4012 1 → serves s q 0x4012 2 →
      (∀ c : PhysCell, isM q → w.getLsbD 31 = false → fenceWord w c.region.val (some (c.block.val, c.pos.val)) (fld w 7 0) →
        (fencesKept s → cellUnrecorded s c → ∃ t, exec (.fence q tag w false) s = .next t ∧ responded s t q 2 tag 0 [] ∧
          cellFenced s t c 8) ∧
        (vecAt s.lantern.wear 5 < 1000000 → ¬ cellUnrecorded s c → ∃ t, exec (.fence q tag w false) s = .next t ∧
          onlyResponse s t q 2 tag 0 []) ∧
        (1000000 ≤ vecAt s.lantern.wear 5 → ∃ t, exec (.fence q tag w false) s = .next t ∧ onlyResponse s t q 2 tag 7 []) ∧
        (fencesKept s → ¬ cellUnrecorded s c → ∃ t, exec (.unfence q tag w false) s = .next t ∧ responded s t q 2 tag 0 [] ∧
          t.lantern.od = { s.lantern.od with cellFences := s.lantern.od.cellFences.filter (fun x => !sameCell x c) } ∧
          groupStored s.lantern t.lantern 5 ∧ logged s t 2 ∧ t.regions = s.regions ∧ t.ctxs = s.ctxs) ∧
        (cellUnrecorded s c → ∃ t, exec (.unfence q tag w false) s = .next t ∧ onlyResponse s t q 2 tag 0 [])) ∧
      (∀ p, isM q → w.getLsbD 31 = true → fenceWord w p none (fld w 7 0) →
        (fencesKept s → s.lantern.od.regionFences.getLsbD p = false → ∃ t, exec (.fence q tag w false) s = .next t ∧
          responded s t q 2 tag 0 [] ∧ regionFencedFor s t p 8) ∧
        (fencesKept s → s.lantern.od.regionFences.getLsbD p = true → ∃ t, exec (.unfence q tag w false) s = .next t ∧
          responded s t q 2 tag 0 [] ∧ (∀ j, t.lantern.od.regionFences.getLsbD j = (s.lantern.od.regionFences.getLsbD j && decide (j ≠ p))) ∧
          groupStored s.lantern t.lantern 5 ∧ logged s t 2 ∧ t.regions = s.regions ∧ t.ctxs = s.ctxs)) ∧
      (isM q → (w.getLsbD 31 = false ∧ (24 ≤ fld w 23 19 ∨ 17 ≤ fld w 18 14)) ∨ (w.getLsbD 31 = true ∧ fld w 23 14 ≠ 0) →
        (∃ t, exec (.fence q tag w false) s = .next t ∧ onlyResponse s t q 2 tag 3 []) ∧
        (∃ t, exec (.unfence q tag w false) s = .next t ∧ onlyResponse s t q 2 tag 3 [])) ∧
      (¬ isM q → (∃ t, exec (.fence q tag w false) s = .next t ∧ onlyResponse s t q 2 tag 2 []) ∧
        (∃ t, exec (.unfence q tag w false) s = .next t ∧ onlyResponse s t q 2 tag 2 [])))

/-! ### Firmware, attestation and MCTP (chapter 15) -/

namespace Sys2Proof.Machine

/-- A byte of a firmware slot. -/
def slotByte (f : FwSlot) (a : Nat) : Byte := Mem.rd 0 f.bytes a

/-- Nothing but the lantern and what the module sends out differs. -/
def onlyLantern (s t : State) : Prop := { t with out := s.out, ports := s.ports, lantern := s.lantern } = s

/-- A control message is answered, and nothing else changes. -/
def onlyAnswer (s t : State) (m : Medium) (bytes : List Byte) : Prop :=
  mctpSent s t (mediumPath m) bytes ∧ { t with out := s.out, ports := s.ports } = s

/-- The bytes of a number, least significant first. -/
def littleEndian (v n : Nat) : List Byte := (List.range n).map (fun k => BitVec.ofNat 8 (v / 256 ^ k))

/-- The 32 bytes of SERIAL (Table 15.3). -/
def serialOf : List Byte := (List.range 32).map (fun i => Config.serial.getD i 0 &&& 0x7F)

/-- Bytes 0 to 223 of a report (Table 15.9). -/
def reportHead (s : State) (nonce : BitVec 256) : List Byte :=
  let l := s.lantern
  let slot := if l.runningB then l.slotB else l.slotA
  [0x59, 0x41, 0x54, 0x52] ++ littleEndian 1 2 ++ littleEndian 4851 2 ++ littleEndian nonce.toNat 32 ++ serialOf ++
  [if s.grade = .liquid then 1 else 2, if s.stepping = .a1 then 0xA1 else 0xB0] ++ littleEndian l.od.address.toNat 3 ++ [0, 0, 0] ++
  littleEndian (if s.stepping = .a1 then 0x03030111 else 0x03030123) 4 ++ littleEndian l.fwVersion 4 ++ littleEndian l.runSv 1 ++
  littleEndian l.fuses 1 ++ [if l.runningB then 1 else 0, 0] ++ littleEndian s.inService.toNat 4 ++ sha3 slot.image ++
  (sha3 (([1, 2, 3, 4, 5, 6, 7] : List ℕ).flatMap (groupValues l.od))).take 56 ++ littleEndian s.clock.dome 8

/-- A report of Table 15.9 for a nonce, with the module's signature over the digest of its first part. -/
def reportFor (s : State) (nonce : BitVec 256) (rep : List Byte) : Prop :=
  ∃ rnd, rep = reportHead s nonce ++ mlSign Config.identitySeed (sha3 (reportHead s nonce)) rnd

/-- OD 0x8002.00: the root's signature over the digest of IDENTITY_KEY followed by SERIAL (R398). -/
def certOf : List Byte := mlSign Config.rootSeed (sha3 ((mlKey Config.identitySeed).pub ++ serialOf)) Config.certRandom

/-- A DOE data object: vendor ID, type, a reserved byte, its length in double words, its bytes. -/
def dataObject (vendor : ℕ) (type : Byte) (l : List Byte) : List Byte :=
  littleEndian vendor 2 ++ [type, 0] ++ littleEndian ((l.length + 3) / 4 + 2) 4 ++ l ++ List.replicate ((4 - l.length % 4) % 4) 0

/-- The lantern is in recovery, from its start or from a restart. -/
def inRecovery (s : State) : Prop := s.bring.at_ = .recovery ∨ s.lantern.recovery = true

/-- The request that bytes spell (Table 15.1). -/
structure Spells (r : OdReq) (b : List Byte) : Prop where
  op : r.op = b.getD 0 0
  tag : r.tag = b.getD 1 0
  index : r.index.toNat = natOfBytes ((b.drop 2).take 2)
  sub : r.sub = b.getD 4 0
  zero : r.zero = b.getD 5 0
  offset : r.offset.toNat = natOfBytes ((b.drop 6).take 4)
  length : r.length.toNat = natOfBytes ((b.drop 10).take 2)

/-- The lantern when a message of one packet has come over port 15: the packets of the same sender and tag are gone, and the answer
will go to its sender. -/
def heardFrom (l m : Lantern) (b : List Byte) : Prop :=
  m.peerEid = b.getD 2 0 ∧ m.peerTag.toNat = (b.getD 3 0).toNat % 8 ∧
  { m with inbox := l.inbox, peerEid := l.peerEid, peerTag := l.peerTag } = l ∧
  ∀ o, o ∈ m.inbox ↔ o ∈ l.inbox ∧ ¬ (o.getD 2 0 = b.getD 2 0 ∧ (o.getD 3 0).toNat % 16 = (b.getD 3 0).toNat % 16)

/-- A control message of a medium is answered. -/
def controlled (s : State) (m : Medium) : Prop := s.pathOpen (mediumPath m) = true ∧ s.lantern.restarting = false

end Sys2Proof.Machine

/-- Firmware images reach the inactive slot and are committed when they verify; reports answer the last nonce; control
messages and a lantern restart act as stated (15 Firmware, 15 Identity and attestation, Table 15.9, Table 15.1, 15
Access paths, 15 The lantern). Derived. The bytes of MCTP packets, control messages and their responses are PRESUMED
from DSP0236 and DSP0239 (log entry 59), the header of DOE data objects and Discovery from PCI Express (log entry 62),
digests and signatures from FIPS 202 and FIPS 204 (log entry 60). Which checks come first (log entry 61) and what
recovery after a restart serves (log entry 67) are the model's choices too. -/
def Obligations.FirmwareAttestationAndManagement : Prop :=
  ∀ s : State,
    (∀ (q : ReqPath) (tag : Byte) (off : Nat) (data : List Byte), serves s q 0x8010 0 → isM q → 1 ≤ data.length →
      data.length ≤ 1024 → off + data.length ≤ 8388608 → ∃ t, exec (.fwImage q tag off data false) s = .next t ∧
        responded s t q 2 tag 0 [] ∧ t.lantern.fwStatus = 0 ∧ t.lantern.committed = false ∧ onlyLantern s t ∧
        (∀ a, slotByte t.lantern.spareSlot a = if off ≤ a ∧ a < off + data.length then data.getD (a - off) 0
          else slotByte s.lantern.spareSlot a) ∧
        (if s.lantern.activeB then t.lantern.slotB = s.lantern.slotB else t.lantern.slotA = s.lantern.slotA) ∧
        t.lantern.activeB = s.lantern.activeB ∧ t.lantern.od = s.lantern.od) ∧
    (∀ (q : ReqPath) (tag v : Byte), serves s q 0x8011 1 → isM q →
      (v ≠ 1 → ∃ t, exec (.fwCommit q tag v false) s = .next t ∧ onlyResponse s t q 2 tag 3 []) ∧
      (v = 1 → s.lantern.spareSlot.check s.lantern.fuses ≠ 0 → ∃ t, exec (.fwCommit q tag v false) s = .next t ∧
        responded s t q 2 tag 9 [] ∧ t.lantern.fwStatus = 2 ∧ t.lantern.committed = false ∧
        t.lantern.slotA = s.lantern.slotA ∧ t.lantern.slotB = s.lantern.slotB ∧ onlyLantern s t) ∧
      (v = 1 → s.lantern.spareSlot.check s.lantern.fuses = 0 → s.lantern.logStopped = false →
        (¬ inRecovery s → ∃ t, exec (.fwCommit q tag v false) s = .next t ∧ responded s t q 2 tag 0 [] ∧
          t.lantern.fwStatus = 1 ∧ t.lantern.committed = true ∧ t.lantern.runningB = s.lantern.runningB ∧ logged s t 7 ∧
          onlyLantern s t) ∧
        (inRecovery s → q = .i3c → ∃ t, exec (.fwCommit q tag v false) s = .next t ∧
          t.out = s.out ++ [.mctp q (responseBytes 2 tag 0 [])] ∧ t.bring.at_ = .stage 0 ∧ t.lantern.committed = true ∧ t.lantern.slotA = s.lantern.slotA ∧
          t.lantern.slotB = s.lantern.slotB ∧ logged s { t with lantern := { t.lantern with od := s.lantern.od } } 7))) ∧
    (∀ (q : ReqPath) (tag : Byte) (nonce : BitVec 256), serves s q 0x8020 1 → ∃ (t : State) (a : Attest), exec (.attestNonce q tag nonce) s = .next t ∧
      responded s t q 2 tag 0 [] ∧ Mem.find t.lantern.attest (pathKey q) = some a ∧ a.nonce = nonce ∧ a.report = none ∧
      (∀ k, k ≠ pathKey q → Mem.find t.lantern.attest k = Mem.find s.lantern.attest k) ∧ onlyLantern s t) ∧
    (∀ (q : ReqPath) a, Mem.find s.lantern.attest (pathKey q) = some a → a.report = none → s.lantern.restarting = false →
      ∃ (t : State) (b : Attest) (rep : List Byte), exec (.attestReport q) s = .next t ∧ Mem.find t.lantern.attest (pathKey q) = some b ∧ b.nonce = a.nonce ∧
        b.report = some rep ∧ reportFor s a.nonce rep ∧ t.out = s.out ∧ t.ports = s.ports ∧ onlyLantern s { t with free := s.free } ∧
        ∀ k, k ≠ pathKey q → Mem.find t.lantern.attest k = Mem.find s.lantern.attest k) ∧
    (∀ (h : Fin 2) (nonce : BitVec 256), s.pathOpen (.pf h) = true → s.lantern.restarting = false → ∃ (t : State) (rep : List Byte),
      exec (.doeRequest h (.attest nonce)) s = .next t ∧
      t.out = s.out ++ [.doe h (dataObject Config.vendorId.toNat 1 (rep ++ certOf))] ∧
      reportFor s nonce rep ∧ { t with out := s.out, free := s.free } = s) ∧
    (∀ (h : Fin 2) (i : Byte), s.pathOpen (.pf h) = true → s.lantern.restarting = false → ∃ t,
      exec (.doeRequest h (.discovery i)) s = .next t ∧ { t with out := s.out } = s ∧
      (i = 0 → t.out = s.out ++ [.doe h (dataObject 1 0 [0x01, 0x00, 0x00, 0x01])]) ∧
      (i = 1 → t.out = s.out ++ [.doe h (dataObject 1 0 (littleEndian Config.vendorId.toNat 2 ++ [0x01, 0x00]))]) ∧
      (i ≠ 0 → i ≠ 1 → t.out = s.out ++ [.doe h (dataObject 1 0 [0xFF, 0xFF, 0x00, 0x00])])) ∧
    (∀ (h : Fin 2) (o : DoeObject), s.pathOpen (.pf h) = false ∨ s.lantern.restarting = true →
      exec (.doeRequest h o) s = .next s) ∧
    -- a message of one packet that port 15 brings is served like the command of its request
    (∀ (f : Flit) (rest : List Flit) (b req : List Byte) (d : OdReq), (s.port 15).rx = f :: rest → s.unrecoverable = false →
      f.mtype = 0x18 → f.cls = 3 → s.pathOpen .port15 = true → packetOf f b → (b.getD 0 0).toNat % 16 = 1 →
      b.getD 1 0 = 0 ∨ b.getD 1 0 = s.lantern.eidLink → (b.getD 3 0).getLsbD 7 = true → (b.getD 3 0).getLsbD 6 = true →
      b.drop 4 = messageHead ++ req → Spells d req → ∃ u : State,
        (∀ p, p ≠ 15 → u.port p = s.port p) ∧
        u.port 15 = { s.port 15 with rx := rest, looseBuf := (s.port 15).looseBuf - 1, retLoose := (s.port 15).retLoose + 1 } ∧
        heardFrom s.lantern u.lantern b ∧ { u with ports := s.ports, lantern := s.lantern } = s ∧
        (d.op ≠ 2 → exec (.mgmt 15) s = exec (.odRead .port15 d) u) ∧
        (d.op = 3 → exec (.mgmt 15) s = exec (.odInfo .port15 d) u) ∧
        (d.op = 2 → exec (.mgmt 15) s = exec (.odWrite .port15 d (req.drop 12) false) u)) ∧
    (∀ (m : Medium) (i : BitVec 5), controlled s m →
      (∀ e : Byte, e ≠ 0 → e ≠ 0xFF → ∃ t, exec (.setEndpointId ⟨m, i⟩ e) s = .next t ∧ t.lantern.eid m = e ∧
        (∀ o, o ≠ m → t.lantern.eid o = s.lantern.eid o) ∧ onlyLantern s t ∧ t.lantern.od = s.lantern.od ∧
        mctpSent { s with lantern := t.lantern } t (mediumPath m) [0x00, i.setWidth 8, 0x01, 0x00, 0x00, e, 0x00]) ∧
      (∀ e : Byte, e = 0 ∨ e = 0xFF → ∃ t, exec (.setEndpointId ⟨m, i⟩ e) s = .next t ∧
        onlyAnswer s t m [0x00, i.setWidth 8, 0x01, 0x02]) ∧
      (∃ t, exec (.getEndpointId ⟨m, i⟩) s = .next t ∧
        onlyAnswer s t m [0x00, i.setWidth 8, 0x02, 0x00, s.lantern.eid m, 0x00, 0x00]) ∧
      (∃ t, exec (.getMctpVersionSupport ⟨m, i⟩) s = .next t ∧
        onlyAnswer s t m ([0x00, i.setWidth 8, 0x04, 0x00] ++ Config.mctpVersions)) ∧
      (∃ t, exec (.getMessageTypeSupport ⟨m, i⟩) s = .next t ∧
        onlyAnswer s t m [0x00, i.setWidth 8, 0x05, 0x00, 0x01, 0x7E])) ∧
    (∀ a : BitVec 7, s.bring.at_ ≠ .off → ∃ t, exec (.entdaa a) s = .next t ∧
      t = { s with lantern := { s.lantern with dynAddr := some a } }) ∧
    (∀ mem : Bool, s.bring.at_ ≠ .off → s.lantern.logStopped = false → ∃ (t : State) (r : LogRec), exec (.lanternRestart mem) s = .next t ∧
      t.lantern.restarting = true ∧ t.lantern.restarts = s.lantern.restarts + 1 ∧ logged s t 5 ∧
      Mem.find t.lantern.log s.lantern.logNext = some r ∧ r.arg = (if mem then 1 else 0) ∧ t.lantern.od = s.lantern.od ∧
      { t with lantern := s.lantern } = s) ∧
    (s.lantern.restarting = true → s.lantern.recovery = false → s.lantern.bootSlot = none →
      exec .restartComplete s = .next { s with lantern := { s.lantern with recovery := true } }) ∧
    (∀ slot, s.lantern.restarting = true → s.lantern.recovery = false → s.lantern.bootSlot = some slot →
      (s.lantern.buffered = [] → ∃ t, exec .restartComplete s = .next t ∧ t.lantern.restarting = false ∧
        t.lantern.runningB = slot ∧ t.lantern.od = s.lantern.od ∧ t.lantern.restarts = s.lantern.restarts ∧
        { t with lantern := s.lantern } = s) ∧
      (∀ c, fencesKept s → s.lantern.buffered = [.uncorrectable c] → cellUnrecorded s c → ∃ t,
        exec .restartComplete s = .next t ∧ t.lantern.restarting = false ∧ t.lantern.buffered = [] ∧ cellFenced s t c 3)) ∧
    (s.lantern.restarting = false → exec .restartComplete s = .next s)
end

