-- ==== Sys2Proof/Laws/Mem.lean ====
section
/-!
SUPPORT. Sys2Proof/Laws/Mem.lean: reading after writing, and the canonical form of memories and tables.
-/
namespace Sys2Proof.Machine

variable {α : Type}

@[simp] theorem Mem.rd_nil (d : α) (k : Nat) : Mem.rd d [] k = d := rfl
@[simp] theorem Mem.find_nil (k : Nat) : Mem.find ([] : Mem α) k = none := rfl

/-! ### Reading after writing -/

@[simp] theorem Mem.rd_put_self (d : α) (m : Mem α) (k : Nat) (v : α) : Mem.rd d (Mem.put m k v) k = v := by
  induction m with
  | nil => simp [Mem.put, Mem.rd]
  | cons e m ih =>
    obtain ⟨a, w⟩ := e
    simp only [Mem.put]
    split_ifs with h1 h2 <;> simp [Mem.rd, *]

theorem Mem.rd_put_other (d : α) (m : Mem α) (k k' : Nat) (v : α) (h : k' ≠ k) :
    Mem.rd d (Mem.put m k v) k' = Mem.rd d m k' := by
  induction m with
  | nil => simp [Mem.put, Mem.rd, h.symm]
  | cons e m ih =>
    obtain ⟨a, w⟩ := e
    simp only [Mem.put]
    split_ifs with h1 h2
    · subst h1; simp [Mem.rd, h.symm]
    · simp [Mem.rd, h.symm]
    · simp [Mem.rd, ih]

@[simp] theorem Mem.find_put_self (m : Mem α) (k : Nat) (v : α) : Mem.find (Mem.put m k v) k = some v := by
  induction m with
  | nil => simp [Mem.put, Mem.find]
  | cons e m ih =>
    obtain ⟨a, w⟩ := e
    simp only [Mem.put]
    split_ifs with h1 h2 <;> simp [Mem.find, *]

theorem Mem.find_put_other (m : Mem α) (k k' : Nat) (v : α) (h : k' ≠ k) :
    Mem.find (Mem.put m k v) k' = Mem.find m k' := by
  induction m with
  | nil => simp [Mem.put, Mem.find, h.symm]
  | cons e m ih =>
    obtain ⟨a, w⟩ := e
    simp only [Mem.put]
    split_ifs with h1 h2
    · subst h1; simp [Mem.find, h.symm]
    · simp [Mem.find, h.symm]
    · simp [Mem.find, ih]

theorem Mem.find_adjust (f : α → α) (m : Mem α) (k k' : Nat) :
    Mem.find (Mem.adjust f m k) k' = if k' = k then (Mem.find m k').map f else Mem.find m k' := by
  induction m with
  | nil => simp [Mem.adjust]
  | cons e m ih =>
    obtain ⟨a, w⟩ := e
    simp only [Mem.adjust]
    by_cases h : a = k
    · subst h
      by_cases h' : a = k'
      · subst h'; simp [Mem.find]
      · simp [Mem.find, h', Ne.symm h']
    · by_cases h' : a = k'
      · subst h'; simp [Mem.find, h]
      · simp [Mem.find, h, h', ih]

theorem Mem.rd_eq_find (d : α) (m : Mem α) (k : Nat) : Mem.rd d m k = (Mem.find m k).getD d := by
  induction m with
  | nil => rfl
  | cons e m ih =>
    obtain ⟨a, w⟩ := e
    by_cases h : a = k <;> simp [Mem.rd, Mem.find, h, ih]

/-! ### Strictly rising keys -/

/-- The keys are above a bound. -/
def Mem.above (lo : Option Nat) (k : Nat) : Bool := match lo with | none => true | some l => decide (l < k)

@[simp] theorem Mem.sortedFrom_nil (lo : Option Nat) : Mem.sortedFrom lo ([] : Mem α) = true := rfl

theorem Mem.sortedFrom_cons (lo : Option Nat) (a : Nat) (v : α) (m : Mem α) :
    Mem.sortedFrom lo ((a, v) :: m) = (Mem.above lo a && Mem.sortedFrom (some a) m) := rfl

theorem Mem.above_trans {lo : Option Nat} {a k : Nat} (h : Mem.above lo a) (hk : a < k) : Mem.above lo k := by
  cases lo with
  | none => rfl
  | some l => simp [Mem.above] at *; omega

theorem Mem.sortedFrom_mono {lo : Option Nat} {a : Nat} (ha : Mem.above lo a) {m : Mem α}
    (h : Mem.sortedFrom (some a) m) : Mem.sortedFrom lo m := by
  cases m with
  | nil => rfl
  | cons e m =>
    obtain ⟨k, v⟩ := e
    simp only [Mem.sortedFrom_cons, Bool.and_eq_true] at h ⊢
    exact ⟨Mem.above_trans ha (by simpa [Mem.above] using h.1), h.2⟩

/-- Inserting keeps the keys strictly rising. -/
theorem Mem.put_sorted (m : Mem α) (k : Nat) (v : α) :
    ∀ lo, Mem.above lo k → Mem.sortedFrom lo m → Mem.sortedFrom lo (Mem.put m k v) := by
  induction m with
  | nil => intro lo hk _; simp [Mem.put, Mem.sortedFrom_cons, hk]
  | cons e m ih =>
    obtain ⟨a, w⟩ := e
    intro lo hk h
    simp only [Mem.sortedFrom_cons, Bool.and_eq_true] at h
    simp only [Mem.put]
    split_ifs with h1 h2
    · subst h1; simp [Mem.sortedFrom_cons, h.1, h.2]
    · simp only [Mem.sortedFrom_cons, Bool.and_eq_true]
      exact ⟨hk, by simpa [Mem.above] using h2, h.2⟩
    · simp only [Mem.sortedFrom_cons, Bool.and_eq_true]
      exact ⟨h.1, ih (some a) (by simp [Mem.above]; omega) h.2⟩

/-- Removing keeps the keys strictly rising. -/
theorem Mem.del_sorted (m : Mem α) (k : Nat) :
    ∀ lo, Mem.sortedFrom lo m → Mem.sortedFrom lo (Mem.del m k) := by
  induction m with
  | nil => intro lo _; rfl
  | cons e m ih =>
    obtain ⟨a, w⟩ := e
    intro lo h
    simp only [Mem.sortedFrom_cons, Bool.and_eq_true] at h
    simp only [Mem.del]
    split_ifs with h1
    · exact ih _ (Mem.sortedFrom_mono h.1 h.2)
    · simp [Mem.sortedFrom_cons, h.1, ih _ h.2]

/-- Changing one entry keeps the keys. -/
theorem Mem.adjust_sorted (f : α → α) (m : Mem α) (k : Nat) :
    ∀ lo, Mem.sortedFrom lo m → Mem.sortedFrom lo (Mem.adjust f m k) := by
  induction m with
  | nil => intro lo _; rfl
  | cons e m ih =>
    obtain ⟨a, w⟩ := e
    intro lo h
    simp only [Mem.sortedFrom_cons, Bool.and_eq_true] at h
    simp only [Mem.adjust]
    split_ifs <;> simp [Mem.sortedFrom_cons, h.1, h.2, ih _ h.2]

/-- Changing contents keeps the keys. -/
theorem Mem.map_sorted {β : Type} (f : Nat × α → Nat × β) (hf : ∀ e, (f e).1 = e.1) (m : Mem α) :
    ∀ lo, Mem.sortedFrom lo m → Mem.sortedFrom lo (m.map f) := by
  induction m with
  | nil => intro lo _; rfl
  | cons e m ih =>
    obtain ⟨a, w⟩ := e
    intro lo h
    simp only [Mem.sortedFrom_cons, Bool.and_eq_true] at h
    have hk : f (a, w) = (a, (f (a, w)).2) := Prod.ext (hf (a, w)) rfl
    rw [List.map_cons, hk]
    simp [Mem.sortedFrom_cons, h.1, ih _ h.2]

/-- Dropping entries keeps the rest in order. -/
theorem Mem.filter_sorted (p : Nat × α → Bool) (m : Mem α) :
    ∀ lo, Mem.sortedFrom lo m → Mem.sortedFrom lo (m.filter p) := by
  induction m with
  | nil => intro lo _; rfl
  | cons e m ih =>
    obtain ⟨a, w⟩ := e
    intro lo h
    simp only [Mem.sortedFrom_cons, Bool.and_eq_true] at h
    by_cases hp : p (a, w)
    · simp [List.filter_cons, hp, Mem.sortedFrom_cons, h.1, ih _ h.2]
    · simp only [List.filter_cons, hp]
      exact ih lo (Mem.sortedFrom_mono h.1 h.2)

/-! ### The canonical form -/

theorem Mem.put_mem {m : Mem α} {k : Nat} {v : α} {e : Nat × α} (h : e ∈ Mem.put m k v) : e = (k, v) ∨ e ∈ m := by
  induction m with
  | nil => simpa [Mem.put] using h
  | cons q m ih =>
    obtain ⟨a, w⟩ := q
    simp only [Mem.put] at h
    split_ifs at h with h1 h2
    · rcases List.mem_cons.1 h with h | h
      · exact .inl h
      · exact .inr (List.mem_cons_of_mem _ h)
    · simpa using h
    · rcases List.mem_cons.1 h with h | h
      · exact .inr (by simp [h])
      · rcases ih h with h | h
        · exact .inl h
        · exact .inr (List.mem_cons_of_mem _ h)

theorem Mem.del_mem {m : Mem α} {k : Nat} {e : Nat × α} (h : e ∈ Mem.del m k) : e ∈ m := by
  induction m with
  | nil => simpa [Mem.del] using h
  | cons q m ih =>
    obtain ⟨a, w⟩ := q
    simp only [Mem.del] at h
    split_ifs at h with h1
    · exact List.mem_cons_of_mem _ (ih h)
    · rcases List.mem_cons.1 h with h | h
      · simp [h]
      · exact List.mem_cons_of_mem _ (ih h)

/-- A write keeps the canonical form. -/
theorem Mem.wr_wf [DecidableEq α] (d : α) (m : Mem α) (k : Nat) (v : α) (h : Mem.wf d m) : Mem.wf d (Mem.wr d m k v) := by
  simp only [Mem.wf, Bool.and_eq_true, List.all_eq_true, decide_eq_true_eq] at h ⊢
  unfold Mem.wr
  split_ifs with hv
  · exact ⟨Mem.del_sorted m k none h.1, fun e he => h.2 e (Mem.del_mem he)⟩
  · refine ⟨Mem.put_sorted m k v none rfl h.1, fun e he => ?_⟩
    rcases Mem.put_mem he with rfl | he
    · exact hv
    · exact h.2 e he

theorem Mem.rd_del (d : α) (m : Mem α) (k k' : Nat) :
    Mem.rd d (Mem.del m k) k' = if k' = k then d else Mem.rd d m k' := by
  induction m with
  | nil => simp [Mem.del]
  | cons e m ih =>
    obtain ⟨a, w⟩ := e
    simp only [Mem.del]
    by_cases h1 : a = k
    · subst h1
      rw [if_pos rfl, ih]
      by_cases h3 : k' = a
      · simp [h3]
      · simp [Mem.rd, Ne.symm h3, h3]
    · rw [if_neg h1]
      by_cases h3 : k' = k
      · subst h3; simp [Mem.rd, h1, ih]
      · simp [Mem.rd, ih, h3]

theorem Mem.find_del (m : Mem α) (k k' : Nat) :
    Mem.find (Mem.del m k) k' = if k' = k then none else Mem.find m k' := by
  induction m with
  | nil => simp [Mem.del]
  | cons e m ih =>
    obtain ⟨a, w⟩ := e
    simp only [Mem.del]
    by_cases h1 : a = k
    · subst h1
      rw [if_pos rfl, ih]
      by_cases h3 : k' = a
      · simp [h3]
      · simp [Mem.find, Ne.symm h3, h3]
    · rw [if_neg h1]
      by_cases h3 : k' = k
      · subst h3; simp [Mem.find, h1, ih]
      · simp [Mem.find, ih, h3]

/-- Reading a key after writing it gives the value written, other keys read as before. -/
theorem Mem.rd_wr [DecidableEq α] (d : α) (m : Mem α) (k k' : Nat) (v : α) :
    Mem.rd d (Mem.wr d m k v) k' = if k' = k then v else Mem.rd d m k' := by
  unfold Mem.wr
  split_ifs with hv hk hk
  · rw [Mem.rd_del, if_pos hk, hv]
  · rw [Mem.rd_del, if_neg hk]
  · subst hk; exact Mem.rd_put_self d m k' v
  · exact Mem.rd_put_other d m k k' v hk

end Sys2Proof.Machine
end

