-- ==== Sys2Proof/Laws/State.lean ====
section
/-!
SUPPORT. Sys2Proof/Laws/State.lean: what each update of the state leaves unchanged, field by field, and what a part of the
state reads as after an update of a part of its kind.
-/
namespace Sys2Proof.Machine

variable (s : State)

/-! ### State.setCtx -/

@[simp] theorem State.setCtx_grade (n : Nat) (x : Ctx) : (s.setCtx n x).grade = s.grade := rfl
@[simp] theorem State.setCtx_stepping (n : Nat) (x : Ctx) : (s.setCtx n x).stepping = s.stepping := rfl
@[simp] theorem State.setCtx_clock (n : Nat) (x : Ctx) : (s.setCtx n x).clock = s.clock := rfl
@[simp] theorem State.setCtx_power (n : Nat) (x : Ctx) : (s.setCtx n x).power = s.power := rfl
@[simp] theorem State.setCtx_bring (n : Nat) (x : Ctx) : (s.setCtx n x).bring = s.bring := rfl
@[simp] theorem State.setCtx_ports (n : Nat) (x : Ctx) : (s.setCtx n x).ports = s.ports := rfl
@[simp] theorem State.setCtx_regions (n : Nat) (x : Ctx) : (s.setCtx n x).regions = s.regions := rfl
@[simp] theorem State.setCtx_leases (n : Nat) (x : Ctx) : (s.setCtx n x).leases = s.leases := rfl
@[simp] theorem State.setCtx_sessions (n : Nat) (x : Ctx) : (s.setCtx n x).sessions = s.sessions := rfl
@[simp] theorem State.setCtx_fns (n : Nat) (x : Ctx) : (s.setCtx n x).fns = s.fns := rfl
@[simp] theorem State.setCtx_cells (n : Nat) (x : Ctx) : (s.setCtx n x).cells = s.cells := rfl
@[simp] theorem State.setCtx_transit (n : Nat) (x : Ctx) : (s.setCtx n x).transit = s.transit := rfl
@[simp] theorem State.setCtx_plcMap (n : Nat) (x : Ctx) : (s.setCtx n x).plcMap = s.plcMap := rfl
@[simp] theorem State.setCtx_plcInfo (n : Nat) (x : Ctx) : (s.setCtx n x).plcInfo = s.plcInfo := rfl
@[simp] theorem State.setCtx_inService (n : Nat) (x : Ctx) : (s.setCtx n x).inService = s.inService := rfl
@[simp] theorem State.setCtx_windows (n : Nat) (x : Ctx) : (s.setCtx n x).windows = s.windows := rfl
@[simp] theorem State.setCtx_plcRegions (n : Nat) (x : Ctx) : (s.setCtx n x).plcRegions = s.plcRegions := rfl
@[simp] theorem State.setCtx_lantern (n : Nat) (x : Ctx) : (s.setCtx n x).lantern = s.lantern := rfl
@[simp] theorem State.setCtx_oldKills (n : Nat) (x : Ctx) : (s.setCtx n x).oldKills = s.oldKills := rfl
@[simp] theorem State.setCtx_unrecoverable (n : Nat) (x : Ctx) : (s.setCtx n x).unrecoverable = s.unrecoverable := rfl
@[simp] theorem State.setCtx_ended (n : Nat) (x : Ctx) : (s.setCtx n x).ended = s.ended := rfl
@[simp] theorem State.setCtx_reports (n : Nat) (x : Ctx) : (s.setCtx n x).reports = s.reports := rfl
@[simp] theorem State.setCtx_out (n : Nat) (x : Ctx) : (s.setCtx n x).out = s.out := rfl
@[simp] theorem State.setCtx_hostReads (n : Nat) (x : Ctx) : (s.setCtx n x).hostReads = s.hostReads := rfl
@[simp] theorem State.setCtx_accepts (n : Nat) (x : Ctx) : (s.setCtx n x).accepts = s.accepts := rfl
@[simp] theorem State.setCtx_free (n : Nat) (x : Ctx) : (s.setCtx n x).free = s.free := rfl
@[simp] theorem State.setCtx_pending (n : Nat) (x : Ctx) : (s.setCtx n x).pending = s.pending := rfl

/-! ### State.onCtx -/

@[simp] theorem State.onCtx_grade (n : Nat) (f : Ctx → Ctx) : (s.onCtx n f).grade = s.grade := rfl
@[simp] theorem State.onCtx_stepping (n : Nat) (f : Ctx → Ctx) : (s.onCtx n f).stepping = s.stepping := rfl
@[simp] theorem State.onCtx_clock (n : Nat) (f : Ctx → Ctx) : (s.onCtx n f).clock = s.clock := rfl
@[simp] theorem State.onCtx_power (n : Nat) (f : Ctx → Ctx) : (s.onCtx n f).power = s.power := rfl
@[simp] theorem State.onCtx_bring (n : Nat) (f : Ctx → Ctx) : (s.onCtx n f).bring = s.bring := rfl
@[simp] theorem State.onCtx_ports (n : Nat) (f : Ctx → Ctx) : (s.onCtx n f).ports = s.ports := rfl
@[simp] theorem State.onCtx_regions (n : Nat) (f : Ctx → Ctx) : (s.onCtx n f).regions = s.regions := rfl
@[simp] theorem State.onCtx_leases (n : Nat) (f : Ctx → Ctx) : (s.onCtx n f).leases = s.leases := rfl
@[simp] theorem State.onCtx_sessions (n : Nat) (f : Ctx → Ctx) : (s.onCtx n f).sessions = s.sessions := rfl
@[simp] theorem State.onCtx_fns (n : Nat) (f : Ctx → Ctx) : (s.onCtx n f).fns = s.fns := rfl
@[simp] theorem State.onCtx_cells (n : Nat) (f : Ctx → Ctx) : (s.onCtx n f).cells = s.cells := rfl
@[simp] theorem State.onCtx_transit (n : Nat) (f : Ctx → Ctx) : (s.onCtx n f).transit = s.transit := rfl
@[simp] theorem State.onCtx_plcMap (n : Nat) (f : Ctx → Ctx) : (s.onCtx n f).plcMap = s.plcMap := rfl
@[simp] theorem State.onCtx_plcInfo (n : Nat) (f : Ctx → Ctx) : (s.onCtx n f).plcInfo = s.plcInfo := rfl
@[simp] theorem State.onCtx_inService (n : Nat) (f : Ctx → Ctx) : (s.onCtx n f).inService = s.inService := rfl
@[simp] theorem State.onCtx_windows (n : Nat) (f : Ctx → Ctx) : (s.onCtx n f).windows = s.windows := rfl
@[simp] theorem State.onCtx_plcRegions (n : Nat) (f : Ctx → Ctx) : (s.onCtx n f).plcRegions = s.plcRegions := rfl
@[simp] theorem State.onCtx_lantern (n : Nat) (f : Ctx → Ctx) : (s.onCtx n f).lantern = s.lantern := rfl
@[simp] theorem State.onCtx_oldKills (n : Nat) (f : Ctx → Ctx) : (s.onCtx n f).oldKills = s.oldKills := rfl
@[simp] theorem State.onCtx_unrecoverable (n : Nat) (f : Ctx → Ctx) : (s.onCtx n f).unrecoverable = s.unrecoverable := rfl
@[simp] theorem State.onCtx_ended (n : Nat) (f : Ctx → Ctx) : (s.onCtx n f).ended = s.ended := rfl
@[simp] theorem State.onCtx_reports (n : Nat) (f : Ctx → Ctx) : (s.onCtx n f).reports = s.reports := rfl
@[simp] theorem State.onCtx_out (n : Nat) (f : Ctx → Ctx) : (s.onCtx n f).out = s.out := rfl
@[simp] theorem State.onCtx_hostReads (n : Nat) (f : Ctx → Ctx) : (s.onCtx n f).hostReads = s.hostReads := rfl
@[simp] theorem State.onCtx_accepts (n : Nat) (f : Ctx → Ctx) : (s.onCtx n f).accepts = s.accepts := rfl
@[simp] theorem State.onCtx_free (n : Nat) (f : Ctx → Ctx) : (s.onCtx n f).free = s.free := rfl
@[simp] theorem State.onCtx_pending (n : Nat) (f : Ctx → Ctx) : (s.onCtx n f).pending = s.pending := rfl

/-! ### State.setCell -/

@[simp] theorem State.setCell_grade (c : CellRef) (x : Cell) : (s.setCell c x).grade = s.grade := rfl
@[simp] theorem State.setCell_stepping (c : CellRef) (x : Cell) : (s.setCell c x).stepping = s.stepping := rfl
@[simp] theorem State.setCell_clock (c : CellRef) (x : Cell) : (s.setCell c x).clock = s.clock := rfl
@[simp] theorem State.setCell_power (c : CellRef) (x : Cell) : (s.setCell c x).power = s.power := rfl
@[simp] theorem State.setCell_bring (c : CellRef) (x : Cell) : (s.setCell c x).bring = s.bring := rfl
@[simp] theorem State.setCell_ports (c : CellRef) (x : Cell) : (s.setCell c x).ports = s.ports := rfl
@[simp] theorem State.setCell_regions (c : CellRef) (x : Cell) : (s.setCell c x).regions = s.regions := rfl
@[simp] theorem State.setCell_leases (c : CellRef) (x : Cell) : (s.setCell c x).leases = s.leases := rfl
@[simp] theorem State.setCell_sessions (c : CellRef) (x : Cell) : (s.setCell c x).sessions = s.sessions := rfl
@[simp] theorem State.setCell_fns (c : CellRef) (x : Cell) : (s.setCell c x).fns = s.fns := rfl
@[simp] theorem State.setCell_ctxs (c : CellRef) (x : Cell) : (s.setCell c x).ctxs = s.ctxs := rfl
@[simp] theorem State.setCell_transit (c : CellRef) (x : Cell) : (s.setCell c x).transit = s.transit := rfl
@[simp] theorem State.setCell_plcMap (c : CellRef) (x : Cell) : (s.setCell c x).plcMap = s.plcMap := rfl
@[simp] theorem State.setCell_plcInfo (c : CellRef) (x : Cell) : (s.setCell c x).plcInfo = s.plcInfo := rfl
@[simp] theorem State.setCell_inService (c : CellRef) (x : Cell) : (s.setCell c x).inService = s.inService := rfl
@[simp] theorem State.setCell_windows (c : CellRef) (x : Cell) : (s.setCell c x).windows = s.windows := rfl
@[simp] theorem State.setCell_plcRegions (c : CellRef) (x : Cell) : (s.setCell c x).plcRegions = s.plcRegions := rfl
@[simp] theorem State.setCell_lantern (c : CellRef) (x : Cell) : (s.setCell c x).lantern = s.lantern := rfl
@[simp] theorem State.setCell_oldKills (c : CellRef) (x : Cell) : (s.setCell c x).oldKills = s.oldKills := rfl
@[simp] theorem State.setCell_unrecoverable (c : CellRef) (x : Cell) : (s.setCell c x).unrecoverable = s.unrecoverable := rfl
@[simp] theorem State.setCell_ended (c : CellRef) (x : Cell) : (s.setCell c x).ended = s.ended := rfl
@[simp] theorem State.setCell_reports (c : CellRef) (x : Cell) : (s.setCell c x).reports = s.reports := rfl
@[simp] theorem State.setCell_out (c : CellRef) (x : Cell) : (s.setCell c x).out = s.out := rfl
@[simp] theorem State.setCell_hostReads (c : CellRef) (x : Cell) : (s.setCell c x).hostReads = s.hostReads := rfl
@[simp] theorem State.setCell_accepts (c : CellRef) (x : Cell) : (s.setCell c x).accepts = s.accepts := rfl
@[simp] theorem State.setCell_free (c : CellRef) (x : Cell) : (s.setCell c x).free = s.free := rfl
@[simp] theorem State.setCell_pending (c : CellRef) (x : Cell) : (s.setCell c x).pending = s.pending := rfl

/-! ### State.onCell -/

@[simp] theorem State.onCell_grade (c : CellRef) (f : Cell → Cell) : (s.onCell c f).grade = s.grade := rfl
@[simp] theorem State.onCell_stepping (c : CellRef) (f : Cell → Cell) : (s.onCell c f).stepping = s.stepping := rfl
@[simp] theorem State.onCell_clock (c : CellRef) (f : Cell → Cell) : (s.onCell c f).clock = s.clock := rfl
@[simp] theorem State.onCell_power (c : CellRef) (f : Cell → Cell) : (s.onCell c f).power = s.power := rfl
@[simp] theorem State.onCell_bring (c : CellRef) (f : Cell → Cell) : (s.onCell c f).bring = s.bring := rfl
@[simp] theorem State.onCell_ports (c : CellRef) (f : Cell → Cell) : (s.onCell c f).ports = s.ports := rfl
@[simp] theorem State.onCell_regions (c : CellRef) (f : Cell → Cell) : (s.onCell c f).regions = s.regions := rfl
@[simp] theorem State.onCell_leases (c : CellRef) (f : Cell → Cell) : (s.onCell c f).leases = s.leases := rfl
@[simp] theorem State.onCell_sessions (c : CellRef) (f : Cell → Cell) : (s.onCell c f).sessions = s.sessions := rfl
@[simp] theorem State.onCell_fns (c : CellRef) (f : Cell → Cell) : (s.onCell c f).fns = s.fns := rfl
@[simp] theorem State.onCell_ctxs (c : CellRef) (f : Cell → Cell) : (s.onCell c f).ctxs = s.ctxs := rfl
@[simp] theorem State.onCell_transit (c : CellRef) (f : Cell → Cell) : (s.onCell c f).transit = s.transit := rfl
@[simp] theorem State.onCell_plcMap (c : CellRef) (f : Cell → Cell) : (s.onCell c f).plcMap = s.plcMap := rfl
@[simp] theorem State.onCell_plcInfo (c : CellRef) (f : Cell → Cell) : (s.onCell c f).plcInfo = s.plcInfo := rfl
@[simp] theorem State.onCell_inService (c : CellRef) (f : Cell → Cell) : (s.onCell c f).inService = s.inService := rfl
@[simp] theorem State.onCell_windows (c : CellRef) (f : Cell → Cell) : (s.onCell c f).windows = s.windows := rfl
@[simp] theorem State.onCell_plcRegions (c : CellRef) (f : Cell → Cell) : (s.onCell c f).plcRegions = s.plcRegions := rfl
@[simp] theorem State.onCell_lantern (c : CellRef) (f : Cell → Cell) : (s.onCell c f).lantern = s.lantern := rfl
@[simp] theorem State.onCell_oldKills (c : CellRef) (f : Cell → Cell) : (s.onCell c f).oldKills = s.oldKills := rfl
@[simp] theorem State.onCell_unrecoverable (c : CellRef) (f : Cell → Cell) : (s.onCell c f).unrecoverable = s.unrecoverable := rfl
@[simp] theorem State.onCell_ended (c : CellRef) (f : Cell → Cell) : (s.onCell c f).ended = s.ended := rfl
@[simp] theorem State.onCell_reports (c : CellRef) (f : Cell → Cell) : (s.onCell c f).reports = s.reports := rfl
@[simp] theorem State.onCell_out (c : CellRef) (f : Cell → Cell) : (s.onCell c f).out = s.out := rfl
@[simp] theorem State.onCell_hostReads (c : CellRef) (f : Cell → Cell) : (s.onCell c f).hostReads = s.hostReads := rfl
@[simp] theorem State.onCell_accepts (c : CellRef) (f : Cell → Cell) : (s.onCell c f).accepts = s.accepts := rfl
@[simp] theorem State.onCell_free (c : CellRef) (f : Cell → Cell) : (s.onCell c f).free = s.free := rfl
@[simp] theorem State.onCell_pending (c : CellRef) (f : Cell → Cell) : (s.onCell c f).pending = s.pending := rfl

/-! ### State.onCells -/

@[simp] theorem State.onCells_grade (n : Nat) (f : Cell → Cell) : (s.onCells n f).grade = s.grade := rfl
@[simp] theorem State.onCells_stepping (n : Nat) (f : Cell → Cell) : (s.onCells n f).stepping = s.stepping := rfl
@[simp] theorem State.onCells_clock (n : Nat) (f : Cell → Cell) : (s.onCells n f).clock = s.clock := rfl
@[simp] theorem State.onCells_power (n : Nat) (f : Cell → Cell) : (s.onCells n f).power = s.power := rfl
@[simp] theorem State.onCells_bring (n : Nat) (f : Cell → Cell) : (s.onCells n f).bring = s.bring := rfl
@[simp] theorem State.onCells_ports (n : Nat) (f : Cell → Cell) : (s.onCells n f).ports = s.ports := rfl
@[simp] theorem State.onCells_regions (n : Nat) (f : Cell → Cell) : (s.onCells n f).regions = s.regions := rfl
@[simp] theorem State.onCells_leases (n : Nat) (f : Cell → Cell) : (s.onCells n f).leases = s.leases := rfl
@[simp] theorem State.onCells_sessions (n : Nat) (f : Cell → Cell) : (s.onCells n f).sessions = s.sessions := rfl
@[simp] theorem State.onCells_fns (n : Nat) (f : Cell → Cell) : (s.onCells n f).fns = s.fns := rfl
@[simp] theorem State.onCells_ctxs (n : Nat) (f : Cell → Cell) : (s.onCells n f).ctxs = s.ctxs := rfl
@[simp] theorem State.onCells_transit (n : Nat) (f : Cell → Cell) : (s.onCells n f).transit = s.transit := rfl
@[simp] theorem State.onCells_plcMap (n : Nat) (f : Cell → Cell) : (s.onCells n f).plcMap = s.plcMap := rfl
@[simp] theorem State.onCells_plcInfo (n : Nat) (f : Cell → Cell) : (s.onCells n f).plcInfo = s.plcInfo := rfl
@[simp] theorem State.onCells_inService (n : Nat) (f : Cell → Cell) : (s.onCells n f).inService = s.inService := rfl
@[simp] theorem State.onCells_windows (n : Nat) (f : Cell → Cell) : (s.onCells n f).windows = s.windows := rfl
@[simp] theorem State.onCells_plcRegions (n : Nat) (f : Cell → Cell) : (s.onCells n f).plcRegions = s.plcRegions := rfl
@[simp] theorem State.onCells_lantern (n : Nat) (f : Cell → Cell) : (s.onCells n f).lantern = s.lantern := rfl
@[simp] theorem State.onCells_oldKills (n : Nat) (f : Cell → Cell) : (s.onCells n f).oldKills = s.oldKills := rfl
@[simp] theorem State.onCells_unrecoverable (n : Nat) (f : Cell → Cell) : (s.onCells n f).unrecoverable = s.unrecoverable := rfl
@[simp] theorem State.onCells_ended (n : Nat) (f : Cell → Cell) : (s.onCells n f).ended = s.ended := rfl
@[simp] theorem State.onCells_reports (n : Nat) (f : Cell → Cell) : (s.onCells n f).reports = s.reports := rfl
@[simp] theorem State.onCells_out (n : Nat) (f : Cell → Cell) : (s.onCells n f).out = s.out := rfl
@[simp] theorem State.onCells_hostReads (n : Nat) (f : Cell → Cell) : (s.onCells n f).hostReads = s.hostReads := rfl
@[simp] theorem State.onCells_accepts (n : Nat) (f : Cell → Cell) : (s.onCells n f).accepts = s.accepts := rfl
@[simp] theorem State.onCells_free (n : Nat) (f : Cell → Cell) : (s.onCells n f).free = s.free := rfl
@[simp] theorem State.onCells_pending (n : Nat) (f : Cell → Cell) : (s.onCells n f).pending = s.pending := rfl

/-! ### State.setPort -/

@[simp] theorem State.setPort_grade (p : Nat) (x : Port) : (s.setPort p x).grade = s.grade := rfl
@[simp] theorem State.setPort_stepping (p : Nat) (x : Port) : (s.setPort p x).stepping = s.stepping := rfl
@[simp] theorem State.setPort_clock (p : Nat) (x : Port) : (s.setPort p x).clock = s.clock := rfl
@[simp] theorem State.setPort_power (p : Nat) (x : Port) : (s.setPort p x).power = s.power := rfl
@[simp] theorem State.setPort_bring (p : Nat) (x : Port) : (s.setPort p x).bring = s.bring := rfl
@[simp] theorem State.setPort_regions (p : Nat) (x : Port) : (s.setPort p x).regions = s.regions := rfl
@[simp] theorem State.setPort_leases (p : Nat) (x : Port) : (s.setPort p x).leases = s.leases := rfl
@[simp] theorem State.setPort_sessions (p : Nat) (x : Port) : (s.setPort p x).sessions = s.sessions := rfl
@[simp] theorem State.setPort_fns (p : Nat) (x : Port) : (s.setPort p x).fns = s.fns := rfl
@[simp] theorem State.setPort_ctxs (p : Nat) (x : Port) : (s.setPort p x).ctxs = s.ctxs := rfl
@[simp] theorem State.setPort_cells (p : Nat) (x : Port) : (s.setPort p x).cells = s.cells := rfl
@[simp] theorem State.setPort_transit (p : Nat) (x : Port) : (s.setPort p x).transit = s.transit := rfl
@[simp] theorem State.setPort_plcMap (p : Nat) (x : Port) : (s.setPort p x).plcMap = s.plcMap := rfl
@[simp] theorem State.setPort_plcInfo (p : Nat) (x : Port) : (s.setPort p x).plcInfo = s.plcInfo := rfl
@[simp] theorem State.setPort_inService (p : Nat) (x : Port) : (s.setPort p x).inService = s.inService := rfl
@[simp] theorem State.setPort_windows (p : Nat) (x : Port) : (s.setPort p x).windows = s.windows := rfl
@[simp] theorem State.setPort_plcRegions (p : Nat) (x : Port) : (s.setPort p x).plcRegions = s.plcRegions := rfl
@[simp] theorem State.setPort_lantern (p : Nat) (x : Port) : (s.setPort p x).lantern = s.lantern := rfl
@[simp] theorem State.setPort_oldKills (p : Nat) (x : Port) : (s.setPort p x).oldKills = s.oldKills := rfl
@[simp] theorem State.setPort_unrecoverable (p : Nat) (x : Port) : (s.setPort p x).unrecoverable = s.unrecoverable := rfl
@[simp] theorem State.setPort_ended (p : Nat) (x : Port) : (s.setPort p x).ended = s.ended := rfl
@[simp] theorem State.setPort_reports (p : Nat) (x : Port) : (s.setPort p x).reports = s.reports := rfl
@[simp] theorem State.setPort_out (p : Nat) (x : Port) : (s.setPort p x).out = s.out := rfl
@[simp] theorem State.setPort_hostReads (p : Nat) (x : Port) : (s.setPort p x).hostReads = s.hostReads := rfl
@[simp] theorem State.setPort_accepts (p : Nat) (x : Port) : (s.setPort p x).accepts = s.accepts := rfl
@[simp] theorem State.setPort_free (p : Nat) (x : Port) : (s.setPort p x).free = s.free := rfl
@[simp] theorem State.setPort_pending (p : Nat) (x : Port) : (s.setPort p x).pending = s.pending := rfl

/-! ### State.onPort -/

@[simp] theorem State.onPort_grade (p : Nat) (f : Port → Port) : (s.onPort p f).grade = s.grade := rfl
@[simp] theorem State.onPort_stepping (p : Nat) (f : Port → Port) : (s.onPort p f).stepping = s.stepping := rfl
@[simp] theorem State.onPort_clock (p : Nat) (f : Port → Port) : (s.onPort p f).clock = s.clock := rfl
@[simp] theorem State.onPort_power (p : Nat) (f : Port → Port) : (s.onPort p f).power = s.power := rfl
@[simp] theorem State.onPort_bring (p : Nat) (f : Port → Port) : (s.onPort p f).bring = s.bring := rfl
@[simp] theorem State.onPort_regions (p : Nat) (f : Port → Port) : (s.onPort p f).regions = s.regions := rfl
@[simp] theorem State.onPort_leases (p : Nat) (f : Port → Port) : (s.onPort p f).leases = s.leases := rfl
@[simp] theorem State.onPort_sessions (p : Nat) (f : Port → Port) : (s.onPort p f).sessions = s.sessions := rfl
@[simp] theorem State.onPort_fns (p : Nat) (f : Port → Port) : (s.onPort p f).fns = s.fns := rfl
@[simp] theorem State.onPort_ctxs (p : Nat) (f : Port → Port) : (s.onPort p f).ctxs = s.ctxs := rfl
@[simp] theorem State.onPort_cells (p : Nat) (f : Port → Port) : (s.onPort p f).cells = s.cells := rfl
@[simp] theorem State.onPort_transit (p : Nat) (f : Port → Port) : (s.onPort p f).transit = s.transit := rfl
@[simp] theorem State.onPort_plcMap (p : Nat) (f : Port → Port) : (s.onPort p f).plcMap = s.plcMap := rfl
@[simp] theorem State.onPort_plcInfo (p : Nat) (f : Port → Port) : (s.onPort p f).plcInfo = s.plcInfo := rfl
@[simp] theorem State.onPort_inService (p : Nat) (f : Port → Port) : (s.onPort p f).inService = s.inService := rfl
@[simp] theorem State.onPort_windows (p : Nat) (f : Port → Port) : (s.onPort p f).windows = s.windows := rfl
@[simp] theorem State.onPort_plcRegions (p : Nat) (f : Port → Port) : (s.onPort p f).plcRegions = s.plcRegions := rfl
@[simp] theorem State.onPort_lantern (p : Nat) (f : Port → Port) : (s.onPort p f).lantern = s.lantern := rfl
@[simp] theorem State.onPort_oldKills (p : Nat) (f : Port → Port) : (s.onPort p f).oldKills = s.oldKills := rfl
@[simp] theorem State.onPort_unrecoverable (p : Nat) (f : Port → Port) : (s.onPort p f).unrecoverable = s.unrecoverable := rfl
@[simp] theorem State.onPort_ended (p : Nat) (f : Port → Port) : (s.onPort p f).ended = s.ended := rfl
@[simp] theorem State.onPort_reports (p : Nat) (f : Port → Port) : (s.onPort p f).reports = s.reports := rfl
@[simp] theorem State.onPort_out (p : Nat) (f : Port → Port) : (s.onPort p f).out = s.out := rfl
@[simp] theorem State.onPort_hostReads (p : Nat) (f : Port → Port) : (s.onPort p f).hostReads = s.hostReads := rfl
@[simp] theorem State.onPort_accepts (p : Nat) (f : Port → Port) : (s.onPort p f).accepts = s.accepts := rfl
@[simp] theorem State.onPort_free (p : Nat) (f : Port → Port) : (s.onPort p f).free = s.free := rfl
@[simp] theorem State.onPort_pending (p : Nat) (f : Port → Port) : (s.onPort p f).pending = s.pending := rfl

/-! ### State.setRegion -/

@[simp] theorem State.setRegion_grade (p : Nat) (x : Region) : (s.setRegion p x).grade = s.grade := rfl
@[simp] theorem State.setRegion_stepping (p : Nat) (x : Region) : (s.setRegion p x).stepping = s.stepping := rfl
@[simp] theorem State.setRegion_clock (p : Nat) (x : Region) : (s.setRegion p x).clock = s.clock := rfl
@[simp] theorem State.setRegion_power (p : Nat) (x : Region) : (s.setRegion p x).power = s.power := rfl
@[simp] theorem State.setRegion_bring (p : Nat) (x : Region) : (s.setRegion p x).bring = s.bring := rfl
@[simp] theorem State.setRegion_ports (p : Nat) (x : Region) : (s.setRegion p x).ports = s.ports := rfl
@[simp] theorem State.setRegion_leases (p : Nat) (x : Region) : (s.setRegion p x).leases = s.leases := rfl
@[simp] theorem State.setRegion_sessions (p : Nat) (x : Region) : (s.setRegion p x).sessions = s.sessions := rfl
@[simp] theorem State.setRegion_fns (p : Nat) (x : Region) : (s.setRegion p x).fns = s.fns := rfl
@[simp] theorem State.setRegion_ctxs (p : Nat) (x : Region) : (s.setRegion p x).ctxs = s.ctxs := rfl
@[simp] theorem State.setRegion_cells (p : Nat) (x : Region) : (s.setRegion p x).cells = s.cells := rfl
@[simp] theorem State.setRegion_transit (p : Nat) (x : Region) : (s.setRegion p x).transit = s.transit := rfl
@[simp] theorem State.setRegion_plcMap (p : Nat) (x : Region) : (s.setRegion p x).plcMap = s.plcMap := rfl
@[simp] theorem State.setRegion_plcInfo (p : Nat) (x : Region) : (s.setRegion p x).plcInfo = s.plcInfo := rfl
@[simp] theorem State.setRegion_inService (p : Nat) (x : Region) : (s.setRegion p x).inService = s.inService := rfl
@[simp] theorem State.setRegion_windows (p : Nat) (x : Region) : (s.setRegion p x).windows = s.windows := rfl
@[simp] theorem State.setRegion_plcRegions (p : Nat) (x : Region) : (s.setRegion p x).plcRegions = s.plcRegions := rfl
@[simp] theorem State.setRegion_lantern (p : Nat) (x : Region) : (s.setRegion p x).lantern = s.lantern := rfl
@[simp] theorem State.setRegion_oldKills (p : Nat) (x : Region) : (s.setRegion p x).oldKills = s.oldKills := rfl
@[simp] theorem State.setRegion_unrecoverable (p : Nat) (x : Region) : (s.setRegion p x).unrecoverable = s.unrecoverable := rfl
@[simp] theorem State.setRegion_ended (p : Nat) (x : Region) : (s.setRegion p x).ended = s.ended := rfl
@[simp] theorem State.setRegion_reports (p : Nat) (x : Region) : (s.setRegion p x).reports = s.reports := rfl
@[simp] theorem State.setRegion_out (p : Nat) (x : Region) : (s.setRegion p x).out = s.out := rfl
@[simp] theorem State.setRegion_hostReads (p : Nat) (x : Region) : (s.setRegion p x).hostReads = s.hostReads := rfl
@[simp] theorem State.setRegion_accepts (p : Nat) (x : Region) : (s.setRegion p x).accepts = s.accepts := rfl
@[simp] theorem State.setRegion_free (p : Nat) (x : Region) : (s.setRegion p x).free = s.free := rfl
@[simp] theorem State.setRegion_pending (p : Nat) (x : Region) : (s.setRegion p x).pending = s.pending := rfl

/-! ### State.onRegion -/

@[simp] theorem State.onRegion_grade (p : Nat) (f : Region → Region) : (s.onRegion p f).grade = s.grade := rfl
@[simp] theorem State.onRegion_stepping (p : Nat) (f : Region → Region) : (s.onRegion p f).stepping = s.stepping := rfl
@[simp] theorem State.onRegion_clock (p : Nat) (f : Region → Region) : (s.onRegion p f).clock = s.clock := rfl
@[simp] theorem State.onRegion_power (p : Nat) (f : Region → Region) : (s.onRegion p f).power = s.power := rfl
@[simp] theorem State.onRegion_bring (p : Nat) (f : Region → Region) : (s.onRegion p f).bring = s.bring := rfl
@[simp] theorem State.onRegion_ports (p : Nat) (f : Region → Region) : (s.onRegion p f).ports = s.ports := rfl
@[simp] theorem State.onRegion_leases (p : Nat) (f : Region → Region) : (s.onRegion p f).leases = s.leases := rfl
@[simp] theorem State.onRegion_sessions (p : Nat) (f : Region → Region) : (s.onRegion p f).sessions = s.sessions := rfl
@[simp] theorem State.onRegion_fns (p : Nat) (f : Region → Region) : (s.onRegion p f).fns = s.fns := rfl
@[simp] theorem State.onRegion_ctxs (p : Nat) (f : Region → Region) : (s.onRegion p f).ctxs = s.ctxs := rfl
@[simp] theorem State.onRegion_cells (p : Nat) (f : Region → Region) : (s.onRegion p f).cells = s.cells := rfl
@[simp] theorem State.onRegion_transit (p : Nat) (f : Region → Region) : (s.onRegion p f).transit = s.transit := rfl
@[simp] theorem State.onRegion_plcMap (p : Nat) (f : Region → Region) : (s.onRegion p f).plcMap = s.plcMap := rfl
@[simp] theorem State.onRegion_plcInfo (p : Nat) (f : Region → Region) : (s.onRegion p f).plcInfo = s.plcInfo := rfl
@[simp] theorem State.onRegion_inService (p : Nat) (f : Region → Region) : (s.onRegion p f).inService = s.inService := rfl
@[simp] theorem State.onRegion_windows (p : Nat) (f : Region → Region) : (s.onRegion p f).windows = s.windows := rfl
@[simp] theorem State.onRegion_plcRegions (p : Nat) (f : Region → Region) : (s.onRegion p f).plcRegions = s.plcRegions := rfl
@[simp] theorem State.onRegion_lantern (p : Nat) (f : Region → Region) : (s.onRegion p f).lantern = s.lantern := rfl
@[simp] theorem State.onRegion_oldKills (p : Nat) (f : Region → Region) : (s.onRegion p f).oldKills = s.oldKills := rfl
@[simp] theorem State.onRegion_unrecoverable (p : Nat) (f : Region → Region) : (s.onRegion p f).unrecoverable = s.unrecoverable := rfl
@[simp] theorem State.onRegion_ended (p : Nat) (f : Region → Region) : (s.onRegion p f).ended = s.ended := rfl
@[simp] theorem State.onRegion_reports (p : Nat) (f : Region → Region) : (s.onRegion p f).reports = s.reports := rfl
@[simp] theorem State.onRegion_out (p : Nat) (f : Region → Region) : (s.onRegion p f).out = s.out := rfl
@[simp] theorem State.onRegion_hostReads (p : Nat) (f : Region → Region) : (s.onRegion p f).hostReads = s.hostReads := rfl
@[simp] theorem State.onRegion_accepts (p : Nat) (f : Region → Region) : (s.onRegion p f).accepts = s.accepts := rfl
@[simp] theorem State.onRegion_free (p : Nat) (f : Region → Region) : (s.onRegion p f).free = s.free := rfl
@[simp] theorem State.onRegion_pending (p : Nat) (f : Region → Region) : (s.onRegion p f).pending = s.pending := rfl

/-! ### State.setFn -/

@[simp] theorem State.setFn_grade (f : FnRef) (x : Fn) : (s.setFn f x).grade = s.grade := rfl
@[simp] theorem State.setFn_stepping (f : FnRef) (x : Fn) : (s.setFn f x).stepping = s.stepping := rfl
@[simp] theorem State.setFn_clock (f : FnRef) (x : Fn) : (s.setFn f x).clock = s.clock := rfl
@[simp] theorem State.setFn_power (f : FnRef) (x : Fn) : (s.setFn f x).power = s.power := rfl
@[simp] theorem State.setFn_bring (f : FnRef) (x : Fn) : (s.setFn f x).bring = s.bring := rfl
@[simp] theorem State.setFn_ports (f : FnRef) (x : Fn) : (s.setFn f x).ports = s.ports := rfl
@[simp] theorem State.setFn_regions (f : FnRef) (x : Fn) : (s.setFn f x).regions = s.regions := rfl
@[simp] theorem State.setFn_leases (f : FnRef) (x : Fn) : (s.setFn f x).leases = s.leases := rfl
@[simp] theorem State.setFn_sessions (f : FnRef) (x : Fn) : (s.setFn f x).sessions = s.sessions := rfl
@[simp] theorem State.setFn_ctxs (f : FnRef) (x : Fn) : (s.setFn f x).ctxs = s.ctxs := rfl
@[simp] theorem State.setFn_cells (f : FnRef) (x : Fn) : (s.setFn f x).cells = s.cells := rfl
@[simp] theorem State.setFn_transit (f : FnRef) (x : Fn) : (s.setFn f x).transit = s.transit := rfl
@[simp] theorem State.setFn_plcMap (f : FnRef) (x : Fn) : (s.setFn f x).plcMap = s.plcMap := rfl
@[simp] theorem State.setFn_plcInfo (f : FnRef) (x : Fn) : (s.setFn f x).plcInfo = s.plcInfo := rfl
@[simp] theorem State.setFn_inService (f : FnRef) (x : Fn) : (s.setFn f x).inService = s.inService := rfl
@[simp] theorem State.setFn_windows (f : FnRef) (x : Fn) : (s.setFn f x).windows = s.windows := rfl
@[simp] theorem State.setFn_plcRegions (f : FnRef) (x : Fn) : (s.setFn f x).plcRegions = s.plcRegions := rfl
@[simp] theorem State.setFn_lantern (f : FnRef) (x : Fn) : (s.setFn f x).lantern = s.lantern := rfl
@[simp] theorem State.setFn_oldKills (f : FnRef) (x : Fn) : (s.setFn f x).oldKills = s.oldKills := rfl
@[simp] theorem State.setFn_unrecoverable (f : FnRef) (x : Fn) : (s.setFn f x).unrecoverable = s.unrecoverable := rfl
@[simp] theorem State.setFn_ended (f : FnRef) (x : Fn) : (s.setFn f x).ended = s.ended := rfl
@[simp] theorem State.setFn_reports (f : FnRef) (x : Fn) : (s.setFn f x).reports = s.reports := rfl
@[simp] theorem State.setFn_out (f : FnRef) (x : Fn) : (s.setFn f x).out = s.out := rfl
@[simp] theorem State.setFn_hostReads (f : FnRef) (x : Fn) : (s.setFn f x).hostReads = s.hostReads := rfl
@[simp] theorem State.setFn_accepts (f : FnRef) (x : Fn) : (s.setFn f x).accepts = s.accepts := rfl
@[simp] theorem State.setFn_free (f : FnRef) (x : Fn) : (s.setFn f x).free = s.free := rfl
@[simp] theorem State.setFn_pending (f : FnRef) (x : Fn) : (s.setFn f x).pending = s.pending := rfl

/-! ### State.onFn -/

@[simp] theorem State.onFn_grade (f : FnRef) (g : Fn → Fn) : (s.onFn f g).grade = s.grade := rfl
@[simp] theorem State.onFn_stepping (f : FnRef) (g : Fn → Fn) : (s.onFn f g).stepping = s.stepping := rfl
@[simp] theorem State.onFn_clock (f : FnRef) (g : Fn → Fn) : (s.onFn f g).clock = s.clock := rfl
@[simp] theorem State.onFn_power (f : FnRef) (g : Fn → Fn) : (s.onFn f g).power = s.power := rfl
@[simp] theorem State.onFn_bring (f : FnRef) (g : Fn → Fn) : (s.onFn f g).bring = s.bring := rfl
@[simp] theorem State.onFn_ports (f : FnRef) (g : Fn → Fn) : (s.onFn f g).ports = s.ports := rfl
@[simp] theorem State.onFn_regions (f : FnRef) (g : Fn → Fn) : (s.onFn f g).regions = s.regions := rfl
@[simp] theorem State.onFn_leases (f : FnRef) (g : Fn → Fn) : (s.onFn f g).leases = s.leases := rfl
@[simp] theorem State.onFn_sessions (f : FnRef) (g : Fn → Fn) : (s.onFn f g).sessions = s.sessions := rfl
@[simp] theorem State.onFn_ctxs (f : FnRef) (g : Fn → Fn) : (s.onFn f g).ctxs = s.ctxs := rfl
@[simp] theorem State.onFn_cells (f : FnRef) (g : Fn → Fn) : (s.onFn f g).cells = s.cells := rfl
@[simp] theorem State.onFn_transit (f : FnRef) (g : Fn → Fn) : (s.onFn f g).transit = s.transit := rfl
@[simp] theorem State.onFn_plcMap (f : FnRef) (g : Fn → Fn) : (s.onFn f g).plcMap = s.plcMap := rfl
@[simp] theorem State.onFn_plcInfo (f : FnRef) (g : Fn → Fn) : (s.onFn f g).plcInfo = s.plcInfo := rfl
@[simp] theorem State.onFn_inService (f : FnRef) (g : Fn → Fn) : (s.onFn f g).inService = s.inService := rfl
@[simp] theorem State.onFn_windows (f : FnRef) (g : Fn → Fn) : (s.onFn f g).windows = s.windows := rfl
@[simp] theorem State.onFn_plcRegions (f : FnRef) (g : Fn → Fn) : (s.onFn f g).plcRegions = s.plcRegions := rfl
@[simp] theorem State.onFn_lantern (f : FnRef) (g : Fn → Fn) : (s.onFn f g).lantern = s.lantern := rfl
@[simp] theorem State.onFn_oldKills (f : FnRef) (g : Fn → Fn) : (s.onFn f g).oldKills = s.oldKills := rfl
@[simp] theorem State.onFn_unrecoverable (f : FnRef) (g : Fn → Fn) : (s.onFn f g).unrecoverable = s.unrecoverable := rfl
@[simp] theorem State.onFn_ended (f : FnRef) (g : Fn → Fn) : (s.onFn f g).ended = s.ended := rfl
@[simp] theorem State.onFn_reports (f : FnRef) (g : Fn → Fn) : (s.onFn f g).reports = s.reports := rfl
@[simp] theorem State.onFn_out (f : FnRef) (g : Fn → Fn) : (s.onFn f g).out = s.out := rfl
@[simp] theorem State.onFn_hostReads (f : FnRef) (g : Fn → Fn) : (s.onFn f g).hostReads = s.hostReads := rfl
@[simp] theorem State.onFn_accepts (f : FnRef) (g : Fn → Fn) : (s.onFn f g).accepts = s.accepts := rfl
@[simp] theorem State.onFn_free (f : FnRef) (g : Fn → Fn) : (s.onFn f g).free = s.free := rfl
@[simp] theorem State.onFn_pending (f : FnRef) (g : Fn → Fn) : (s.onFn f g).pending = s.pending := rfl

/-! ### State.addEvent -/

@[simp] theorem State.addEvent_grade (f : FnRef) (e : EventRec) : (s.addEvent f e).grade = s.grade := rfl
@[simp] theorem State.addEvent_stepping (f : FnRef) (e : EventRec) : (s.addEvent f e).stepping = s.stepping := rfl
@[simp] theorem State.addEvent_clock (f : FnRef) (e : EventRec) : (s.addEvent f e).clock = s.clock := rfl
@[simp] theorem State.addEvent_power (f : FnRef) (e : EventRec) : (s.addEvent f e).power = s.power := rfl
@[simp] theorem State.addEvent_bring (f : FnRef) (e : EventRec) : (s.addEvent f e).bring = s.bring := rfl
@[simp] theorem State.addEvent_ports (f : FnRef) (e : EventRec) : (s.addEvent f e).ports = s.ports := rfl
@[simp] theorem State.addEvent_regions (f : FnRef) (e : EventRec) : (s.addEvent f e).regions = s.regions := rfl
@[simp] theorem State.addEvent_leases (f : FnRef) (e : EventRec) : (s.addEvent f e).leases = s.leases := rfl
@[simp] theorem State.addEvent_sessions (f : FnRef) (e : EventRec) : (s.addEvent f e).sessions = s.sessions := rfl
@[simp] theorem State.addEvent_ctxs (f : FnRef) (e : EventRec) : (s.addEvent f e).ctxs = s.ctxs := rfl
@[simp] theorem State.addEvent_cells (f : FnRef) (e : EventRec) : (s.addEvent f e).cells = s.cells := rfl
@[simp] theorem State.addEvent_transit (f : FnRef) (e : EventRec) : (s.addEvent f e).transit = s.transit := rfl
@[simp] theorem State.addEvent_plcMap (f : FnRef) (e : EventRec) : (s.addEvent f e).plcMap = s.plcMap := rfl
@[simp] theorem State.addEvent_plcInfo (f : FnRef) (e : EventRec) : (s.addEvent f e).plcInfo = s.plcInfo := rfl
@[simp] theorem State.addEvent_inService (f : FnRef) (e : EventRec) : (s.addEvent f e).inService = s.inService := rfl
@[simp] theorem State.addEvent_windows (f : FnRef) (e : EventRec) : (s.addEvent f e).windows = s.windows := rfl
@[simp] theorem State.addEvent_plcRegions (f : FnRef) (e : EventRec) : (s.addEvent f e).plcRegions = s.plcRegions := rfl
@[simp] theorem State.addEvent_lantern (f : FnRef) (e : EventRec) : (s.addEvent f e).lantern = s.lantern := rfl
@[simp] theorem State.addEvent_oldKills (f : FnRef) (e : EventRec) : (s.addEvent f e).oldKills = s.oldKills := rfl
@[simp] theorem State.addEvent_unrecoverable (f : FnRef) (e : EventRec) : (s.addEvent f e).unrecoverable = s.unrecoverable := rfl
@[simp] theorem State.addEvent_ended (f : FnRef) (e : EventRec) : (s.addEvent f e).ended = s.ended := rfl
@[simp] theorem State.addEvent_reports (f : FnRef) (e : EventRec) : (s.addEvent f e).reports = s.reports := rfl
@[simp] theorem State.addEvent_out (f : FnRef) (e : EventRec) : (s.addEvent f e).out = s.out := rfl
@[simp] theorem State.addEvent_hostReads (f : FnRef) (e : EventRec) : (s.addEvent f e).hostReads = s.hostReads := rfl
@[simp] theorem State.addEvent_accepts (f : FnRef) (e : EventRec) : (s.addEvent f e).accepts = s.accepts := rfl
@[simp] theorem State.addEvent_free (f : FnRef) (e : EventRec) : (s.addEvent f e).free = s.free := rfl
@[simp] theorem State.addEvent_pending (f : FnRef) (e : EventRec) : (s.addEvent f e).pending = s.pending := rfl

/-! ### State.emitOut -/

@[simp] theorem State.emitOut_grade (l : List Out) : (s.emitOut l).grade = s.grade := rfl
@[simp] theorem State.emitOut_stepping (l : List Out) : (s.emitOut l).stepping = s.stepping := rfl
@[simp] theorem State.emitOut_clock (l : List Out) : (s.emitOut l).clock = s.clock := rfl
@[simp] theorem State.emitOut_power (l : List Out) : (s.emitOut l).power = s.power := rfl
@[simp] theorem State.emitOut_bring (l : List Out) : (s.emitOut l).bring = s.bring := rfl
@[simp] theorem State.emitOut_ports (l : List Out) : (s.emitOut l).ports = s.ports := rfl
@[simp] theorem State.emitOut_regions (l : List Out) : (s.emitOut l).regions = s.regions := rfl
@[simp] theorem State.emitOut_leases (l : List Out) : (s.emitOut l).leases = s.leases := rfl
@[simp] theorem State.emitOut_sessions (l : List Out) : (s.emitOut l).sessions = s.sessions := rfl
@[simp] theorem State.emitOut_fns (l : List Out) : (s.emitOut l).fns = s.fns := rfl
@[simp] theorem State.emitOut_ctxs (l : List Out) : (s.emitOut l).ctxs = s.ctxs := rfl
@[simp] theorem State.emitOut_cells (l : List Out) : (s.emitOut l).cells = s.cells := rfl
@[simp] theorem State.emitOut_transit (l : List Out) : (s.emitOut l).transit = s.transit := rfl
@[simp] theorem State.emitOut_plcMap (l : List Out) : (s.emitOut l).plcMap = s.plcMap := rfl
@[simp] theorem State.emitOut_plcInfo (l : List Out) : (s.emitOut l).plcInfo = s.plcInfo := rfl
@[simp] theorem State.emitOut_inService (l : List Out) : (s.emitOut l).inService = s.inService := rfl
@[simp] theorem State.emitOut_windows (l : List Out) : (s.emitOut l).windows = s.windows := rfl
@[simp] theorem State.emitOut_plcRegions (l : List Out) : (s.emitOut l).plcRegions = s.plcRegions := rfl
@[simp] theorem State.emitOut_lantern (l : List Out) : (s.emitOut l).lantern = s.lantern := rfl
@[simp] theorem State.emitOut_oldKills (l : List Out) : (s.emitOut l).oldKills = s.oldKills := rfl
@[simp] theorem State.emitOut_unrecoverable (l : List Out) : (s.emitOut l).unrecoverable = s.unrecoverable := rfl
@[simp] theorem State.emitOut_ended (l : List Out) : (s.emitOut l).ended = s.ended := rfl
@[simp] theorem State.emitOut_reports (l : List Out) : (s.emitOut l).reports = s.reports := rfl
@[simp] theorem State.emitOut_hostReads (l : List Out) : (s.emitOut l).hostReads = s.hostReads := rfl
@[simp] theorem State.emitOut_accepts (l : List Out) : (s.emitOut l).accepts = s.accepts := rfl
@[simp] theorem State.emitOut_free (l : List Out) : (s.emitOut l).free = s.free := rfl
@[simp] theorem State.emitOut_pending (l : List Out) : (s.emitOut l).pending = s.pending := rfl

/-! ### Reading a part after it is set -/

@[simp] theorem State.ctx_setCtx (n : Nat) (x : Ctx) : (s.setCtx n x).ctx n = x := Mem.rd_put_self _ _ _ _
theorem State.ctx_setCtx_other {n m : Nat} (x : Ctx) (h : m ≠ n) : (s.setCtx n x).ctx m = s.ctx m :=
  Mem.rd_put_other _ _ _ _ _ h
@[simp] theorem State.ctx_onCtx (n : Nat) (f : Ctx → Ctx) : (s.onCtx n f).ctx n = f (s.ctx n) := State.ctx_setCtx s n _
theorem State.ctx_onCtx_other {n m : Nat} (f : Ctx → Ctx) (h : m ≠ n) : (s.onCtx n f).ctx m = s.ctx m :=
  State.ctx_setCtx_other s _ h
@[simp] theorem State.port_setPort (p : Nat) (x : Port) : (s.setPort p x).port p = x := Mem.rd_put_self _ _ _ _
theorem State.port_setPort_other {p q : Nat} (x : Port) (h : q ≠ p) : (s.setPort p x).port q = s.port q :=
  Mem.rd_put_other _ _ _ _ _ h
@[simp] theorem State.port_onPort (p : Nat) (f : Port → Port) : (s.onPort p f).port p = f (s.port p) :=
  State.port_setPort s p _
theorem State.port_onPort_other {p q : Nat} (f : Port → Port) (h : q ≠ p) : (s.onPort p f).port q = s.port q :=
  State.port_setPort_other s _ h
@[simp] theorem State.region_setRegion (p : Nat) (x : Region) : (s.setRegion p x).region p = x :=
  Mem.rd_put_self _ _ _ _
theorem State.region_setRegion_other {p q : Nat} (x : Region) (h : q ≠ p) :
    (s.setRegion p x).region q = s.region q := Mem.rd_put_other _ _ _ _ _ h
@[simp] theorem State.region_onRegion (p : Nat) (f : Region → Region) :
    (s.onRegion p f).region p = f (s.region p) := State.region_setRegion s p _
theorem State.region_onRegion_other {p q : Nat} (f : Region → Region) (h : q ≠ p) :
    (s.onRegion p f).region q = s.region q := State.region_setRegion_other s _ h

/-- Keys of functions are distinct. -/
theorem fnKey_injective {f g : FnRef} (h : fnKey f = fnKey g) : f = g := by
  obtain ⟨a, b⟩ := f; obtain ⟨a', b'⟩ := g
  simp only [fnKey] at h
  have hb := b.isLt; have hb' := b'.isLt
  simp only [FnRef.mk.injEq, Fin.ext_iff]; omega

@[simp] theorem State.fn_setFn (f : FnRef) (x : Fn) : (s.setFn f x).fn f = x := Mem.rd_put_self _ _ _ _
theorem State.fn_setFn_other {f g : FnRef} (x : Fn) (h : g ≠ f) : (s.setFn f x).fn g = s.fn g :=
  Mem.rd_put_other _ _ _ _ _ (fun e => h (fnKey_injective e))
@[simp] theorem State.fn_onFn (f : FnRef) (g : Fn → Fn) : (s.onFn f g).fn f = g (s.fn f) := State.fn_setFn s f _
theorem State.fn_onFn_other {f g : FnRef} (k : Fn → Fn) (h : g ≠ f) : (s.onFn f k).fn g = s.fn g :=
  State.fn_setFn_other s _ h

/-- Keys of cells are distinct. -/
theorem cellKey_injective {c d : CellRef} (h : cellKey c = cellKey d) : c = d := by
  obtain ⟨n, i⟩ := c; obtain ⟨m, j⟩ := d
  simp only [cellKey] at h
  have hi := i.isLt; have hj := j.isLt
  simp only [CellRef.mk.injEq, Fin.ext_iff, BitVec.toNat_eq]; omega

@[simp] theorem State.cell_setCell (c : CellRef) (x : Cell) : (s.setCell c x).cell? c = some x := Mem.find_put_self _ _ _
theorem State.cell_setCell_other {c d : CellRef} (x : Cell) (h : d ≠ c) : (s.setCell c x).cell? d = s.cell? d :=
  Mem.find_put_other _ _ _ _ (fun e => h (cellKey_injective e))
@[simp] theorem State.cell_onCell (c : CellRef) (f : Cell → Cell) : (s.onCell c f).cell? c = (s.cell? c).map f := by
  simp [State.onCell, State.cell?, Mem.find_adjust]
theorem State.cell_onCell_other {c d : CellRef} (f : Cell → Cell) (h : d ≠ c) :
    (s.onCell c f).cell? d = s.cell? d := by
  have : cellKey d ≠ cellKey c := fun e => h (cellKey_injective e)
  simp [State.onCell, State.cell?, Mem.find_adjust, this]

/-! ### Parts that another kind of update does not reach -/

@[simp] theorem State.port_of_setCtx (n : Nat) (x : Ctx) (q : Nat) : (s.setCtx n x).port q = s.port q := rfl
@[simp] theorem State.region_of_setCtx (n : Nat) (x : Ctx) (q : Nat) : (s.setCtx n x).region q = s.region q := rfl
@[simp] theorem State.fn_of_setCtx (n : Nat) (x : Ctx) (h : FnRef) : (s.setCtx n x).fn h = s.fn h := rfl
@[simp] theorem State.cell_of_setCtx (n : Nat) (x : Ctx) (d : CellRef) : (s.setCtx n x).cell? d = s.cell? d := rfl
@[simp] theorem State.port_of_onCtx (n : Nat) (f : Ctx → Ctx) (q : Nat) : (s.onCtx n f).port q = s.port q := rfl
@[simp] theorem State.region_of_onCtx (n : Nat) (f : Ctx → Ctx) (q : Nat) : (s.onCtx n f).region q = s.region q := rfl
@[simp] theorem State.fn_of_onCtx (n : Nat) (f : Ctx → Ctx) (h : FnRef) : (s.onCtx n f).fn h = s.fn h := rfl
@[simp] theorem State.cell_of_onCtx (n : Nat) (f : Ctx → Ctx) (d : CellRef) : (s.onCtx n f).cell? d = s.cell? d := rfl
@[simp] theorem State.ctx_of_setCell (c : CellRef) (x : Cell) (m : Nat) : (s.setCell c x).ctx m = s.ctx m := rfl
@[simp] theorem State.port_of_setCell (c : CellRef) (x : Cell) (q : Nat) : (s.setCell c x).port q = s.port q := rfl
@[simp] theorem State.region_of_setCell (c : CellRef) (x : Cell) (q : Nat) : (s.setCell c x).region q = s.region q := rfl
@[simp] theorem State.fn_of_setCell (c : CellRef) (x : Cell) (h : FnRef) : (s.setCell c x).fn h = s.fn h := rfl
@[simp] theorem State.ctx_of_onCell (c : CellRef) (f : Cell → Cell) (m : Nat) : (s.onCell c f).ctx m = s.ctx m := rfl
@[simp] theorem State.port_of_onCell (c : CellRef) (f : Cell → Cell) (q : Nat) : (s.onCell c f).port q = s.port q := rfl
@[simp] theorem State.region_of_onCell (c : CellRef) (f : Cell → Cell) (q : Nat) : (s.onCell c f).region q = s.region q := rfl
@[simp] theorem State.fn_of_onCell (c : CellRef) (f : Cell → Cell) (h : FnRef) : (s.onCell c f).fn h = s.fn h := rfl
@[simp] theorem State.ctx_of_onCells (n : Nat) (f : Cell → Cell) (m : Nat) : (s.onCells n f).ctx m = s.ctx m := rfl
@[simp] theorem State.port_of_onCells (n : Nat) (f : Cell → Cell) (q : Nat) : (s.onCells n f).port q = s.port q := rfl
@[simp] theorem State.region_of_onCells (n : Nat) (f : Cell → Cell) (q : Nat) : (s.onCells n f).region q = s.region q := rfl
@[simp] theorem State.fn_of_onCells (n : Nat) (f : Cell → Cell) (h : FnRef) : (s.onCells n f).fn h = s.fn h := rfl
@[simp] theorem State.ctx_of_setPort (p : Nat) (x : Port) (m : Nat) : (s.setPort p x).ctx m = s.ctx m := rfl
@[simp] theorem State.region_of_setPort (p : Nat) (x : Port) (q : Nat) : (s.setPort p x).region q = s.region q := rfl
@[simp] theorem State.fn_of_setPort (p : Nat) (x : Port) (h : FnRef) : (s.setPort p x).fn h = s.fn h := rfl
@[simp] theorem State.cell_of_setPort (p : Nat) (x : Port) (d : CellRef) : (s.setPort p x).cell? d = s.cell? d := rfl
@[simp] theorem State.ctx_of_onPort (p : Nat) (f : Port → Port) (m : Nat) : (s.onPort p f).ctx m = s.ctx m := rfl
@[simp] theorem State.region_of_onPort (p : Nat) (f : Port → Port) (q : Nat) : (s.onPort p f).region q = s.region q := rfl
@[simp] theorem State.fn_of_onPort (p : Nat) (f : Port → Port) (h : FnRef) : (s.onPort p f).fn h = s.fn h := rfl
@[simp] theorem State.cell_of_onPort (p : Nat) (f : Port → Port) (d : CellRef) : (s.onPort p f).cell? d = s.cell? d := rfl
@[simp] theorem State.ctx_of_setRegion (p : Nat) (x : Region) (m : Nat) : (s.setRegion p x).ctx m = s.ctx m := rfl
@[simp] theorem State.port_of_setRegion (p : Nat) (x : Region) (q : Nat) : (s.setRegion p x).port q = s.port q := rfl
@[simp] theorem State.fn_of_setRegion (p : Nat) (x : Region) (h : FnRef) : (s.setRegion p x).fn h = s.fn h := rfl
@[simp] theorem State.cell_of_setRegion (p : Nat) (x : Region) (d : CellRef) : (s.setRegion p x).cell? d = s.cell? d := rfl
@[simp] theorem State.ctx_of_onRegion (p : Nat) (f : Region → Region) (m : Nat) : (s.onRegion p f).ctx m = s.ctx m := rfl
@[simp] theorem State.port_of_onRegion (p : Nat) (f : Region → Region) (q : Nat) : (s.onRegion p f).port q = s.port q := rfl
@[simp] theorem State.fn_of_onRegion (p : Nat) (f : Region → Region) (h : FnRef) : (s.onRegion p f).fn h = s.fn h := rfl
@[simp] theorem State.cell_of_onRegion (p : Nat) (f : Region → Region) (d : CellRef) : (s.onRegion p f).cell? d = s.cell? d := rfl
@[simp] theorem State.ctx_of_setFn (f : FnRef) (x : Fn) (m : Nat) : (s.setFn f x).ctx m = s.ctx m := rfl
@[simp] theorem State.port_of_setFn (f : FnRef) (x : Fn) (q : Nat) : (s.setFn f x).port q = s.port q := rfl
@[simp] theorem State.region_of_setFn (f : FnRef) (x : Fn) (q : Nat) : (s.setFn f x).region q = s.region q := rfl
@[simp] theorem State.cell_of_setFn (f : FnRef) (x : Fn) (d : CellRef) : (s.setFn f x).cell? d = s.cell? d := rfl
@[simp] theorem State.ctx_of_onFn (f : FnRef) (g : Fn → Fn) (m : Nat) : (s.onFn f g).ctx m = s.ctx m := rfl
@[simp] theorem State.port_of_onFn (f : FnRef) (g : Fn → Fn) (q : Nat) : (s.onFn f g).port q = s.port q := rfl
@[simp] theorem State.region_of_onFn (f : FnRef) (g : Fn → Fn) (q : Nat) : (s.onFn f g).region q = s.region q := rfl
@[simp] theorem State.cell_of_onFn (f : FnRef) (g : Fn → Fn) (d : CellRef) : (s.onFn f g).cell? d = s.cell? d := rfl
@[simp] theorem State.ctx_of_addEvent (f : FnRef) (e : EventRec) (m : Nat) : (s.addEvent f e).ctx m = s.ctx m := rfl
@[simp] theorem State.port_of_addEvent (f : FnRef) (e : EventRec) (q : Nat) : (s.addEvent f e).port q = s.port q := rfl
@[simp] theorem State.region_of_addEvent (f : FnRef) (e : EventRec) (q : Nat) : (s.addEvent f e).region q = s.region q := rfl
@[simp] theorem State.cell_of_addEvent (f : FnRef) (e : EventRec) (d : CellRef) : (s.addEvent f e).cell? d = s.cell? d := rfl
@[simp] theorem State.ctx_of_emitOut (l : List Out) (m : Nat) : (s.emitOut l).ctx m = s.ctx m := rfl
@[simp] theorem State.port_of_emitOut (l : List Out) (q : Nat) : (s.emitOut l).port q = s.port q := rfl
@[simp] theorem State.region_of_emitOut (l : List Out) (q : Nat) : (s.emitOut l).region q = s.region q := rfl
@[simp] theorem State.fn_of_emitOut (l : List Out) (h : FnRef) : (s.emitOut l).fn h = s.fn h := rfl
@[simp] theorem State.cell_of_emitOut (l : List Out) (d : CellRef) : (s.emitOut l).cell? d = s.cell? d := rfl

end Sys2Proof.Machine
end

