-- ==== Sys2Proof/Laws/Ops.lean ====
section
/-!
SUPPORT. Sys2Proof/Laws/Ops.lean: what the shared operations of Machine/Ops.lean can do: traffic that a cell sends, and the
issue of a slot.
-/
namespace Sys2Proof.Machine

variable (s : State)

/-- A fold of updates keeps what each of them keeps. -/
theorem foldl_keeps {α β : Type} (p : α → Prop) (f : α → β → α) (hf : ∀ a b, p a → p (f a b)) (l : List β) :
    ∀ a, p a → p (l.foldl f a) := by
  induction l with
  | nil => exact fun _ h => h
  | cons b l ih => exact fun a h => ih _ (hf a b h)

/-- A fold of updates leaves what each of them leaves. -/
theorem foldl_same {α β γ : Type} (p : α → γ) (f : α → β → α) (hf : ∀ a b, p (f a b) = p a) (l : List β) (a : α) :
    p (l.foldl f a) = p a :=
  foldl_keeps (fun x => p x = p a) f (fun x b h => (hf x b).trans h) l a rfl

/-! ### Traffic that a cell sends -/

/-- The state `t` with the parts that traffic can change taken from `s`. -/
def State.withTrafficOf (t s : State) : State :=
  { t with ctxs := s.ctxs, transit := s.transit, reports := s.reports, regions := s.regions, ports := s.ports }

/-- A corrected word changes counters of a region and what is reported, nothing else. -/
theorem State.countCe_frame (t : State) (p : PhysCell) (k : Nat) :
    (t.countCe p k).withTrafficOf s = t.withTrafficOf s ∧ (t.countCe p k).ctxs = t.ctxs := by
  unfold State.countCe State.tellCe; dsimp only; split_ifs <;> exact ⟨rfl, rfl⟩

/-- A loose message changes a port's queue, nothing else. -/
theorem State.sendLoose_frame (t : State) (n r : Nat) (m : List Flit) :
    (t.sendLoose n r m).withTrafficOf s = t.withTrafficOf s ∧ (t.sendLoose n r m).ctxs = t.ctxs := by
  unfold State.sendLoose; split <;> exact ⟨rfl, rfl⟩

/-- Traffic changes the context it goes into, loose items, reports, error counts and link queues: no cell and no command. -/
theorem State.emit_frame (n : Nat) (e : Emit) : (s.emit n e).withTrafficOf s = s := by
  unfold State.emit
  dsimp only
  rw [foldl_same (fun t : State => t.withTrafficOf s) _ (fun t _ => (State.sendLoose_frame s t _ _ _).1),
    foldl_same (fun t : State => t.withTrafficOf s) _ (fun t _ => (State.countCe_frame s t _ _).1)]
  rfl

@[simp] theorem State.emit_cells (n : Nat) (e : Emit) : (s.emit n e).cells = s.cells := by
  simpa [State.withTrafficOf] using congrArg State.cells (State.emit_frame s n e)
@[simp] theorem State.emit_pending (n : Nat) (e : Emit) : (s.emit n e).pending = s.pending := by
  simpa [State.withTrafficOf] using congrArg State.pending (State.emit_frame s n e)
@[simp] theorem State.emit_fns (n : Nat) (e : Emit) : (s.emit n e).fns = s.fns := by
  simpa [State.withTrafficOf] using congrArg State.fns (State.emit_frame s n e)
@[simp] theorem State.emit_clock (n : Nat) (e : Emit) : (s.emit n e).clock = s.clock := by
  simpa [State.withTrafficOf] using congrArg State.clock (State.emit_frame s n e)
@[simp] theorem State.emit_lantern (n : Nat) (e : Emit) : (s.emit n e).lantern = s.lantern := by
  simpa [State.withTrafficOf] using congrArg State.lantern (State.emit_frame s n e)
@[simp] theorem State.cell_emit (n : Nat) (e : Emit) (c : CellRef) : (s.emit n e).cell? c = s.cell? c := by
  simp [State.cell?]

/-- Traffic reaches one context. -/
theorem State.ctx_emit_other {n m : Nat} (e : Emit) (h : m ≠ n) : (s.emit n e).ctx m = s.ctx m := by
  unfold State.emit State.ctx
  dsimp only
  rw [foldl_same State.ctxs _ (fun t _ => (State.sendLoose_frame t t _ _ _).2),
    foldl_same State.ctxs _ (fun t _ => (State.countCe_frame t t _ _).2)]
  exact Mem.rd_put_other _ _ _ _ _ h

/-- No traffic changes nothing. -/
theorem State.emit_empty (n : Nat) : s.emit n {} = s.setCtx n (s.ctx n) := by
  simp [State.emit, addHazards, addReads, State.setCtx]

/-! ### The issue of a slot (R55 to R58) -/

/-- A slot that its cell does not execute now changes nothing. -/
theorem issueSlot_idle {s : State} {c : CellRef} {sl : Slot} {i : Instr} {body : Ctx → Cell → SlotAct}
    (h : ∀ cell, s.cell? c = some cell → canIssue s (s.ctx c.ctx.val) cell sl = false) : issueSlot s c sl i body = s := by
  unfold issueSlot
  cases hc : s.cell? c with
  | none => rfl
  | some cell => simp [h cell hc]

/-- A slot that its cell executes now goes through the stages of R56. -/
theorem issueSlot_runs {s : State} {c : CellRef} {sl : Slot} {i : Instr} {body : Ctx → Cell → SlotAct} {cell : Cell}
    (hc : s.cell? c = some cell) (h : canIssue s (s.ctx c.ctx.val) cell sl = true) :
    issueSlot s c sl i body =
      (s.setCell c (markIssued (issueStages (s.ctx c.ctx.val) cell sl i (body (s.ctx c.ctx.val) cell)).1 sl)).emit
        c.ctx.val (issueStages (s.ctx c.ctx.val) cell sl i (body (s.ctx c.ctx.val) cell)).2 := by
  unfold issueSlot; rw [hc]; simp [h]

/-- What issuing a slot can do: nothing, or the cell changes and its context gets traffic. -/
theorem issueSlot_cases (s : State) (c : CellRef) (sl : Slot) (i : Instr) (body : Ctx → Cell → SlotAct) :
    issueSlot s c sl i body = s ∨ ∃ cell e, issueSlot s c sl i body = (s.setCell c cell).emit c.ctx.val e := by
  unfold issueSlot
  split
  · exact .inl rfl
  · dsimp only
    split
    · exact .inr ⟨_, _, rfl⟩
    · exact .inl rfl

/-- Issuing a slot leaves every other cell, every other context, and the waiting commands as they are. -/
theorem issueSlot_other (s : State) (c : CellRef) (sl : Slot) (i : Instr) (body : Ctx → Cell → SlotAct) :
    (∀ d, d ≠ c → (issueSlot s c sl i body).cell? d = s.cell? d) ∧
    (∀ m, m ≠ c.ctx.val → (issueSlot s c sl i body).ctx m = s.ctx m) ∧
    (issueSlot s c sl i body).pending = s.pending := by
  rcases issueSlot_cases s c sl i body with h | ⟨cell, e, h⟩
  · rw [h]; simp
  · rw [h]
    exact ⟨fun d hd => by simp [State.cell_setCell_other s cell hd],
      fun m hm => by rw [State.ctx_emit_other _ _ hm]; rfl, by simp⟩

end Sys2Proof.Machine
end

