-- ==== Sys2Proof/Laws/Issue.lean ====
section
/-!
SUPPORT. Sys2Proof/Laws/Issue.lean: how a slot that its cell issues ends: executed, skipped by a check of its unit, skipped as
illegal, or skipped for a conflict (R56 to R58).
-/
namespace Sys2Proof.Machine

variable {s : State} {c : CellRef} {sl : Slot} {i : Instr} {body : Ctx → Cell → SlotAct} {cell : Cell}

/-- A cell that changes and sends nothing. -/
theorem cellBecomes_emit_empty (s : State) (c : CellRef) (x : Cell) :
    CellBecomes s ((s.setCell c x).emit c.ctx.val {}) c x := by
  refine ⟨by simp, fun d hd => by simp [State.cell_setCell_other _ _ hd], fun m => ?_, ?_⟩
  · by_cases hm : m = c.ctx.val
    · subst hm; rw [State.emit_empty]; simp
    · rw [State.ctx_emit_other _ _ hm]; rfl
  · rw [State.emit_empty]; rfl

/-- The slot executes: it is legal, passes the checks of its unit and meets no conflict. -/
theorem issueSlot_executes (h : Issuing s c sl cell) (hl : legal i = true)
    (hi : (body (s.ctx c.ctx.val) cell).illegal = false) (hr : (body (s.ctx c.ctx.val) cell).reason = none)
    (hb : bankConflict cell (slotRank sl) (body (s.ctx c.ctx.val) cell).reads = false)
    (hd : descConflict cell (body (s.ctx c.ctx.val) cell).desc = false) :
    issueSlot s c sl i body =
      (s.setCell c (markIssued (claimDesc (claimBanks (body (s.ctx c.ctx.val) cell).cell (slotRank sl)
        (body (s.ctx c.ctx.val) cell).reads) (body (s.ctx c.ctx.val) cell).desc) sl)).emit c.ctx.val
        (body (s.ctx c.ctx.val) cell).emit := by
  rw [issueSlot_runs h.here h.can]
  simp [issueStages, hl, hi, hr, hb, hd]

/-- The slot executes and its only effect is on its own cell. -/
theorem issueSlot_changes_cell {cell' : Cell} (h : Issuing s c sl cell) (hl : legal i = true)
    (hi : (body (s.ctx c.ctx.val) cell).illegal = false) (hr : (body (s.ctx c.ctx.val) cell).reason = none)
    (hb : (body (s.ctx c.ctx.val) cell).reads = []) (hd : (body (s.ctx c.ctx.val) cell).desc = none)
    (he : (body (s.ctx c.ctx.val) cell).emit = {}) (hc : (body (s.ctx c.ctx.val) cell).cell = cell') :
    CellBecomes s (issueSlot s c sl i body) c (markIssued cell' sl) := by
  rw [issueSlot_executes h hl hi hr (by simp [hb, bankConflict, banks]) (by simp [hd, descConflict]), hb, hd, he, hc]
  simpa [claimDesc, claimBanks, banks] using cellBecomes_emit_empty s c (markIssued cell' sl)

/-- A check of the unit skips the slot (R56, R57). -/
theorem issueSlot_skips {r : Nat} (h : Issuing s c sl cell) (hl : legal i = true)
    (hi : (body (s.ctx c.ctx.val) cell).illegal = false) (hr : (body (s.ctx c.ctx.val) cell).reason = some r) :
    CellBecomes s (issueSlot s c sl i body) c
      (markIssued (skipSlot (s.ctx c.ctx.val) cell sl ((encodeSlot i).getD 0) r) sl) := by
  rw [issueSlot_runs h.here h.can]
  simp only [issueStages, hl, hi, hr]
  exact cellBecomes_emit_empty s c _

/-- An illegal slot is skipped (R55, R57). -/
theorem issueSlot_illegal (h : Issuing s c sl cell)
    (hi : legal i = false ∨ (body (s.ctx c.ctx.val) cell).illegal = true) :
    CellBecomes s (issueSlot s c sl i body) c
      (markIssued (skipSlot (s.ctx c.ctx.val) cell sl ((encodeSlot i).getD 0) 1) sl) := by
  rw [issueSlot_runs h.here h.can]
  have : (!legal i || (body (s.ctx c.ctx.val) cell).illegal) = true := by rcases hi with hi | hi <;> simp [hi]
  simp only [issueStages, this]
  exact cellBecomes_emit_empty s c _

/-- A conflict with a higher slot of the course skips the slot (R56, R57). -/
theorem issueSlot_conflict (h : Issuing s c sl cell) (hl : legal i = true)
    (hi : (body (s.ctx c.ctx.val) cell).illegal = false) (hr : (body (s.ctx c.ctx.val) cell).reason = none)
    (hb : bankConflict cell (slotRank sl) (body (s.ctx c.ctx.val) cell).reads = true ∨
      descConflict cell (body (s.ctx c.ctx.val) cell).desc = true) :
    CellBecomes s (issueSlot s c sl i body) c
      (markIssued (skipSlot (s.ctx c.ctx.val) cell sl ((encodeSlot i).getD 0) 2) sl) := by
  rw [issueSlot_runs h.here h.can]
  have : (bankConflict cell (slotRank sl) (body (s.ctx c.ctx.val) cell).reads ||
    descConflict cell (body (s.ctx c.ctx.val) cell).desc) = true := by rcases hb with hb | hb <;> simp [hb]
  simp only [issueStages, hl, hi, hr, this]
  exact cellBecomes_emit_empty s c _

end Sys2Proof.Machine
end

