-- ==== Sys2Proof/Tests/Slice0.lean ====
section
/-!
SUPPORT. Sys2Proof/Tests/Slice0.lean: small tests of the model. Words of slots are written field by field from the spec's
encodings, results are those of its worked examples or of hand calculation from its tables, and for every statement with
hypotheses there is a state that meets those of each clause.
-/
namespace Sys2Proof.Tests

set_option Elab.async false

open Sys2Proof.Machine

/-! ### A small machine: context 0 of function 1 of H0 runs on region 0, and has one cell -/

def r0 : CellRef := ⟨0, 0⟩
def f1 : FnRef := ⟨0, 1⟩

def cl : Cell := { now := 100, begun := true, ctl := { live := true } }

def cx : Ctx := { state := .running, cc := 320, regions := [0], owner := f1, handle := 2, session := 5 }

/-- A module that has started, at 1 s of the dome count, with context `x` and its cell `c`. -/
def st (x : Ctx) (c : Cell) : State :=
  { clock := { on := true, clk := 1000000, dome := 1000000000, khz := 1500000, groupKhz := 1500000, stage := 11, domeValid := true
               refState := 1 }
    bring := { at_ := .ready, pcieReady := true, h0 := .trained 5 8 false }
    ctxs := [(0, x)], cells := [(0, c)], regions := [(0, { owner := some 0 })]
    fns := [(1, { handles := [(2, 0)] })] }

theorem test_cell (x : Ctx) (c : Cell) : (st x c).cell? r0 = some c := by
  simp [State.cell?, st, cellKey, r0, Mem.find]

theorem test_issuing (sl : Slot) : Issuing (st cx cl) r0 sl cl := ⟨test_cell cx cl, by cases sl <;> decide +kernel⟩

theorem test_moving : Moving (st cx cl) r0 cl := ⟨test_cell cx cl, by decide +kernel, rfl, by decide +kernel⟩

theorem test_readable : Readable cl 639 := ⟨by decide, by decide, by decide⟩

theorem test_running : running (st cx cl) cx = true := by decide +kernel

/-! ### Well-formedness: each check of `legal` refuses a term -/

theorem test_legal_refuses : [.slli r0 1 2 32, .srli r0 1 2 32, .srai r0 1 2 0xFFFFFFFF, .li r0 1 1 5, .fadd r0 16 0 0, .fsub r0 0 16 0,
    .fmul r0 0 0 16, .fmin r0 31 0 0, .fmax r0 0 31 0, .fcvtsw r0 16 0 0, .fcvtsw r0 0 0 1, .fmvsx r0 16 0 0, .fcvtws r0 0 16 0,
    .fmvxs r0 0 0 1, .feq r0 0 16 0, .flt r0 0 0 16, .fle r0 0 16 0, .fli r0 16 0 0, .fli r0 0 1 0, .flw r0 16 0 0, .fsw r0 16 0 0,
    .mfc r0 0 0x008, .mtc r0 0 0x600, .j r0 1 0 false 0, .j r0 0 0 true 0, .jal r0 1 1 false 0, .jr r0 1 0 false 1,
    .loop r0 0 true false 1 9, .loop r0 1 false false 0 9, .ovl r0 640 0, .tpass r0 0 3 9 false 0 0, .tpass r0 7 3 3 false 0 0,
    .tpass r0 5 13 13 true 0 0, .tpass r0 0 3 3 false 0 1, .scld r0 0 0 6 0, .tdrain r0 0 0 0 2 false false, .tdrain r0 0 0 0 0 true false,
    .tclr r0 0, .vld r0 0 0 13 0 0 false, .vld r0 0 0 0 0 0 true, .vst r0 0 0 15 0 0 false, .vred r0 7 false 0 0 0 0 0 0 false,
    .vreds r0 0 16 0 0 0 false 0, .vreds r0 3 0 0 0 0 false 1, .vxdrain r0 false 0 0 1 false, .vmset r0 0 0 0, .vmset r0 1 3 0,
    .vmop r0 0 0 0 0, .afrxsend r0 0 0 0, .afrcvt r0 0 0 1 0 0 0 false, .afrsend r0 0 0 0 0 0 0, .afrsend r0 0 1 0 0 0 640,
    .afrfin r0 0 0 0 0 1, .wait r0 0 0, .post r0 0 0].all (fun i => !legal i) = true := by decide

theorem test_legal_accepts : [.slli r0 1 2 31, .li r0 1 0 5, .fadd r0 15 15 15, .mfc r0 0 0x007, .tpass r0 0 3 3 true 3 0,
    .tpass r0 0 1 1 false 0 0x3FF, .vxdrain r0 true 0 0 31 false, .loop r0 1 true false 0 9, .wait r0 0 63].all legal = true := by
  decide

/-! ### Decoding: words written field by field -/

theorem test_decode_scalar : decodeS r0 (0x01#8 ++ 3#5 ++ 1#5 ++ 2#5 ++ 0#41) = some (.add r0 3 1 2) := by decide
theorem test_decode_tpass_forward : decodeT r0 0x041980000000 = some (.tpass r0 0 3 3 false 0 0) := by decide
theorem test_decode_tpass_backward : decodeT r0 0x0421C0000000 = some (.tpass r0 0 4 3 true 0 0) := by decide
theorem test_decode_wait : decodeQ r0 (0x1#4 ++ 5#6 ++ 63#6) = some (.wait r0 5 63) := by decide
theorem test_decode_rejoin : decodeQ r0 (0x6#4 ++ 7#3 ++ 31#5 ++ 0#4) = some (.rejoin r0 7 31) := by decide
theorem test_decode_qrecv : decodeQ r0 (0xA#4 ++ 1#1 ++ 4#5 ++ 0#6) = some (.qrecv r0 true 4) := by decide
theorem test_decode_reserved : decodeQ r0 (0x7#4 ++ 1#12) = none ∧ decodeQ r0 (0xD#4 ++ 0#12) = none ∧
    decodeQ r0 (0x2#4 ++ 5#6 ++ 3#5 ++ 1#1) = none ∧ decodeS r0 (0x01#8 ++ 3#5 ++ 1#5 ++ 2#5 ++ 1#41) = none := by decide
theorem test_decode_nop : decodeS r0 0 = some (.nop r0 .S) ∧ decodeQ r0 0 = some (.nop r0 .Q) := by decide

/-! ### Worked examples of the spec -/

/-- A property of the state that a step answers. -/
def after (o : Host.Outcome State Fault Refusal) (p : State → Bool) : Bool :=
  match o with
  | .next t => p t
  | _ => false

/-- The command entry of chapter 13's launch example. -/
def launchEntry : Codeword := packFields 512 [(7, 0, 0x12), (15, 8, 2), (31, 16, 0x0041), (127, 64, 0x0000065DD084F6A0)]

/-- VF 3 of H1 with its handle 2 on context 9. -/
def launchState : State :=
  { clock := { on := true, dome := 7000000003200, khz := 1500000, groupKhz := 1500000, stage := 11, domeValid := true }
    bring := { at_ := .ready }
    ctxs := [(9, { state := .loaded, owner := ⟨1, 3⟩, handle := 2, padded := true })]
    fns := [(19, { handles := [(2, 9)], cmdqOn := true, cmdqSize := 6, cmdqHead := 63, cmdqTail := 0, cplqOn := true, cplqSize := 7
                   cplqHead := 5, phase := false, intOn := true, msixMask := 0, cfg := { msixOn := true } })] }

theorem test_fetch_launch : after (exec (.commandFetch ⟨1, 3⟩ (some launchEntry)) launchState) (fun t =>
    decide ((t.fn ⟨1, 3⟩).cmdqHead = 0) && decide ((t.fn ⟨1, 3⟩).cmds.length = 1)) = true := by decide +kernel

/-- The launch example with its command accepted. -/
def launchAccepted : State :=
  { launchState with fns := [(19, { launchState.fn ⟨1, 3⟩ with cmds := [⟨0, launchEntry, false, true, 7000000003200, 0, 0⟩] })] }

/-- The record is 41 00 00 00 02 09 20 00 and 24 bytes of 0, at index 0, and MSI-X vector 0 follows. -/
theorem test_launch_record : after (exec (.launch ⟨1, 3⟩ 0) launchAccepted) (fun t =>
    decide (t.out = [.record ⟨1, 3⟩ 0 (BitVec.ofNat 256 0x0020090200000041), .msix ⟨1, 3⟩ 0]) &&
    decide ((t.ctx 9).state = .armed ∧ (t.ctx 9).launch = 7000000100000)) = true := by decide +kernel

/-- While its mask bit is set the vector waits in the pending bits, and leaves when the bit clears. -/
theorem test_msix_masked :
    after (exec (.launch ⟨1, 3⟩ 0) { launchAccepted with fns := [(19, { launchAccepted.fn ⟨1, 3⟩ with msixMask := 3 })] }) (fun t =>
      decide (t.out.length = 1) && decide (readBar t ⟨1, 3⟩ false 0x9000 = 1)) = true ∧
    after (exec (.registerWrite (.msix ⟨1, 3⟩ 8) 0x55) { launchState with
        fns := [(19, { launchState.fn ⟨1, 3⟩ with msixMask := 3, msixPend := 1 })] }) (fun t =>
      decide (t.out = [.msix ⟨1, 3⟩ 0]) && decide (readBar t ⟨1, 3⟩ false 0x9000 = 0) &&
      decide (readBar t ⟨1, 3⟩ false 0x8008 = 0x55)) = true := by decide +kernel

/-- Accepted later than L - 5,000, the launch is too late. -/
theorem test_launch_too_late : after (exec (.launch ⟨1, 3⟩ 0) { launchState with
      fns := [(19, { launchState.fn ⟨1, 3⟩ with cmds := [⟨0, launchEntry, false, true, 7000000095001, 0, 0⟩] })] }) (fun t =>
    decide (t.out = [.record ⟨1, 3⟩ 0 (BitVec.ofNat 256 0x0020090200200041), .msix ⟨1, 3⟩ 0]) &&
    decide ((t.ctx 9).state = .loaded)) = true := by decide +kernel

/-- Schedule cycle 0 begins at the first edge after L + 320 ns: an edge at L + 320 itself is not it (R22). -/
theorem test_launch_edge :
    after (exec (.contextStart 9) { launchState with
        clock := { launchState.clock with dome := 7000000100321 }
        ctxs := [(9, { state := .armed, launch := 7000000100000 })] }) (fun t => decide ((t.ctx 9).state = .running)) = true ∧
    after (exec (.contextStart 9) { launchState with
        clock := { launchState.clock with dome := 7000000100320 }
        ctxs := [(9, { state := .armed, launch := 7000000100000 })] }) (fun t => decide ((t.ctx 9).state = .armed)) = true := by
  decide +kernel

/-- Chapter 15's envelope over I3C: TAG 0x07, 2,400 W, group 2 written 41 times before. -/
def envelopeReq (tag : Byte) : OdReq := { op := 2, tag := tag, index := 0x2000, sub := 1, zero := 0, offset := 0, length := 2 }
def envelopeState : State := { bring := { at_ := .ready }, lantern := { wear := (Vector.replicate 8 0).set 2 41 } }

/-- The messages that have left over a path, after message type and vendor ID. -/
def messages (t : State) : List (ReqPath × List Byte) :=
  t.out.filterMap (fun o => match o with | .mctp q b => some (q, b.drop 3) | _ => none)

theorem test_envelope_ok : after (exec (.odWrite .i3c (envelopeReq 7) [0x60, 0x09] false) envelopeState) (fun t =>
    decide (messages t = [(.i3c, [0x82, 0x07, 0x00, 0x00, 0x00, 0x00])]) && decide (t.lantern.od.envelope = 2400) &&
    decide (vecAt t.lantern.wear 2 = 42) && decide (t.lantern.log.map (fun e => (e.2.code, e.2.arg)) = [(9, 2400)])) = true := by
  decide +kernel

theorem test_envelope_refused : after (exec (.odWrite .i3c (envelopeReq 8) [0x92, 0x09] false) envelopeState) (fun t =>
    decide (messages t = [(.i3c, [0x82, 0x08, 0x03, 0x00, 0x00, 0x00])]) && decide (vecAt t.lantern.wear 2 = 41)) = true := by
  decide +kernel

/-- Chapter 16's swapped cables: ports 5 and 6 meet positions 1 and 0. -/
def swapped : State :=
  let p (k address partner : Nat) : Nat × Port := (k, { state := .active, mode := 1, partnerWord := packFields 64 [(44, 27, address), (51, 47, partner)] })
  { bring := { at_ := .stage 9, startUs := 2793000 }
    ports := [p 5 0x4001 0, p 6 0x4000 1]
    lantern := { address := 0x4002, od := { expect := [(5, 0x00080001), (6, 0x00080020)] } } }

theorem test_stage_s9 : after (exec (.stageS9 4000) swapped) (fun t =>
    decide ((t.port 5).state = .down ∧ (t.port 6).state = .down ∧ (t.port 5).mismatched = true) &&
    decide ((Mem.find t.bring.records 9).map (fun r => (fld r 15 0, fld r 95 64, fld r 127 96, fld r 143 128)) =
      some (0x0209, 0x002A9E28, 0x00000FA0, 0x0060))) = true := by decide +kernel

/-- Chapter 10's ring that wraps: q0 with BASE 600 and LEN 24, M1 of 6 rows at 14, and M2 to M4. -/
def ringQueue : Queue :=
  { ring := BitVec.ofNat 32 (600 + 24 * 2 ^ 20), head := 14, tail := 20, used := 6
    table := [{ marker := false, first := 14, rows := 6, tag := 0x002F, src := ⟨0, false, 0⟩, left := 0, visible := true }] }
def message (tag : BitVec 16) (rows : Nat) : StagedMsg :=
  ⟨false, tag, ⟨0, false, 0⟩, List.replicate rows 0, .none, false, 0⟩
def ringCell : Cell := { cl with sync := { cl.sync with queues := (Vector.replicate 2 {}).set 0 ringQueue } }

/-- M2, 5 rows: 4 rows remain before the end, and it goes to offset 0 behind a marker of rows 20 to 23. -/
theorem test_ring_wraps : after (exec (.messageProcessing r0) (st cx { ringCell with
      sync := { ringCell.sync with received := [message 0x0030 5] } })) (fun t =>
    match t.cell? r0 with
    | some c => let q := queueAt c false
      decide ((q.head, q.tail, q.used) = (14, 5, 15)) &&
      decide (q.table.map (fun e => (e.marker, e.first, e.rows)) = [(false, 14, 6), (true, 20, 4), (false, 0, 5)])
    | none => false) = true := by decide +kernel

/-- After QPOP, QRECV of M2 gives row 600, 5 rows, tag 0x0030. -/
theorem test_qrecv_value : after (exec (.qrecv r0 false 9) (st cx { ringCell with
      sync := { ringCell.sync with queues := (Vector.replicate 2 {}).set 0 { ringQueue with
        head := 0, tail := 14, used := 14
        table := [⟨false, 0, 5, 0x0030, ⟨0, false, 0⟩, 0, true⟩, ⟨false, 5, 9, 0x0032, ⟨0, false, 0⟩, 0, true⟩] } } })) (fun t =>
    match t.cell? r0 with
    | some c => decide (c.sc.res.map (fun r => (r.dst, r.val)) = [(.s 9, 0x96100030)])
    | none => false) = true := by decide +kernel

/-- Table 3.9: LOOP at 0x040 with END 0x05F and s4 = 3, and with s4 = 0. -/
def loopCell (n : Word) : Cell := { cl with ctl := { cl.ctl with pc := 0x040 }, sc := { cl.sc with s := cl.sc.s.set 4 n } }

theorem test_loop_three : after (exec (.loop r0 4 true false 0 0x05F) (st cx (loopCell 3))) (fun t =>
    match t.cell? r0 with
    | some c => decide (c.ctl.loops = [⟨0x041, 0x05F, 3⟩]) && decide (successor 0x05F c.ctl.loops = ([⟨0x041, 0x05F, 2⟩], 0x041)) &&
        decide (successor 0x05F [⟨0x041, 0x05F, 1⟩] = ([], 0x060))
    | none => false) = true := by decide +kernel

theorem test_loop_none : after (exec (.loop r0 4 true false 0 0x05F) (st cx (loopCell 0))) (fun t =>
    match t.cell? r0 with
    | some c =>
      let run (k : Control) : Control := endCourse { k with live := true }
      decide (c.ctl.loops = []) && decide ((run (run (run c.ctl))).pc = 0x060)
    | none => false) = true := by decide +kernel

/-- BNE s7, s0, 0x300 with DD, s7 not 0: two delay courses, then 0x300. -/
theorem test_branch : after (exec (.bne r0 7 0 true 0x300) (st cx { cl with
      ctl := { cl.ctl with pc := 0x1A9 }, sc := { cl.sc with s := cl.sc.s.set 7 5 } })) (fun t =>
    match t.cell? r0 with
    | some c =>
      let run (k : Control) : Control := endCourse { k with live := true }
      decide ((run c.ctl).pc = 0x1AA ∧ (run c.ctl).free = true ∧ (run (run c.ctl)).pc = 0x1AB ∧ (run (run (run c.ctl))).pc = 0x300)
    | none => false) = true := by decide +kernel

/-- Values of the softmax and reduction examples: 1/1.503215, and 1.3125 from 0x053F_FFFF_FFFF_FFFF at LSB -58. -/
theorem test_scalar_div : divS 7 0xFFFFFFFE = 0xFFFFFFFD ∧ remS 7 0xFFFFFFFE = 1 ∧ divS 5 0 = 0xFFFFFFFF ∧ remS 5 0 = 5 := by
  decide +kernel
theorem test_fp32 : fadd 0x3F800000 0x40000000 = 0x40400000 ∧ fmul 0x40400000 0xBF200000 = 0xBFF00000 ∧
    fsub 0x3F800000 0x3F800000 = 0 ∧ fcvtsw 0xFFFFFFFF = 0xBF800000 := by decide +kernel

/-! ### Every hypothesis can be met: the machine and the scalar part -/

theorem test_issues (x : Ctx) (c : Cell) (sl : Slot) (h : canIssue (st x c) ((st x c).ctx 0) c sl = true) :
    Issuing (st x c) r0 sl c := ⟨test_cell x c, h⟩

theorem test_moves (x : Ctx) (c : Cell) (h : executing ((st x c).ctx 0) = true) (k : cellFrozen ((st x c).ctx 0) c = false) :
    Moving (st x c) r0 c := ⟨test_cell x c, h, rfl, k⟩

theorem test_hyps_machine :
    ({ st cx cl with pending := [.halt r0] } : State).pending = .halt r0 :: [] ∧ (st cx cl).pending = [] ∧
    State.reset.clock.on = false ∧ (st cx cl).clock.on = true ∧ (st cx cl).tablesSorted = true ∧
    (∃ t, step (st cx cl) = .next t) ∧ slotOf (.add r0 1 2 3) = some .S ∧ cellOf (.add r0 1 2 3) = some r0 ∧
    ∃ t, exec (.add r0 1 2 3) (st cx cl) = .next t :=
  ⟨rfl, rfl, rfl, rfl, by decide +kernel, ⟨_, rfl⟩, rfl, rfl, ⟨_, rfl⟩⟩

theorem test_hyps_scalar :
    Issuing (st cx cl) r0 .S cl ∧ legal (.srai r0 3 1 31) = true ∧ scalarResult cl (.srai r0 3 1 31) = some (.s 3, 1, 0) ∧
    legal (.fadd r0 15 15 15) = true ∧ scalarResult cl (.fadd r0 15 15 15) = some (.f 15, 4, 0) :=
  ⟨test_issuing .S, by decide +kernel, by decide +kernel, by decide +kernel, by decide +kernel⟩

def busyDivider : Cell := { cl with sc := { cl.sc with divFree := 101 } }
theorem test_hyps_divide :
    Issuing (st cx cl) r0 .S cl ∧ divideResult cl (.remu r0 3 1 2) = some (3, 2, 0) ∧ cl.sc.divFree ≤ cl.now ∧
    Issuing (st cx busyDivider) r0 .S busyDivider ∧ busyDivider.now < busyDivider.sc.divFree :=
  ⟨test_issuing .S, by decide +kernel, by decide, test_issues _ _ _ (by decide +kernel), by decide⟩

theorem test_hyps_loads : Mem.rd .good cl.dmemErr ((effective cl 1 16384).toNat / 8 % 2048) ≠ .uncorrectable ∧
    (15 : BitVec 5).toNat < 16 ∧ isNan (fpv 0x7FC00001) = true := by decide +kernel

theorem test_hyps_cregs : cregDefined (0x000 : BitVec 12).toNat = true ∧ cregDefined (0x002 : BitVec 12).toNat = true ∧
    cregDefined (0x442 : BitVec 12).toNat = true ∧ cregDefined (0x503 : BitVec 12).toNat = true ∧
    cregDefined (0x507 : BitVec 12).toNat = true := by decide

theorem test_hyps_slots :
    Readable cl (639 : BitVec 10).toNat ∧ slotOf (.qpop r0 true) = some .Q ∧ cellOf (.qpop r0 true) = some r0 ∧
    (0xB800 : DWord).toNat < 2 ^ slotWidth .Q ∧ decodeIn r0 .Q 0xB800 = some (.qpop r0 true) ∧ legal (.wait r0 0 0) = false ∧
    slotOf (.wait r0 0 0) = some .Q ∧ cellOf (.wait r0 0 0) = some r0 :=
  ⟨test_readable, rfl, rfl, by decide, by decide, by decide, rfl, rfl⟩

def delayed : Cell := { cl with ctl := { cl.ctl with delay := 2 } }
theorem test_hyps_control :
    isControl (.loop r0 0 false false 3 2047) = true ∧ legal (.loop r0 0 false false 3 2047) = true ∧
    endAbove delayed (.loop r0 0 false false 3 2047) = true ∧ delayed.ctl.delay ≠ 0 ∧ Issuing (st cx delayed) r0 .S delayed ∧
    cl.ctl.delay = 0 ∧ legal (.jr r0 31 0 true 0) = true ∧ branchOf cl (.jr r0 31 0 true 0) = some (true, true, 0) ∧
    cl.ctl.pc.toNat < (2047 : BitVec 11).toNat ∧ cl.ctl.loops.length < 4 :=
  ⟨rfl, by decide, by decide, by decide, test_issues _ _ _ (by decide +kernel), rfl, by decide, by decide +kernel, by decide, by decide⟩

def branchCtl : Control := { delay := 3, target := some 5 }
def takenCtl : Control := { delay := 1, target := some 5, loops := [⟨2, 9, 2⟩] }
theorem test_hyps_courses :
    branchCtl.loops = [] ∧ branchCtl.empties = 0 ∧ branchCtl.zeroEnd = none ∧ branchCtl.delay = 3 ∧ branchCtl.target = some 5 ∧
    1 < (⟨2, 9, 2⟩ : LoopEntry).remaining ∧ (⟨2, 9, 1⟩ : LoopEntry).remaining ≤ 1 ∧
    takenCtl.empties = 0 ∧ takenCtl.zeroEnd = none ∧ takenCtl.delay = 1 ∧ takenCtl.target = some 5 := by decide

def landingCell : Cell := { cl with sc := { cl.sc with
  res := [⟨100, 99, 5, .s 31, 7⟩, ⟨100, 98, 0, .s 31, 8⟩, ⟨101, 100, 0, .f 15, 9⟩, ⟨100, 97, 0, .f 3, 6⟩]
  stores := [⟨100, 4095, 3⟩, ⟨101, 4095, 4⟩] } }
theorem test_hyps_landing : Moving (st cx landingCell) r0 landingCell ∧
    (∃ r ∈ landingCell.sc.res, r.due ≤ landingCell.now ∧ r.dst = .s 31 ∧ r.rank ≤ 5 ∧
      ∀ q ∈ landingCell.sc.res, q.due ≤ landingCell.now → q.dst = .s 31 → q ≠ r →
        q.issued < r.issued ∨ (q.issued = r.issued ∧ r.rank < q.rank)) ∧
    (∃ r ∈ landingCell.sc.res, r.due ≤ landingCell.now ∧ r.dst = .f 3) ∧
    landingCell.sc.stores = [] ++ [⟨100, 4095, 3⟩] ++ [⟨101, 4095, 4⟩] :=
  ⟨test_moves _ _ (by decide +kernel) (by decide +kernel), by decide +kernel, by decide +kernel, rfl⟩

theorem test_hyps_fp32 : isNan (fpv 0xFFC00000) = true ∧ isNan (fpv 0x3F800000) = false ∧ flt 0xBF800000 0x3F800000 = true := by
  decide +kernel

/-! ### Tensor row and vector engine -/

def passCell (now : Nat) : Cell := { cl with
  now := now
  tens := { cl.tens with pass := some { desc := {}, mode := 0, ofmt := 3, wfmt := 3, transp := false, anchor := 0, start := 96, done := 4
                                        total := 5, half := none } } }
theorem test_hyps_passes : Issuing (st cx cl) r0 .T cl ∧ legal (.tpass r0 0 3 3 false 3 0) = true ∧
    (∀ p ∈ (passCell 101).tens.pass, p.start + p.total ≤ (passCell 101).now) ∧ Issuing (st cx (passCell 101)) r0 .T (passCell 101) ∧
    (∃ p, (passCell 100).tens.pass = some p ∧ (passCell 100).now < p.start + p.total ∧ p.done < p.total ∧
      p.start + p.done = (passCell 100).now ∧ classOf p.ofmt ≠ .mx) ∧ Moving (st cx (passCell 100)) r0 (passCell 100) :=
  ⟨test_issuing .T, by decide, by decide, test_issues _ _ _ (by decide +kernel), ⟨_, rfl, by decide, by decide, by decide, by decide⟩,
    test_moves _ _ (by decide +kernel) (by decide +kernel)⟩

def intBank : Cell := { cl with tens := { cl.tens with banks := (Vector.replicate 4 {}).set 3 { latch := some ⟨0, .int, 0, 0xB⟩ } } }
theorem test_hyps_drains : Readable cl (sreg cl 3 + (639 : BitVec 10).setWidth 32).toNat ∧ (5 : BitVec 3).toNat ≤ 5 ∧
    (∀ l ∈ (intBank.tens.bank (3 : BitVec 2).toNat).latch, l.cls = .int ∨ l.cls = .bin) ∧
    (intBank.tens.bank (3 : BitVec 2).toNat).latch.isSome = true ∧
    (∀ i < 32, laneSound (laneAt (intBank.tens.bank (3 : BitVec 2).toNat) i) = true) ∧ (8 : BitVec 4) ≠ 0 ∧ (7 : Nat) ≠ 3 ∧ (7 : Nat) ≠ 4 ∧
    Issuing (st cx intBank) r0 .T intBank :=
  ⟨⟨by decide, by decide, by decide⟩, by decide, by decide, by decide, by decide +kernel, by decide, by decide, by decide,
    test_issues _ _ _ (by decide +kernel)⟩

/-- A cell that executes cycle 100 with claims of other cycles. -/
def claimed : Cell := { cl with vec := { cl.vec with claims := [(.mw, 99), (.rp0, 101), (.wp0, 100)] } }
theorem test_hyps_masks : Issuing (st cx claimed) r0 .V claimed ∧ portsFree claimed [(.mw, 100)] ∧ portsFree claimed [(.rp0, 100)] ∧
    portsFree claimed [(.wp0, 103)] ∧ (7 : BitVec 3) ≠ 0 ∧ (2 : BitVec 2) ≠ 3 ∧ xaccSound (xaccAt claimed.vec 31) = true :=
  ⟨test_issues _ _ _ (by decide +kernel), by unfold portsFree; decide, by unfold portsFree; decide, by unfold portsFree; decide,
    by decide, by decide, by decide +kernel⟩

theorem test_hyps_vector :
    (0xE : BitVec 4) ≠ 0xD ∧ (0xE : BitVec 4) ≠ 0xF ∧ portsFree cl (claimRun .rp0 cl.now (ldRows 0)) ∧ ldRows 0 = 4 ∧
    portsFree cl ((List.range (ldRows 3)).map (fun j => (VPort.wp0, cl.now + 3 + j))) ∧
    legal (.vreds r0 7 31 0 0 0 false 15) = true ∧ portsFree cl [(.rp0, cl.now), (.wp1, cl.now + 7)] ∧ (6 : BitVec 3) ≠ 7 ∧
    cl.vec.xFree ≤ cl.now ∧ (sreg cl 0 + (639 : BitVec 10).setWidth 32).toNat < 640 :=
  ⟨by decide, by decide, by unfold portsFree; decide, by decide, by unfold portsFree; decide, by decide, by unfold portsFree; decide,
    by decide, by decide, by decide⟩

/-! ### Chains and buckets -/

def chained (ctl : Word) (stage : Word) : Cell := { claimed with vec := { claimed.vec with
  chains := (Vector.replicate 8 {}).set 7 { ctl := ctl, stg := Vector.replicate 8 stage } } }
theorem test_hyps_chains :
    Issuing (st cx (chained 0 0)) r0 .V (chained 0 0) ∧ chainLegal {} = true ∧ portsFree cl (chainClaims true {} cl.now 32) ∧
    chainLegal { ctl := 1, stg := Vector.replicate 8 0x1C000000 } = true ∧
    (∃ e ∈ chainClaims true {} claimed.now 1, e ∈ claimed.vec.claims) ∧ chainLegal { ctl := 9 } = false ∧
    chainLegal { ctl := 0x10 } = false ∧ chainLegal { ctl := 0x100 } = false ∧ chainLegal { ctl := 0x01000000 } = false :=
  ⟨test_issues _ _ _ (by decide +kernel), by decide +kernel, by unfold portsFree; decide +kernel, by decide +kernel,
    by decide +kernel, by decide +kernel, by decide +kernel, by decide +kernel, by decide +kernel⟩

/-- Bucket 7 in a state, with a descriptor of 64-bit aligned values where `wide`. -/
def bucketed (state : Nat) (nan : Bool) : Cell := { cl with vec := { cl.vec with
  bktDesc := (Vector.replicate 8 0).set 7 (BitVec.ofNat 32 (18 * 1024))
  bkts := (Vector.replicate 8 {}).set 7 { state := state, desc := BitVec.ofNat 32 (18 * 1024), nan := nan } } }
theorem test_hyps_buckets :
    Issuing (st cx (bucketed 1 false)) r0 .V (bucketed 1 false) ∧ Issuing (st cx (bucketed 0 false)) r0 .V (bucketed 0 false) ∧
    Issuing (st cx (bucketed 2 true)) r0 .V (bucketed 2 true) ∧ portsFree cl [(.rp0, cl.now)] ∧
    portsFree cl (claimRun .rp0 cl.now 2) ∧ portsFree cl (claimRun .wp0 (cl.now + 3) 2) ∧
    ((bucketed 0 false).vec.bktDesc[7]).toNat / 1024 % 32 = 18 ∧
    bktsInFlight ((st cx (bucketed 0 false)).cellsOf 0) + bktsOpening ((st cx (bucketed 0 false)).cellsOf 0) < 4096 ∧
    (30 : BitVec 5).getLsbD 0 = false ∧ ((bucketed 2 true).vec.bkts[7]).nan = true ∧
    (sreg cl 0 + (639 : BitVec 10).setWidth 32).toNat + (if (BitVec.ofNat 32 (18 * 1024)).getLsbD 15 then 4 else 0) < 640 ∧
    Readable (bucketed 2 true) 0 ∧ (639 : Nat) % 8 ≠ 632 % 8 ∧ Readable (bucketed 2 true) 632 :=
  ⟨test_issues _ _ _ (by decide +kernel), test_issues _ _ _ (by decide +kernel), test_issues _ _ _ (by decide +kernel),
    by unfold portsFree; decide, by unfold portsFree; decide, by unfold portsFree; decide, by decide +kernel, by decide +kernel,
    by decide, by decide +kernel, by decide, ⟨by decide, by decide, by decide⟩, by decide, ⟨by decide, by decide, by decide⟩⟩

/-- The context with a route 1 over port 2 and pair 0 of it owned by cell 0. -/
def routed : Ctx := { cx with
  regions := [0, 1], routes := [(1, ⟨1, [2], 9, 700, 3⟩), (3, ⟨1, [2], 9, 700, 1⟩)], slots := [(64, ⟨1, 1, 0⟩)] }
theorem test_hyps_bucket_messages : ownsPairNow routed 0 (1 : BitVec 8).toNat = true ∧ (1 : BitVec 8) ≠ 0 ∧
    (639 : BitVec 10).toNat < 640 ∧ Issuing (st routed (bucketed 2 true)) r0 .V (bucketed 2 true) ∧
    Issuing (st routed (bucketed 1 true)) r0 .V (bucketed 1 true) :=
  ⟨by decide +kernel, by decide, by decide, test_issues _ _ _ (by decide +kernel), test_issues _ _ _ (by decide +kernel)⟩

/-! ### Stream movers -/

/-- One beat of 512 bytes within the scratchpad, at a pace of 1. -/
def rowDesc : Desc := { ctl := 0x25800000, cnt01 := 0x00010001, cnt23 := 0x00010001, cnt45 := 0x00010001, aux := 0x00010000 }
def looseDesc : Desc := { rowDesc with ctl := 0xC5C00000 }
def remoteDesc : Desc := { rowDesc with ctl := 0x35800000, dpeer := 0x01000000 }
def persistDesc : Desc := { rowDesc with ctl := 0x25A00000 }
def streamed (d : Desc) (streams : Mem Stream) (free : Bool) : Cell := { cl with
  ctl := { cl.ctl with free := free }
  strm := { cl.strm with descs := (Vector.replicate 16 {}).set 15 d, streams := streams } }
def aStream (d : Desc) : Stream := { desc := d, mover := false, issued := 10, sb := 0, db := 0 }

theorem test_hyps_starts :
    Issuing (st cx (streamed rowDesc [] false)) r0 (mSlot true) (streamed rowDesc [] false) ∧
    mayStart (streamed rowDesc [] false) rowDesc ∧ Mem.find ([] : Mem Stream) 15 = none ∧ shapeOk cx 0 rowDesc = true ∧
    startDesc (streamed rowDesc [] false) 15 0 0 = rowDesc ∧ dBeats rowDesc = 1 ∧
    (15 : BitVec 4).toNat ∉ (streamed rowDesc [] false).strm.claims ∧
    mayStart (streamed looseDesc [] true) looseDesc ∧ shapeOk cx 0 looseDesc = true ∧
    (Mem.find [(15, aStream rowDesc)] 15).isSome = true ∧
    ¬ mayStart (streamed remoteDesc [] true) remoteDesc ∧
    Issuing (st cx (streamed remoteDesc [] true)) r0 (mSlot false) (streamed remoteDesc [] true) ∧
    ((streamed rowDesc [] false).strm.st[15]).shadow = none :=
  ⟨test_issues _ _ _ (by decide +kernel), by unfold mayStart; decide, by decide, by decide +kernel, by decide +kernel, by decide,
    by decide, by unfold mayStart; decide, by decide +kernel, by decide, by unfold mayStart; decide,
    test_issues _ _ _ (by decide +kernel), by decide⟩

/-- The last row of the scratchpad is the source, and row 638 the destination. -/
def lastRow : ReadyRow := { beat := 0, i := 0, run := 0, j := 0, planned := 320, src := 327168, dst := 326656 }
def readyStream : Stream := { aStream rowDesc with
  ready := [lastRow], nextBeat := 1, groups := [{ run := 0, g := 0, left := 1, lastPlanned := 320 }] }
def persistStream : Stream := { aStream persistDesc with issued := 315, nextBeat := 1 }
def indexStream : Stream := { aStream { rowDesc with ctl := 0x25880000, aux := 0x0001027F } with idxPending := [(0, 0, 320)] }
def streamCell (q : Stream) : Cell := streamed q.desc [(15, q)] false

theorem test_hyps_rows :
    (st cx (streamCell readyStream)).cell? r0 = some (streamCell readyStream) ∧ running (st cx (streamCell readyStream)) cx = true ∧
    (readyRows cx (streamCell readyStream) false).head? = some (15, lastRow, 0) ∧
    Mem.find (streamCell readyStream).strm.streams 15 = some readyStream ∧ dSkind readyStream.desc = 1 ∧ dDkind readyStream.desc = 1 ∧
    lastRow.src + dSize readyStream.desc ≤ 327680 ∧ bankTaken (streamCell readyStream) 6 639 = false ∧
    Readable (streamCell readyStream) 639 ∧ dIdx readyStream.desc = 0 ∧ 512 ≤ dSize readyStream.desc ∧
    runsLeft persistStream = true ∧ cx.cc = plannedBeat persistStream persistStream.nextBeat ∧
    Mem.find (streamCell indexStream).strm.streams 15 = some indexStream ∧ dIrow indexStream.desc + 0 = 639 ∧
    Readable (streamCell indexStream) 639 ∧ bankTaken (streamCell indexStream) 5 639 = false ∧ 320 ≤ cx.cc :=
  ⟨test_cell _ _, by decide +kernel, by decide +kernel, by decide +kernel, by decide, by decide, by decide, by decide +kernel,
    ⟨by decide, by decide, by decide⟩, by decide, by decide, by decide, by decide, by decide +kernel, by decide,
    ⟨by decide, by decide, by decide⟩, by decide +kernel, by decide⟩

/-- A stream from host window 0 with its row before issue and its row outstanding. -/
def hostRow : ReadyRow := { beat := 0, i := 0, run := 0, j := 0, planned := 0, src := 0, dst := 327168 }
def hostReady : Stream := { aStream looseDesc with ready := [hostRow], nextBeat := 1, groups := [{ run := 0, g := 0, left := 1, lastPlanned := 0 }] }
def hostOut (out : LooseOut) : Stream := { hostReady with ready := [], outstanding := [out] }
def anOut : LooseOut := { row := 0, i := 0, run := 0, g := 0, src := 0, dst := 327168, data := 0, bytes := 512, stage := 0, need := 1 }
def hosted : Ctx := { cx with hwin := [(0, 4096, 512)] }
/-- The function of the context may send requests to its host. -/
def hostSt (c : Cell) : State := { st hosted c with fns := [(1, { handles := [(2, 0)], cfg := { busMaster := true } })] }
def waitingRow : Cell := { cl with sync := { cl.sync with looseRows := [⟨639, 0, some 63, 512, .none⟩] } }

theorem test_hyps_loose :
    Moving (hostSt (streamCell hostReady)) r0 (streamCell hostReady) ∧ (streamCell hostReady).strm.streams = [(15, hostReady)] ∧
    (dSkind looseDesc = 6 ∧ dDkind looseDesc = 1 ∧ dLoose looseDesc = true ∧ dIdx looseDesc = 0 ∧ 512 ≤ dSize looseDesc) ∧
    (hostRow.src % 2 ^ 32).toNat + dSize looseDesc ≤ (Mem.rd (0, 0) hosted.hwin (fld looseDesc.ctl 18 15)).2 ∧
    hostRow.dst + dSize looseDesc ≤ 327680 ∧ ((hostSt (streamCell hostReady)).fn hosted.owner).cfg.busMaster = true ∧ hostReady.packs = [] ∧
    outCount hostReady < dOutLim hostReady.desc ∧ anOut.stuck = false ∧
    executing hosted = true ∧ Mem.find (streamCell (hostOut anOut)).strm.streams 15 = some (hostOut anOut) ∧
    (hostOut anOut).outstanding = [anOut] ∧ (st cx waitingRow).cell? r0 = some waitingRow ∧ looseRuns (st cx waitingRow) cx = true ∧
    (639 : Nat) % 8 ∉ landingBanks (st cx waitingRow) cx waitingRow ∧ messageRows waitingRow = [] ∧
    ((st cx waitingRow).scrub ((st cx waitingRow).physCell cx waitingRow.id)).writeBack = [] ∧ (st cx waitingRow).unrecoverable = false :=
  ⟨⟨by simp [State.cell?, hostSt, st, cellKey, r0, Mem.find], by decide +kernel, rfl, by decide +kernel⟩, rfl, by decide, by decide +kernel, by decide,
    by decide +kernel, rfl, by decide +kernel, rfl, by decide, by decide +kernel, rfl, test_cell _ _, by decide +kernel, by decide +kernel, by decide +kernel, by decide +kernel, by decide⟩

/-! ### Scratchpad and HBM -/

def mopped (copy : Bool) (read lastDue : Nat) : Cell := { cl with spad := { cl.spad with
  mop := some ⟨copy, 632, 0, 8, 0, 0xBF, 90, read, lastDue⟩ } }
theorem test_hyps_mops :
    Moving (st cx (mopped true 7 101)) r0 (mopped true 7 101) ∧ mopRefused {} true 0 631 10 ∧ mopRefused {} false 1 0 0 ∧
    ¬ mopRefused {} true 0 320 320 ∧ ¬ mopRefused {} false 0 0 640 ∧ mopRefused (mopped true 7 101).spad false 0 0 0 ∧
    bankTaken (mopped true 7 101) 6 639 = false ∧ Readable (mopped true 7 101) 639 ∧
    Moving (st cx (mopped true 8 100)) r0 (mopped true 8 100) ∧ Moving (st cx (mopped false 8 0)) r0 (mopped false 8 0) ∧
    90 + Max.max 1 8 ≤ cl.now :=
  ⟨test_moves _ _ (by decide +kernel) (by decide +kernel), by unfold mopRefused; decide, by unfold mopRefused; decide,
    by unfold mopRefused; decide, by unfold mopRefused; decide, by unfold mopRefused; decide, by decide +kernel,
    ⟨by decide, by decide, by decide⟩, test_moves _ _ (by decide +kernel) (by decide +kernel),
    test_moves _ _ (by decide +kernel) (by decide +kernel), by decide⟩

def land (rank issued : Nat) : Landing :=
  { due := 320, own := false, cell := 0, row := 639, data := 1, rank := rank, issued := issued, tie := 0, src := 0 }
def landed : Ctx := { cx with landings := [land 6 300] }
def written : Ctx := { cx with hwrites := [⟨0, 0, none, 320, 15999991744, 64, 7, true, 0, none, none⟩] }
theorem test_hyps_landings :
    (land 4 300).rank < (land 6 310).rank ∧ beats (land 4 300) (land 6 310) = true ∧ beats (land 6 310) (land 6 300) = true ∧
    Moving (st landed cl) r0 cl ∧ running (st landed cl) landed = true ∧ landed.exps = [] ∧ landed.haz.active = false ∧
    running (st written cl) written = true ∧ absentAt written written.cc = [] ∧ written.hreads = [] ∧ written.instances = [] :=
  ⟨by decide, by decide, by decide, test_moves _ _ (by decide +kernel) (by decide +kernel), by decide +kernel, rfl, rfl,
    by decide +kernel, by decide +kernel, rfl, rfl⟩

def reading : Ctx := { cx with hreads := [⟨9, 0, 0, none, 320, 320, 0, 512, true, 0, none, none, false, 0, 0⟩] }
theorem test_hyps_hbm :
    ((st reading cl).ctx 0).hreads = [⟨9, 0, 0, none, 320, 320, 0, 512, true, 0, none, none, false, 0, 0⟩] ∧
    ((st reading cl).region 0).owner = some 0 ∧ ((st cx cl).region 31).owner = none ∧ 976561 < 976562 ∧
    (∀ u ∈ Mem.find ((st cx cl).region 31).hbmScrubAt 7, u + 4096 ≤ (st cx cl).clock.clk) ∧
    ({ clearing := true } : Region).clearing = true ∧ ({ st cx cl with clock := { on := true, khz := 400000 } } : State).clock.khz < 800000 := by
  decide +kernel

def flawed (e : WordErr) : Cell := { cl with imemErr := [(8191, e)] }
def starved : State := { st cx cl with regions := [(0, { owner := some 0, scrub := [(0, { next := 639, asked := some 0 })] })]
                                       clock := { (st cx cl).clock with clk := 1048576 } }
theorem test_hyps_scrubs :
    (st cx cl).logicalAt ⟨0, 0, 0⟩ = some r0 ∧ ((st cx cl).scrub ⟨0, 0, 0⟩).lastRead = none ∧ bankTaken cl 7 0 = false ∧
    starved.logicalAt ⟨0, 0, 0⟩ = some r0 ∧ (starved.scrub ⟨0, 0, 0⟩).asked = some 0 ∧
    Mem.rd .good (flawed .correctable).imemErr (8191 : BitVec 13).toNat = .correctable ∧
    Mem.rd .good (flawed .uncorrectable).imemErr 8191 = .uncorrectable ∧ executing cx = true := by decide +kernel

/-! ### Waits, signals and barriers -/

def signalled (count : Nat) (free : Bool) (w : Word) : Cell := { cl with
  ctl := { cl.ctl with free := free }, sc := { cl.sc with s := cl.sc.s.set 31 w }
  sync := { cl.sync with sigs := [(63, { count := count })] } }
theorem test_hyps_waits :
    Issuing (st routed (signalled 63 false 0)) r0 .Q (signalled 63 false 0) ∧ legal (.wait r0 63 63) = true ∧
    waitHolds (Mem.rd {} (signalled 63 false 0).sync.sigs (63 : BitVec 6).toNat) (63 : BitVec 6).toNat ∧
    ¬ waitHolds (Mem.rd {} (signalled 62 false 0).sync.sigs (63 : BitVec 6).toNat) (63 : BitVec 6).toNat ∧
    (signalled 62 true 0).ctl.free = true ∧ waitHolds {} 0 ∧ (1 : BitVec 6) ≠ 0 ∧
    Issuing (st routed (signalled 62 true 0)) r0 .Q (signalled 62 true 0) :=
  ⟨test_issues _ _ _ (by decide +kernel), by decide, by unfold waitHolds; decide, by unfold waitHolds; decide, rfl,
    by unfold waitHolds; decide, by decide, test_issues _ _ _ (by decide +kernel)⟩

/-- Targets: cell 15 of block 23 of region 1, the same cell over route 1, a reserved bit, a block that is not there. -/
theorem test_hyps_sends : goodTarget routed 0x37F ∧ tRoute 0x37F = 0 ∧ cellExists routed.regions.length (tCell 0x37F) = true ∧
    goodTarget routed 0x0100037F ∧ tRoute 0x0100037F ≠ 0 ∧ firstPort routed (tRoute 0x0100037F) = some 2 ∧
    ¬ (goodTarget routed 0x4000 ∧ (tRoute 0x4000 = 0 → cellExists routed.regions.length (tCell 0x4000) = true)) ∧
    ¬ (goodTarget routed 0x180 ∧ (tRoute 0x180 = 0 → cellExists routed.regions.length (tCell 0x180) = true)) ∧
    sendable routed 0x37F ∧ sendable routed 0x0100037F ∧ sendable routed 0x0080003F ∧ ¬ sendable routed 0x00C00000 ∧
    ¬ sendable routed 0x00800040 := by
  refine ⟨?_, ?_, ?_, ?_, ?_, ?_, ?_, ?_, ?_, ?_, ?_, ?_, ?_⟩ <;>
    first | decide +kernel | (unfold goodTarget; decide +kernel) | (unfold sendable goodTarget; decide +kernel)

def arrived : Ctx := { cx with
  arrivals := [arriving 320 false 0 63 1, arriving 321 false 0 63 1, arriving 100 true 0 63 2], byteLands := [⟨320, 0, 63, 512⟩] }
theorem test_hyps_signals : Moving (st arrived (signalled 65532 false 0)) r0 (signalled 65532 false 0) ∧
    sigInRange (sigAfter { count := 65532 } none 3 0 0) ∧ ¬ sigInRange (sigAfter { count := 65532 } none 4 0 0) ∧
    sigInRange (sigAfter { count := 65535 } (some 65535) 65535 4294967295 0) ∧
    65535 < (Mem.rd {} (signalled 65535 false 0).sync.sigs 63).count + (arriving 100 true 0 63 1).n :=
  ⟨test_moves _ _ (by decide +kernel) (by decide +kernel), by unfold sigInRange; decide, by unfold sigInRange; decide,
    by unfold sigInRange; decide, by decide⟩

def waiting : Cell := { signalled 5 true 0 with ctl := { cl.ctl with live := false, free := true, waiting := some (.sig 63 5) } }
theorem test_hyps_satisfied : Moving (st cx waiting) r0 waiting ∧ waiting.ctl.live = false ∧
    waitHolds (Mem.rd {} waiting.sync.sigs (63 : BitVec 6).toNat) 5 ∧ ¬ waitHolds { count := 5, ann := 1, land := 0 } 5 :=
  ⟨test_moves _ _ (by decide +kernel) (by decide +kernel), rfl, by unfold waitHolds; decide, by unfold waitHolds; decide⟩

/-- Descriptor 7 of cell 0: scope 1 with cells 0 and 1, scope 3 with region 0, or scope 7. -/
def barCell (a r : Word) : Cell := { cl with sync := { cl.sync with
  barA := (Vector.replicate 8 0).set 7 a, barB := (Vector.replicate 8 0).set 7 r } }
def barInst (scope gen : Nat) (rejoin : Bool) (j : Option Nat) (opened : Nat) : BarInst :=
  { b := 7, rejoin := rejoin, scope := scope, unit := 0, gen := gen, cur := [(1, 63)], nxt := [], curKey := some (3, 0, false)
    nxtKey := none, opened := opened, lastDone := none, due := [], j := j, checked := false, heard := [], heardNext := [], sent := false }
theorem test_hyps_barriers :
    Issuing (st cx (barCell 0x10000003 0)) r0 .Q (barCell 0x10000003 0) ∧ cx.bars = [] ∧ barShaped cx 0 0x10000003 0 ∧
    barShaped cx 0 0x30000003 1 ∧ barShaped cx 0 0 0 ∧ ¬ barShaped cx 0 0x70000003 0 ∧ ¬ barShaped cx 0 0x10000002 0 ∧
    ¬ barShaped cx 0 0x30000003 0 ∧
    (barInst 1 0 false none 300).unit = scopeUnit (barScope 0x10000003) 0 ∧ (barInst 1 0 false none 300).cur ≠ [] ∧
    (∀ e ∈ (barInst 1 0 false none 300).cur, e.1 ≠ (0 : CellId)) ∧
    (barInst 1 0 false none 300).curKey = some (barKey 0x10000003 0 false) := by
  refine ⟨test_issues _ _ _ (by decide +kernel), rfl, ?_, ?_, ?_, ?_, ?_, ?_, by decide, by decide, by simp [barInst], by decide⟩ <;>
    unfold barShaped <;> simp [barScope, numberOf, regionOf, fld, cx]

def rejoinCtx (i : BarInst) : Ctx := { cx with bars := [i] }
def rejoiner (free : Bool) : Cell := { cl with id := 1, ctl := { cl.ctl with free := free, rejoining := some (7, 320) } }
def rejoinState (i : BarInst) (free : Bool) : State :=
  { st (rejoinCtx i) { cl with ctl := { cl.ctl with free := free } } with
    cells := [(0, { cl with ctl := { cl.ctl with free := free } }), (1, rejoiner free)] }
theorem test_hyps_rejoins :
    barScope 0x40000003 ≤ 4 ∧ (2 ^ 32 + 5) % 2 ^ 32 = (5 : Word).toNat ∧ 4 < barScope 0x50000003 ∧
    looseRuns (rejoinState (barInst 1 0 true (some 368) 319) true) (rejoinCtx (barInst 1 0 true (some 368) 319)) = true ∧
    368 ≤ cx.cc + 48 ∧ 319 + 49 ≤ 368 ∧ 368 < 320 + 49 ∧
    Machine.missing (rejoinState (barInst 1 0 true (some 368) 319) true) 0 (barInst 1 0 true (some 368) 319) = [0] ∧
    Machine.missing (rejoinState { barInst 1 0 true (some 368) 319 with cur := [(1, 63), (0, 63)] } true) 0
      { barInst 1 0 true (some 368) 319 with cur := [(1, 63), (0, 63)] } = [] ∧
    freeCell (rejoinState (barInst 1 0 true (some 368) 319) true) 0 0 = true ∧
    freeCell (rejoinState (barInst 1 0 true (some 368) 319) false) 0 0 = false ∧
    running (rejoinState (barInst 1 0 true (some 320) 200) true) (rejoinCtx (barInst 1 0 true (some 320) 200)) = true ∧
    ((rejoinState (barInst 1 0 true (some 320) 200) true).cell? ⟨0, 1⟩).map (·.ctl.rejoining) = some (some (7, cx.cc)) := by
  refine ⟨?_, ?_, ?_, ?_, ?_, ?_, ?_, ?_, ?_, ?_, ?_, ?_, ?_⟩ <;> first | decide +kernel | decide

theorem test_hyps_releases :
    looseRuns (rejoinState { barInst 4 0 false none 300 with curKey := some (3, 0, true), cur := [(1, 63), (0, 63)] } true)
      (rejoinCtx { barInst 4 0 false none 300 with curKey := some (3, 0, true), cur := [(1, 63), (0, 63)] }) = true ∧
    (cx.fresh = true → cx.hold.held = true) ∧
    Machine.missing (rejoinState { barInst 1 0 false none 300 with cur := [(1, 63), (0, 63)] } true) 0
      { barInst 1 0 false none 300 with cur := [(1, 63), (0, 63)] } = [] ∧
    ([(1, 63), (0, 63)].map (·.1) : List Nat).Nodup := by
  refine ⟨?_, ?_, ?_, ?_⟩ <;> decide +kernel

/-! ### Queues and combining queues -/

def staged (n : Nat) (sends : List SendRec) (free : Bool) (w : Word) : Cell := { signalled 0 free w with
  sync := { cl.sync with stage := List.replicate n 0, sends := sends } }
def aSend (result : Option (BitVec 2)) : SendRec := ⟨0, 0xFFFF, 0x0100037F, result⟩
theorem test_hyps_queues :
    Issuing (st routed (staged 16 (List.replicate 8 (aSend none)) false 0x37F)) r0 .Q
      (staged 16 (List.replicate 8 (aSend none)) false 0x37F) ∧
    640 ≤ (sreg (staged 0 [] false 0xFFFFFFFF) 31 + BitVec.ofNat 32 (0 : BitVec 7).toNat).toNat ∧
    (sreg (staged 0 [] false 639) 31 + BitVec.ofNat 32 (0 : BitVec 7).toNat).toNat < 640 ∧
    Readable (staged 15 [] false 639) 639 ∧ (staged 15 [] false 639).sync.stage.length < 16 ∧
    (staged 1 (List.replicate 7 (aSend none)) false 0x37F).sync.sends.length < 8 ∧
    (staged 0 [aSend (some 3)] false 0).sync.sends = aSend (some 3) :: [] ∧ (aSend none).result = none ∧
    (queueAt ringCell false).table.length = 1 ∧ (queueAt cl false).table = [] ∧ (signalled 0 true 0).ctl.free = true :=
  ⟨test_issues _ _ _ (by decide +kernel), by decide, by decide, ⟨by decide, by decide, by decide⟩, by decide, by decide, rfl, rfl,
    by decide +kernel, by decide +kernel, rfl⟩

theorem test_hyps_rings :
    fld (0x3E800258 : Word) 9 0 + fld (0x3E800258 : Word) 29 20 = 600 + 1000 ∧ fld (0x02800258 : Word) 9 0 + fld (0x02800258 : Word) 29 20 = 640 ∧
    admission { ringQueue with used := 24 } 1 = (1, none) ∧ admission ringQueue 5 = (0, some (0, true)) ∧
    admission ringQueue 15 = (1, none) ∧ admission ringQueue 4 = (0, some (20, false)) ∧ admission ringQueue 25 = (2, none) ∧
    admission { ringQueue with table := List.replicate 63 ⟨false, 0, 1, 0, ⟨0, false, 0⟩, 0, true⟩ } 1 = (1, none) ∧
    admission { ringQueue with head := 10, tail := 4, used := 18 } 6 = (0, some (4, false)) ∧
    admission { ringQueue with head := 10, tail := 4, used := 18 } 7 = (1, none) ∧
    admission { ringQueue with used := 0, table := [] } 24 = (0, some (0, false)) ∧ admission {} 1 = (3, none) ∧
    looseRuns (st cx ringCell) ((st cx ringCell).ctx 0) = true := by
  refine ⟨?_, ?_, ?_, ?_, ?_, ?_, ?_, ?_, ?_, ?_, ?_, ?_, ?_⟩ <;> decide +kernel

/-- Combining queue 63 of region 0: EXPECT 2, two rows from row 254 on, to cell 15 of block 23. -/
def combined (count : Nat) (pending : Bool) (rows : Nat) : Ctx := { cx with comb := [(0, {
  qs := [(63, { cfg := packFields 64 [(63, 48, 2), (33, 29, 23), (28, 25, 15), (11, 8, 1), (7, 0, 254)], count := count
                pending := pending, sum := [0, 0], resend := some 0, gen := 1023 })]
  stage := [⟨63, ⟨0, false, 0⟩, List.replicate rows 1, .none⟩] })] }
theorem test_hyps_combining :
    looseRuns (st (combined 0 false 2) cl) (combined 0 false 2) = true ∧
    ((st (combined 0 false 2) cl).comb 0 0).stage.length = 1 ∧ combExpect (combQueue (st (combined 0 false 2) cl) 0 0 63).cfg = 2 ∧
    combRows (combQueue (st (combined 0 false 2) cl) 0 0 63).cfg = 2 ∧ (combQueue (st (combined 0 true 2) cl) 0 0 63).pending = true ∧
    (combQueue (st (combined 1 false 2) cl) 0 0 63).count + 1 = 2 ∧ combExpect (combQueue (st cx cl) 0 0 63).cfg = 0 ∧
    (combQueue (st (combined 0 true 1) cl) 0 0 63).resend = some 0 ∧ 0 ≤ (combined 0 true 1).btime := by decide +kernel

theorem test_hyps_accumulators : accsSound (st (combined 0 false 2) cl) 0 0 ∧
    ∀ row l, l < 64 → (accValue (st (combined 0 false 2) cl) 0 0 row l).natAbs < 2 ^ 78 := by
  have h : ((st (combined 0 false 2) cl).comb 0 0).acc = [] := by decide +kernel
  refine ⟨fun k => ?_, fun row l _ => ?_⟩
  · rw [h]; simp only [Mem.rd, Mem.find]; decide +kernel
  · unfold accValue; rw [h]; simp only [Mem.rd, Mem.find]; decide +kernel

/-! ### Holds -/

def expecting : Ctx := { cx with cc := 1000, expects := [⟨2, 3, 31, 738⟩], lagging := [515] }
def late : Ctx := { cx with hreads := [⟨9, 0, 0, none, 320, 368, 0, 512, true, 0, none, none, false, 0, 0⟩] }
def holding (h : Hold) : Ctx := { cx with hold := h, slots := [(64, ⟨1, 1, 0⟩)], routes := [(1, ⟨1, [2], 9, 700, 3⟩)] }
def frozen (c : HoldCause) (limit : Nat) : Hold := { held := true, opened := [(c, 2)], joined := [(c, 2)], logNext := 1, limit := limit }
theorem test_hyps_holds :
    running (st expecting cl) expecting = true ∧ 738 ≤ expecting.cc + 48 ∧ (expecting.cc + 48 - 738) % 320 = 10 * 31 ∧
    256 * 2 + 3 ∈ expecting.lagging ∧ running (st late cl) late = true ∧ (∀ r ∈ late.hreads, r.due = late.cc + 48 ∧ r.present = false) ∧
    running (st cx cl) cx = true ∧ cx.expects = [] ∧ cx.hreads = [] ∧
    (holding { reqs := [⟨.power, 0, 0⟩] }).hold.pending = false ∧
    (HoldCause.power, 0) ∉ (holding { pending := true, cycle := 352, opened := [(.linkLate, 2)], reqs := [⟨.power, 0, 0⟩] }).hold.opened ∧
    overrunOnly (holding { pending := true, cycle := 320, opened := [(.linkLate, 2)] }).hold = false ∧
    firstPort (holding {}) 1 = some 2 ∧ 320 ≤ (holding {}).cc ∧ (holding {}).cc < 321 := by
  refine ⟨?_, ?_, ?_, ?_, ?_, ?_, ?_, ?_, ?_, ?_, ?_, ?_, ?_, ?_, ?_⟩ <;> decide +kernel

theorem test_hyps_causes :
    causeCleared (st (holding (frozen .power 0)) cl) (holding (frozen .power 0)) .power 2 ∧
    ¬ causeCleared { st (holding (frozen .power 0)) cl with power := { supplyLow := true } } (holding (frozen .power 0)) .power 2 ∧
    causeCleared (st cx cl) cx .linkLate 2 ∧ ¬ causeCleared (st cx cl) { late with cc := 321 } .hbmLate 0 ∧
    (frozen .overrun 1000000000).limit = 1000 * 1000000 ∧ (st cx cl).lantern.od.holdLimitMs = 1000 ∧
    0 + 32 ≤ (st cx cl).clock.clk ∧ (st cx cl).clock.pendingF = [] := by
  refine ⟨⟨by decide, by decide, by decide⟩, fun h => by simpa using h.1, by intro e h; exact absurd h (by simp [cx]), fun h => ?_, ?_, ?_, ?_, ?_⟩
  · exact absurd (h _ (List.mem_singleton.2 rfl) (by decide) (by decide)) (by decide)
  all_goals decide

/-! ### Contexts, kills and deadlock detection -/

def ctxWith (x : Ctx) : State := st x cl
def killed (received : Bool) : Ctx := { cx with state := .killing, kill := some {
  startDome := 999990000, startClk := 990000, k := 344, code := 2, source := 1, noexec := false, received := received
  gotClk := 999296, slowest := 1500000, notice := 0 } }
theorem test_hyps_contexts :
    (ctxWith { cx with state := .armed, launch := 999999680 }).clock.dome = 999999680 + 320 ∧
    (ctxWith { cx with state := .armed, launch := 999999681 }).clock.dome < 999999681 + 320 ∧
    ({ pending := true, cycle := 0 } : Hold).pending = true ∧
    nothingDue cx = true ∧ looseStill (st cx { cl with ctl := { halted := true } }) 0 true = true ∧
    (∀ c ∈ (st cx { cl with ctl := { halted := true } }).cellsOf 0, c.ctl.halted = true ∧ cellIdle c = true) ∧
    ((st cx cl).fn f1).events.length < 256 ∧ (∃ c ∈ (st cx cl).cellsOf 0, c.ctl.halted = false) ∧
    killable cx = true ∧ 999990000 + 24 ≤ 1000000000 ∧
    (killed false).state = .killing ∧ 990000 + 24 ≤ (ctxWith (killed false)).clock.clk ∧ 999296 + 704 ≤ (ctxWith (killed true)).clock.clk ∧
    (1000000000 - 999990000) * 1500000 < 10000 * 1500000 + 704000000 ∧
    10000 * 1500000 + 704000000 ≤ (1000000000 - 999989530) * 1500000 := by
  refine ⟨?_, ?_, ?_, ?_, ?_, ?_, ?_, ?_, ?_, ?_, ?_, ?_, ?_, ?_, ?_⟩ <;> decide +kernel

theorem test_no_fences : noFencesPending (st cx cl) := by
  intro p
  by_cases h : p = 0
  · subst h; rfl
  · simp [State.region, st, Mem.rd, Mem.find, h, Ne.symm h]

def quietCtx (group run : Nat) : Ctx := { cx with
  image := { group := group, nodeMask := 3, tag := 5 }, quiet := { run := run, quiet := decide (group = 2), since := 900000000 } }
theorem test_hyps_quiet :
    (st cx cl).lantern.od.quietCc ≤ (quietCtx 0 4096).quiet.run ∧ (quietCtx 0 4095).quiet.run < (st cx cl).lantern.od.quietCc ∧
    (quietCtx 1 4096).image.group ≠ 0 ∧ 0 ∉ (quietCtx 0 4096).dumps ∧
    900000000 + 1000000 * (st cx cl).lantern.od.dumpMs ≤ (st cx cl).clock.dome ∧
    (st cx cl).clock.dome < 900000001 + 1000000 * (st cx cl).lantern.od.dumpMs ∧
    0 + (st cx cl).lantern.od.summaryNs ≤ (st cx cl).clock.dome := by decide +kernel

/-- A flit at the head of the accepted flits of port 7. -/
def flit (cls : BitVec 2) (mtype : BitVec 6) (arg : DWord) (payload : BitVec 2048) : Flit :=
  { cls := cls, mtype := mtype, seq := 0, ackseq := 0, nak := false, crclass := false, credit := 0, ctx := 5, route := 1, hop := 0
    due := 370, arg := arg, payload := payload }
def tagged (x : Ctx) : Ctx := { x with image := { x.image with tag := 5 }, passedTag := true, regions := [0, 1] }
def porting (x : Ctx) (q : Port) : State := { st (tagged x) cl with ports := [(7, { q with state := .active })] }
theorem test_head (x : Ctx) (f : Flit) (q : Port) (h : f.hop = 0) (c : (porting x { q with rx := [f] }).tagged f.ctx = some 0)
    (r : x.state = .running) : AtHead (porting x { q with rx := [f] }) 7 f [] f.mtype 0 :=
  ⟨rfl, rfl, c, h, rfl, .inr (.inr r)⟩
theorem test_hyps_summary : AtHead (porting (quietCtx 1 0) { rx := [flit 3 0x0B 0 5] }) 7 (flit 3 0x0B 0 5) [] 0x0B 0 ∧
    ((porting (quietCtx 1 0) {}).port 7).parts = [] :=
  ⟨test_head _ _ {} rfl (by decide +kernel) rfl, rfl⟩

/-! ### Links -/

/-- The capability word of a partner at port 5 of module 0x4001: every mode of class 0. -/
def partnerWord : DWord := packFields 64 [(63, 60, 1), (59, 52, 0xFA), (51, 47, 5), (46, 45, 0), (44, 27, 0x4001)]
def slowWord : DWord := packFields 64 [(63, 60, 1), (59, 52, 0x80), (46, 45, 0)]
def linked (p : Nat) (q : Port) : State := { st (tagged cx) cl with ports := [(p, q)] }
theorem test_hyps_negotiation :
    ((linked 6 { state := .detect }).port 6).state = .detect ∧ (3 : BitVec 2) ≠ 0 ∧ fld partnerWord 46 45 = portClass 6 ∧
    fld partnerWord 46 45 ≠ portClass 7 ∧ modeUsable { partnerWord := partnerWord } 6 3 2 ∧ ¬ modeUsable { partnerWord := partnerWord } 6 3 1 ∧
    ¬ modeUsable { partnerWord := partnerWord } 6 1 2 ∧ modeUsable { partnerWord := slowWord } 6 2 8 ∧
    (3 : BitVec 2) &&& ~~~ (1 &&& 3) ≠ 0 ∧ (3 : BitVec 2) &&& ~~~ (3 &&& 3) = 0 ∧ 2 + 1 < 4 ∧ 4 ≤ 3 + 1 := by
  refine ⟨?_, ?_, ?_, ?_, ?_, ?_, ?_, ?_, ?_, ?_, ?_, ?_⟩ <;> first | decide | (unfold modeUsable; decide +kernel)

theorem test_best_mode : modeBest { partnerWord := partnerWord } 6 3 2 ∧ ∀ r, ¬ modeUsable { partnerWord := partnerWord } 6 0 r := by
  refine ⟨⟨by unfold modeUsable; decide +kernel, fun k h => ?_⟩, fun r h => ?_⟩
  · have h1 : k ≠ 1 := by rintro rfl; revert h; unfold modeUsable; decide +kernel
    have := h.1; omega
  · have h1 := h.2.2.2.2.2
    have h2 : 1 ≤ modeLanes r := by unfold modeLanes; split <;> decide
    simp at h1; omega

theorem test_hyps_alignment :
    ¬ wrongPartner (linked 6 { partnerWord := partnerWord }) { partnerWord := partnerWord } 6 ∧ wrongPartner swapped (swapped.port 5) 5 ∧
    (linked 6 { state := .down }).lantern.od.modeMask = [] ∧ classModes (portClass 6) &&& Mem.rd 0xFF ([] : Mem Byte) 6 ≠ 0 ∧
    999999000 + 1000 ≤ (linked 6 {}).clock.dome ∧ 990000000 + 1000000 * (linked 6 {}).lantern.od.retrainMs ≤ (linked 6 {}).clock.dome ∧
    (linked 6 {}).clock.dome < 990000001 + 1000000 * (linked 6 {}).lantern.od.retrainMs ∧
    usesPort routed 2 = true ∧ killable routed = true := by
  refine ⟨?_, ?_, ?_, ?_, ?_, ?_, ?_, ?_, ?_⟩ <;> first | decide +kernel | (unfold wrongPartner; decide +kernel)

def sent (seq : BitVec 12) : Flit := { flit 2 0x02 0 0 with seq := seq }
theorem test_hyps_flits :
    takesFlit (linked 7 { state := .active }) 7 (flit 2 0x02 0 0) = true ∧ takesFlit (linked 7 { state := .active }) 7 (flit 3 0x18 0 0) = false ∧
    takesFlit (linked 7 { state := .active }) 7 { flit 2 0x02 0 0 with ctx := 6 } = false ∧
    ([sent 4094, sent 4095, sent 0] : List Flit) = [sent 4094] ++ sent 4095 :: [sent 0] ∧
    (∀ h ∈ [sent 4094], h.seq ≠ (sent 4095).seq) ∧ [sent 4094, sent 4095].find? (fun f => decide (f.seq = 4095)) = some (sent 4095) ∧
    ((linked 7 { state := .active, lastHeader := 999999936 }).port 7).lastHeader + 64 ≤ (linked 7 {}).clock.dome ∧
    999999700 + 300 ≤ (linked 7 {}).clock.dome ∧ (linked 7 {}).clock.dome < 999999701 + 300 ∧
    cx.cc % 10 = 0 ∧ cx.cc % 320 / 10 = 0 ∧ running (linked 2 {}) (tagged cx) = true ∧ (Mem.rd ({} : SlotEntry) routed.slots (32 * 2 + 0)).kind = 1 ∧
    (⟨320, 1, 0, 2, 0, 0, 0⟩ : LinkRow).route = (Mem.rd ({} : SlotEntry) routed.slots 64).route := by
  refine ⟨?_, ?_, ?_, ?_, ?_, ?_, ?_, ?_, ?_, ?_, ?_, ?_, ?_, ?_⟩ <;> decide +kernel

/-! ### Messages -/

def moving (l : List Loose) (c : Cell) : State := { st (tagged cx) c with transit := l }
def aMessage (n : Nat) : StagedMsg := ⟨false, 1, ⟨0, false, 4⟩, List.replicate n 0, .cell 0 4 9, false, 0⟩
theorem test_hyps_transit :
    (moving [.row 0 0 ⟨639, 0, none, 512, .none⟩] cl).transit[0]? = some (.row 0 0 ⟨639, 0, none, 512, .none⟩) ∧
    (moving [.signal 0 0 63 512] cl).transit[0]? = some (.signal 0 0 63 512) ∧
    (moving [.signal 0 0 63 0, .qmsg 0 0 (aMessage 16)] cl).transit[1]? = some (.qmsg 0 0 (aMessage 16)) ∧
    (∀ l ∈ (moving [.signal 0 0 63 0, .qmsg 0 0 (aMessage 16)] cl).transit.take 1, channelOf l ≠ channelOf (.qmsg 0 0 (aMessage 16))) ∧
    stageFits { cl with sync := { received := [aMessage 16] } } 16 ∧ ¬ stageFits { cl with sync := { received := [aMessage 16] } } 17 ∧
    (moving [] cl).cell? (cellIn 0 0) = some cl ∧
    [aSend none].find? (fun q => decide (q.seq = 0) && q.result.isNone) = some (aSend none) ∧
    ((moving [] cl).ctx 0).regions.length = 2 ∧ (((moving [] cl).comb 0 1).stage.map (fun m => m.rows.length)).sum + 64 ≤ 64 := by
  refine ⟨rfl, rfl, rfl, ?_, ?_, ?_, ?_, ?_, ?_, ?_⟩ <;>
    first | decide +kernel | (unfold stageFits; decide +kernel) | (simp [State.cell?, moving, st, cellKey, cellIn, Mem.find])

theorem test_at_port (mtype : BitVec 6) (cls : BitVec 2) (arg : DWord) (q : Port) (x : Ctx) (r : x.state = .running)
    (c : (porting x { q with rx := [flit cls mtype arg 0] }).tagged 5 = some 0) :
    AtHead (porting x { q with rx := [flit cls mtype arg 0] }) 7 (flit cls mtype arg 0) [] mtype 0 :=
  test_head x _ q rfl c r

/-- Fields of Table 11.7 for one row: the last row of cell 15 of block 23 of region 1, signal 63. -/
def rowArg : DWord := packFields 64 [(31, 18, 0x37F), (17, 8, 639), (6, 6, 1), (5, 0, 63)]
def pending (mtype : BitVec 6) (arg : DWord) : Ctx :=
  { tagged { cx with expects := [⟨7, 1, 5, 700⟩] } with instances := [⟨7, 1, 370, mtype, some (arg, 0), none⟩] }
theorem test_hyps_ports :
    (porting cx { rx := [flit 3 0x03 0x80 0] }).tagged 5 = some 0 ∧ cellExists ((porting cx {}).ctx 0).regions.length 0x37F = true ∧
    fld rowArg 31 18 = (0x37F : CellId).toNat ∧ fld rowArg 17 8 < 640 ∧ rowArg.getLsbD 7 = false ∧
    fld (rowArg ||| 0x80) 31 18 = (0x37F : CellId).toNat ∧ fld (rowArg ||| 0x80) 17 8 < 640 ∧ (rowArg ||| 0x80).getLsbD 7 = true ∧
    (flit 3 0x03 rowArg 0).mtype = 0x03 ∧ (flit 3 0x05 rowArg 0).hop = 0 ∧
    fld (0x1000 : DWord) 16 12 = 1 ∧ fld (0x1000 : DWord) 11 8 = 0 ∧ (flit 3 0x05 0x1000 0).due.toNat < 16384 ∧
    tRoute (aSend none).target ≠ 0 ∧ tKind (aSend none).target ≠ 2 ∧ (aSend none).tag.toNat = fld (0xFFFF000000000000 : DWord) 63 48 ∧
    cellExists ((porting cx {}).ctx 0).regions.length (BitVec.ofNat 14 (fld (0x6000000 : DWord) 31 18)) = false := by
  refine ⟨?_, ?_, ?_, ?_, ?_, ?_, ?_, ?_, ?_, ?_, ?_, ?_, ?_, ?_, ?_, ?_, ?_⟩ <;> decide +kernel

theorem test_due : Due { cx with cc := 600, expects := [⟨7, 1, 1, 700⟩] } 7 { flit 2 1 0 0 with due := 710 } ⟨7, 1, 1, 700⟩ 710 :=
  ⟨rfl, rfl, by decide, by decide, by decide, rfl, by decide, by decide, by decide⟩

theorem test_hyps_scheduled :
    (porting (pending 2 rowArg) { rx := [flit 2 0x02 0x80 0] }).tagged 5 = some 0 ∧ rowArg.getLsbD 63 = false ∧
    (0x80000 : DWord).getLsbD 19 = true ∧ (0x40 : DWord).getLsbD 6 = true ∧
    fld (packFields 64 [(46, 44, 5), (43, 41, 7), (40, 39, 0)]) 40 39 = 0 ∧ 256 * 7 + (1 : Byte).toNat ∉ cx.lagging ∧
    Machine.missing (rejoinState { barInst 1 4 false none 300 with cur := [(1, 63), (0, 63)] } true) 0
      { barInst 1 4 false none 300 with cur := [(1, 63), (0, 63)] } = [] ∧ 4 % 4 = 0 ∧
    killable cx = true ∧ cx.acceptDome ≤ fld (0 : BitVec 2048) 63 0 ∧ (linked 7 {}).tagged 6 = none ∧ (linked 7 {}).oldKills.length < 64 ∧
    (15 : Fin 16).val = 15 ∧ fld (254 : BitVec 2048) 15 0 ≤ 254 := by
  refine ⟨?_, ?_, ?_, ?_, ?_, ?_, ?_, ?_, ?_, ?_, ?_, ?_, ?_, ?_⟩ <;> decide +kernel

/-! ### Time, power, bring-up -/

def timed (k : Clocks) : State := { linked 15 { state := .active } with clock := k }
theorem test_hyps_time :
    ((timed { input := some 15 }).port 15).state = .active ∧ ({ dome := 1024 } : Clocks).syncStart + 1024 ≤ 1024 ∧
    offsetWithin 1 8 ∧ ¬ offsetWithin 1 9 ∧ offsetWithin 2 56 ∧ ¬ offsetWithin 2 57 ∧ offsetWithin 1 (BitVec.ofInt 24 (-8)) ∧
    measuredOffset 100 107 200 200 = 3 ∧ measuredOffset 107 100 200 200 = BitVec.ofInt 24 (-4) ∧
    (timed { dome := 10000 }).clock.lastSync + 10000 ≤ 10000 ∧ 3 ≠ (timed {}).ownAddress % 8 ∧ (timed {}).isRoot = false ∧
    ({ (timed {}) with lantern := { address := 5, od := { timeMode := 1, rootAddress := 5 } } } : State).isRoot = true ∧
    400000 ≤ 1500000 ∧ 1500000 ≤ maxClock (timed {}).grade ∧ 1500000 % 25000 = 0 ∧ maxClock (timed {}).grade < 1525000 := by
  refine ⟨?_, ?_, ?_, ?_, ?_, ?_, ?_, ?_, ?_, ?_, ?_, ?_, ?_, ?_, ?_, ?_, ?_⟩ <;>
    first | decide +kernel | (unfold offsetWithin; decide +kernel)

def powered (p : Power) : State := { st cx cl with power := p }
theorem test_hyps_power :
    ({ State.reset with bring := { at_ := .off }, power := { present := true } } : State).bring.at_ = .off ∧ (powered {}).bring.at_ ≠ .off ∧
    fatalSupply (.v54 43999 0) ∧ ¬ fatalSupply (.v54 60000 0) ∧ fatalSupply (.v54 49999 20001) ∧ ¬ fatalSupply (.v54 49999 20000) ∧
    fatalSupply (.v12 10799 51) ∧ ¬ fatalSupply (.v12 10799 50) ∧ ¬ fatalSupply (.v12 13200 51) ∧ holdable cx = true ∧
    (powered {}).grade = .liquid ∧ (powered { p54avg10 := 3299 }).power.p54avg10 + 100 < (powered {}).clock.envelope ∧
    (powered { p54avg10 := 3401 }).clock.envelope < 3401 ∧ 0 + 100000000 ≤ (powered {}).clock.dome ∧
    10 * (powered {}).lantern.od.holdC - 50 < ({ powered {} with power := { sensors := [(63, 1001)] } } : State).sensor 63 ∧
    10 * (powered {}).lantern.od.holdC ≤ (1050 : BitVec 16).toInt ∧ (1049 : BitVec 16).toInt < 10 * (powered {}).lantern.od.holdC ∧
    1200 ≤ (1200 : BitVec 16).toInt := by
  refine ⟨?_, ?_, ?_, ?_, ?_, ?_, ?_, ?_, ?_, ?_, ?_, ?_, ?_, ?_, ?_, ?_, ?_, ?_⟩ <;>
    first | decide +kernel | (unfold fatalSupply; decide +kernel)

def atStage (k : Nat) : State := { State.reset with bring := { at_ := .stage k } }
theorem test_hyps_stages :
    stageOf (.stageS11 5) = some (11, 5) ∧ (atStage 11).bring.at_ = .stage 11 ∧ (atStage 10).bring.at_ ≠ .stage 11 ∧
    vecAt (atStage 0).lantern.seqB 7 ≤ vecAt (atStage 0).lantern.seqA 7 ∧ vecAt (atStage 0).lantern.wear 0 < 1000000 ∧
    (atStage 1).lantern.bootSlot = none ∧ Mem.rd 0 ((atStage 4).region 31).spares 23 = 0 ∧ (atStage 4).lantern.od.cellFences = [] ∧
    (atStage 4).lantern.od.regionFences = 0 ∧ ((atStage 11).fn (pfOf 0)).events.length < 256 ∧ (atStage 10).clock.refState = 0 ∧
    (atStage 10).bring.warm = false ∧ (swapped.port 5).state = .active := by
  refine ⟨?_, ?_, ?_, ?_, ?_, ?_, ?_, ?_, ?_, ?_, ?_, ?_, ?_⟩ <;> decide +kernel

theorem test_hyps_resets :
    Mem.sortedFrom none (st cx cl).ctxs = true ∧ Mem.sortedFrom none ([(5, f1)] : Mem FnRef) = true ∧ (f1.fn ≠ 0) ∧ (pfOf 0).fn = 0 ∧
    (st cx cl).unrecoverable = false ∧ ({ st cx cl with unrecoverable := true } : State).unrecoverable = true ∧
    ({ st cx cl with bring := { pcieReady := true } } : State).train 0 = .held ∧ 7 ∉ ((st cx cl).region 31).retrain ∧
    7 ∈ ({ retrain := [7] } : Region).retrain ∧ (st cx cl).bring.at_ = .ready ∧ (st cx cl).clock.stage = 11 ∧
    (1 : Word).getLsbD 0 = true ∧ (routed.slots ≠ [] ∨ routed.routes ≠ []) := by
  refine ⟨?_, ?_, ?_, ?_, ?_, ?_, ?_, ?_, ?_, ?_, ?_, ?_, ?_⟩ <;> decide +kernel

/-! ### The host interface -/

def command (op handle par : Nat) : Codeword := BitVec.ofNat 512 (op + 256 * handle + 0x00410000 + 2 ^ 64 * par)
def theCmd (op handle par : Nat) (accepted : Bool) : Cmd := ⟨0, command op handle par, false, accepted, 1000, 0, 0⟩
/-- Function 1 of H0 with both rings on, and its commands. -/
def theFn (cmds : List Cmd) : Fn :=
  { cmdqOn := true, cplqOn := true, cmdqSize := 4, cplqSize := 16, cmdqTail := 15, handles := [(2, 0)], cmds := cmds, intOn := true, coalUs := 1
    unsignalled := 1, firstUnsig := 999999000, maxContexts := 1, maxRegions := 1 }
def served (x : Ctx) (q : Fn) : State := { st x cl with fns := [(1, q)], sessions := [(5, f1)] }
theorem test_hyps_rings_of_a_function :
    fld (0x000F : Word) 15 0 < 2 ^ 4 ∧ 2 ^ 4 ≤ fld (0x0010 : Word) 15 0 ∧ ({} : Fn).cmdqOn = false ∧ fld (0x80000010 : Word) 4 0 = 16 ∧
    (0x80000010 : Word).getLsbD 31 = true ∧ (theFn []).cmdqOn = true ∧ (theFn []).cmdqOff = false ∧ (theFn [theCmd 0 0xFF 0 false]).cmds ≠ [] ∧
    2 * 2 ^ 4 ≤ 2 ^ fld (0x80000005 : Word) 4 0 ∧ 2 ^ fld (0x80000004 : Word) 4 0 < 2 * 2 ^ 4 ∧
    (∃ c ∈ [{ theCmd 0 0xFF 0 false with mbox := true }], c.mbox = true) ∧ Mem.find (theFn []).handles 2 = some 0 ∧
    ((served { cx with state := .loaded } (theFn [])).ctx 0).state = .loaded ∧ (0x2FF8 : BitVec 14).toNat % 8 = 0 ∧ (0x2FF8 : BitVec 14).toNat < 0x3000 ∧
    (served cx {}).cell? ⟨Fin.ofNat 32 0, 0⟩ = some cl ∧ 2 ^ 4 ≤ fld (0x1F : Word) 4 0 := by
  refine ⟨?_, ?_, ?_, ?_, ?_, ?_, ?_, ?_, ?_, ?_, ?_, ?_, ?_, ?_, ?_, ?_, ?_⟩ <;>
    first | decide +kernel | simp [State.cell?, served, st, cellKey, Mem.find]

theorem test_hyps_commands :
    takesCommands (served cx {}) ∧ (theFn []).cmdqHead ≠ (theFn []).cmdqTail ∧ ringCmds (theFn (List.replicate 63 (theCmd 0 0xFF 0 false))) < 64 ∧
    ringCmds (theFn (List.replicate 63 (theCmd 0 0xFF 0 false))) + 1 ≤ cplRoom (theFn []) ∧ cplRoom {} ≤ ringCmds {} ∧
    inTurn (theFn [theCmd 0x12 2 0 false]) (theCmd 0x12 2 0 false) = true ∧
    inTurn (theFn [theCmd 0x12 2 0 false, { theCmd 0x12 2 0 false with seq := 1 }]) { theCmd 0x12 2 0 false with seq := 1 } = false ∧
    knownOp (cmdOp (theCmd 0x18 0 0 false)) = false ∧ badCommand f1 (theCmd 0x12 8 0 false) = false ∧ 7 < cmdHandle (theCmd 0x12 8 0 false) ∧
    legalIn 0x12 ((served cx (theFn [])).handleState f1 2) = false ∧ badCommand f1 (theCmd 0x12 2 0 false) = false ∧
    legalIn 0x12 ((served { cx with state := .loaded } (theFn [])).handleState f1 2) = true ∧
    cplRoom { theFn [] with events := [⟨1, 2, 0, 0, 0, 0, 0, 0, false⟩] } ≠ 0 ∧ (15 + 1) % 2 ^ 4 = 0 % 2 ^ 4 ∧
    (theFn []).firstUnsig + 1000 * (theFn []).coalUs ≤ (served cx {}).clock.dome ∧ (served cx {}).clock.dome < 999999001 + 1000 * 1 ∧
    (0x102 : Word).getLsbD 8 = true ∧ Mem.find (theFn []).handles (fld (0x102 : Word) 2 0) = some 0 ∧ killable cx = true := by
  refine ⟨?_, ?_, ?_, ?_, ?_, ?_, ?_, ?_, ?_, ?_, ?_, ?_, ?_, ?_, ?_, ?_, ?_, ?_, ?_, ?_⟩ <;>
    first | decide +kernel | (unfold takesCommands; decide +kernel)

theorem test_hyps_msix : (theFn []).intOn = true ∧ (theFn []).coalUs ≠ 0 ∧ (theFn []).unsignalled ≠ 0 ∧
    (theFn []).msixMask.getLsbD 0 = true ∧ ({ theFn [] with msixMask := 2 }).msixMask.getLsbD 0 = false ∧
    ({ theFn [] with msixPend := 1 }).msixPend = 1 ∧ (0x100000000 : DWord).getLsbD 32 = true ∧ (0x55 : DWord).getLsbD 32 = false := by
  decide

theorem test_accepted_by (s : State) (c : Cmd) (op : Nat) (a : s.fn f1 = theFn [c]) (u : s.unrecoverable = false)
    (k : c.accepted = true ∧ cmdOp c = op) : acceptedCmd s f1 c.seq op c :=
  ⟨by simp [a, theFn], k.1, k.2, u, fun _ h => by simp [a, theFn] at h⟩

theorem test_accepted (x : Ctx) (op h par : Nat) (k : cmdOp (theCmd op h par true) = op) :
    acceptedCmd (served x (theFn [theCmd op h par true])) f1 0 op (theCmd op h par true) :=
  test_accepted_by (served x (theFn [theCmd op h par true])) (theCmd op h par true) op
    (by simp [served, State.fn, fnKey, f1, Mem.rd, Mem.find]) rfl ⟨rfl, k⟩

def aLease (session : Nat) : Lease := ⟨session, [(31, 0)], 639, 1, 0, 64, false⟩
theorem test_hyps_session_commands :
    acceptedCmd (served cx (theFn [theCmd 0 0xFF 0 true])) f1 0 0 (theCmd 0 0xFF 0 true) ∧
    acceptedCmd (served cx (theFn [theCmd 1 0xFF 0 true])) f1 0 1 (theCmd 1 0xFF 0 true) ∧ Mem.find (served cx {}).sessions 1 = none ∧
    acceptedCmd (served cx (theFn [theCmd 2 0xFF 5 true])) f1 0 2 (theCmd 2 0xFF 5 true) ∧ cmdPar (theCmd 2 0xFF 5 true) 8 8 = 5 ∧
    Mem.find (served cx {}).sessions 5 = some f1 ∧ sessionInUse (served cx {}) 5 ∧ ¬ sessionInUse (served { cx with session := 4 } {}) 5 ∧
    acceptedCmd (served cx (theFn [theCmd 3 0xFF 15 true])) f1 0 3 (theCmd 3 0xFF 15 true) ∧ cmdPar (theCmd 3 0xFF 15 true) 8 8 = 15 ∧
    acceptedCmd (served cx (theFn [theCmd 0x11 2 (2 ^ 160) true])) f1 0 0x11 (theCmd 0x11 2 (2 ^ 160) true) ∧
    cmdPar (theCmd 0x11 2 (2 ^ 160) true) 24 31 = 2 ^ 32 ∧ cmdPar (theCmd 0x11 2 (2 ^ 160 + 2 ^ 128) true) 24 31 = 2 ^ 32 + 1 ∧
    onContext (served cx (theFn [])) f1 (theCmd 0x11 2 0 true) 0 ∧ (cx.state = .loaded ∨ cx.state = .armed ∨ cx.state = .running) ∧
    acceptedCmd (served cx (theFn [theCmd 0x16 2 1 true])) f1 0 0x16 (theCmd 0x16 2 1 true) ∧ leaseMask (theCmd 0x16 2 1 true) 0 ∧
    leaseMask (theCmd 0x16 2 2 true) 1 ∧ cx.regions.length ≤ 1 ∧ Mem.find (served cx {}).leases 1 = none ∧
    acceptedCmd (served cx (theFn [theCmd 0x17 0xFF 1 true])) f1 0 0x17 (theCmd 0x17 0xFF 1 true) ∧
    Mem.sortedFrom none ([(1, aLease 5)] : Mem Lease) = true ∧ ¬ heldBySome (served cx {}) 31 ∧ heldBySome (served cx {}) 0 := by
  refine ⟨test_accepted _ _ _ _ ?_, test_accepted _ _ _ _ ?_, ?_, test_accepted _ _ _ _ ?_, ?_, ?_, ?_, ?_, test_accepted _ _ _ _ ?_, ?_,
    test_accepted _ _ _ _ ?_, ?_, ?_, ?_, ?_, test_accepted _ _ _ _ ?_, ?_, ?_, ?_, ?_, test_accepted _ _ _ _ ?_, ?_, ?_, ?_⟩ <;>
    first | decide +kernel | (unfold sessionInUse; decide +kernel) | (unfold onContext; decide +kernel) |
      (unfold leaseMask; decide +kernel) |
      (rintro ⟨m, h, -⟩; exact absurd h (by simp [served, st, State.region, Mem.rd, Mem.find])) |
      exact ⟨0, rfl, .inr (.inr (.inl rfl))⟩

/-- An image of one region for the module at address 0: header, no section. -/
def image (tag : Byte) (crc : List Byte) : List Byte :=
  [0x59, 0x4C, 0x42, 0x33, 1, 0, 0, 0, 64, 0, 0, 0] ++ crc ++ [0, 0, 0, 0, 0, 0, 0, 0, 0, 0, 0, 1, 3, 3, 1, 1, tag, 0, 0, 0, 0, 0, 0, 1] ++
  List.replicate 24 0
def anImage : List Byte := image 5 [0x83, 0xAF, 0x77, 0xAF]
def loadingCtx : Ctx := { state := .loading, owner := f1, handle := 2, session := 5, imageLen := 64 }
def loadingState : State :=
  { served loadingCtx (theFn [theCmd 0x10 2 0 true]) with regions := [], lantern := { od := {} } }
theorem test_image : imageOk 64 anImage = true ∧ imageOk 63 anImage = false ∧ imageOk 64 (image 6 [0x83, 0xAF, 0x77, 0xAF]) = false := by decide +kernel
theorem test_hyps_loads_by_command :
    loadingBy loadingState 0 f1 (theCmd 0x10 2 0 true) ∧ (loadingState.ctx 0).got = none ∧
    waitsForAnother { loadingState with ctxs := [(0, { loadingCtx with owner := ⟨1, 0⟩ }), (1, { loadingCtx with owner := ⟨0, 0⟩ })] } 0 ∧
    ¬ waitsForAnother loadingState 0 ∧ ¬ killedMeanwhile loadingState 0 anImage ∧
    killedMeanwhile { loadingState with oldKills := [(5, 7, 3)] } 0 anImage := by
  refine ⟨⟨?_, ?_, ?_, test_accepted_by _ _ _ ?_ rfl ⟨rfl, ?_⟩, ?_, ?_⟩, ?_, ?_, ?_, ?_, ?_⟩ <;>
    first | decide +kernel | (unfold killedMeanwhile; decide +kernel) | (unfold waitsForAnother; decide +kernel)

/-- An image without sections passes the format checks; with another CTX_TAG under the same CRC it does not. -/
theorem test_image_format : imageFormat loadingState 0 anImage ∧ ¬ imageFormat loadingState 0 (image 6 [0x83, 0xAF, 0x77, 0xAF]) := by
  have z : ∀ i, i < 64 → 52 ≤ i → imgNum anImage i 1 = 0 := by decide +kernel
  refine ⟨⟨⟨?_, ?_, ?_, ?_, ?_, ?_, ?_, ?_, ?_, ?_, ?_, ?_, ?_, ?_, fun i a b => z i b a⟩, fun i h => ?_, fun i j _ h => ?_⟩, fun h => ?_⟩
  any_goals decide +kernel
  · exact absurd h (by have : imgNum anImage 6 2 = 0 := by decide +kernel
                       omega)
  · exact absurd h (by have : imgNum anImage 6 2 = 0 := by decide +kernel
                       omega)
  · exact absurd h.1.2.2.2.2.2.2.1 (by decide +kernel)

theorem test_no_sections (k u i : ℕ) : ¬ secIs anImage k u i := fun h => absurd h.1 (by
  have : imgNum anImage 6 2 = 0 := by decide +kernel
  omega)

theorem test_no_slots (p k : ℕ) : ¬ slotUsed anImage p k := fun ⟨_, ⟨_, h, _⟩, _⟩ => test_no_sections _ _ _ h
theorem test_no_routes (p : ℕ) : ¬ firstHop anImage p := fun ⟨_, _, ⟨_, h, _⟩, _⟩ => test_no_sections _ _ _ h

theorem test_hyps_image_checks : allPass (imageChecks loadingState 0 anImage) ∧
    firstFails (imageChecks loadingState 0 (image 6 [0x83, 0xAF, 0x77, 0xAF])) 0x10 ∧ placing loadingState 0 (some anImage) anImage ∧
    allPass (placeChecks loadingState 0 anImage) ∧ firstFails (placeChecks { loadingState with sessions := [] } 0 anImage) 4 ∧
    ¬ slotsBusy loadingState anImage := by
  have a : allPass (imageChecks loadingState 0 anImage) := by
    intro e h
    simp only [imageChecks, List.mem_cons, List.not_mem_nil, or_false] at h
    rcases h with rfl | rfl | rfl | rfl | rfl
    · exact test_image_format.1
    all_goals decide +kernel
  refine ⟨a, .inl ⟨test_image_format.2, rfl⟩, .inr ⟨rfl, rfl, a, by unfold killedMeanwhile; decide +kernel⟩, ?_, .inl ⟨?_, rfl⟩, ?_⟩
  · intro e h
    simp only [placeChecks, List.mem_cons, List.not_mem_nil, or_false] at h
    rcases h with rfl | rfl | rfl | rfl | rfl
    · decide +kernel
    · unfold inQuota; decide +kernel
    · exact fun p k h => absurd h (test_no_slots p k)
    · exact fun p h => absurd h (test_no_routes p)
    · exact fun p _ _ h => absurd h (by rintro (h | ⟨k, h⟩); exacts [test_no_routes p h, test_no_slots p k h])
  · decide +kernel
  · rintro ⟨_, _, p, k, h, _⟩; exact test_no_slots p k h

/-- With one region that is not free and a lease on another, region 0 is bound; a lease of the session on a region in CLEARING
fails, and so does a module whose regions are all in CLEARING. -/
def crowded (l : Mem Region) (leases : Mem Lease) : State := { loadingState with regions := l, leases := leases }
theorem test_hyps_placement :
    leasesHold loadingState 0 1 ∧ binds loadingState 0 1 [0] ∧ ¬ leasesHold (crowded [(31, { clearing := true })] [(1, aLease 5)]) 0 1 ∧
    noRegions (crowded ((List.range 32).map (fun p => (p, { clearing := true }))) []) 0 1 := by
  refine ⟨⟨fun e h => ?_, ?_⟩, ?_, fun h => ?_, ⟨[], by decide, fun i p h => by simp at h, fun q h => ?_, fun q h => ?_⟩⟩
  · exact absurd h (by simp [claims, loadingState, served, st])
  · simp [claims, loadingState, served, st]
  · intro i p h
    have h2 : i = 0 ∧ p = 0 := by cases i <;> simp_all
    obtain ⟨rfl, rfl⟩ := h2
    refine .inr ⟨fun q h => absurd h (by simp [claims, loadingState, served, st]),
      ⟨by decide, ⟨by decide +kernel, rfl, rfl, rfl, by decide +kernel, fun k l h => absurd h ?_⟩, rfl, by simp,
        fun e h => absurd h (by simp [claims, loadingState, served, st])⟩, fun q h => ?_⟩
    · simp [State.leaseOf, loadingState, served, st]
    · have : (loadingState.ctx 0).classes = [] := by decide +kernel
      simp [rank, this]
  · exact absurd (h.1 (31, 0) (by decide +kernel)).2.2.2.1 (by decide +kernel)
  · exact absurd h (by simp [claims, crowded])
  · have z : ∀ q, q < 32 → ((crowded ((List.range 32).map (fun p => (p, { clearing := true }))) []).region q).clearing = true := by
      decide +kernel
    exact absurd (z q h.1) (by rw [h.2.1.2.2.2.1]; decide)

theorem test_hyps_launches :
    Mem.find (theFn []).handles 3 = none ∧ Mem.find (served cx {}).ctxs 1 = none ∧ Mem.find (served cx {}).ctxs 0 ≠ none ∧
    acceptedCmd (served { cx with state := .loaded } (theFn [theCmd 0x12 2 6000 true])) f1 0 0x12 (theCmd 0x12 2 6000 true) ∧
    (theCmd 0x12 2 6000 true).acceptedAt + 5000 ≤ cmdPar (theCmd 0x12 2 6000 true) 8 15 ∧
    cmdPar (theCmd 0x12 2 5999 true) 8 15 < (theCmd 0x12 2 5999 true).acceptedAt + 5000 ∧ (served cx {}).power.thermalHold = false ∧
    (served cx {}).power.supplyLow = false ∧ (served cx {}).power.overPower = false ∧
    acceptedCmd (served cx (theFn [theCmd 0x13 2 0 true])) f1 0 0x13 (theCmd 0x13 2 0 true) ∧
    acceptedCmd (served { cx with state := .done } (theFn [theCmd 0x14 2 0 true])) f1 0 0x14 (theCmd 0x14 2 0 true) ∧
    acceptedCmd (served cx (theFn [theCmd 0x15 2 0 true])) f1 0 0x15 (theCmd 0x15 2 0 true) ∧
    (served { cx with dumps := [2] } (theFn [theCmd 0x15 2 0 true])).cmdsOn 0 0x15 = [theCmd 0x15 2 0 true] ∧ cx.regions.Nodup := by
  refine ⟨?_, ?_, ?_, test_accepted _ _ _ _ ?_, ?_, ?_, ?_, ?_, ?_, test_accepted _ _ _ _ ?_, test_accepted _ _ _ _ ?_,
    test_accepted _ _ _ _ ?_, ?_, ?_⟩ <;> decide +kernel

/-! ### The lantern -/

def lit (l : Lantern) : State := { st cx cl with lantern := l }
theorem test_serves (s : State) (q : ReqPath) (idx sub : Nat) (a : s.pathOpen q = true) (b : s.busy idx sub = false) :
    serves s q idx sub := by
  refine ⟨a, fun h => ?_⟩
  unfold answersBusy servedDown at h
  simp only [State.busy, servedWhenDown, Bool.or_eq_false_iff, Bool.and_eq_false_iff, Bool.not_eq_false', decide_eq_false_iff_not,
    Bool.not_eq_true', Bool.or_eq_true, Bool.and_eq_true, decide_eq_true_eq] at b
  grind
def odReq (idx : BitVec 16) (sub : Byte) (len : BitVec 16) : OdReq := { op := 1, tag := 7, index := idx, sub := sub, zero := 0, offset := 0, length := len }
theorem test_hyps_dictionary :
    serves (lit {}) .i3c 0x7020 4 ∧ serves (lit {}) (.pf 0) 0x7020 4 ∧ (lit {}).pathOpen (.pf 1) = false ∧
    (0x7020, 4, 2, (1000 : Int)) ∈ scalarEntries (lit {}) ∧ scalarReq (odReq 0x7020 4 2) 0x7020 4 ∧
    (odReq 0x7020 4 1).length.toNat < 2 ∧ (odReq 0x7010 12 64).offset.toNat + (odReq 0x7010 12 64).length.toNat ≤ 64 ∧
    Mem.find (lit { attest := [(2, ⟨0, 0, some []⟩)] }).lantern.attest (pathKey .i3c) = some ⟨0, 0, some []⟩ ∧
    Mem.find (lit {}).lantern.attest (pathKey .i3c) = none ∧ vecAt (lit {}).lantern.wear 7 < 1000000 ∧
    1000000 ≤ vecAt (lit { wear := Vector.replicate 8 1000000 }).lantern.wear 7 ∧ (odReq 0x0FFF 0 1).index.toNat < 0x1000 := by
  refine ⟨?_, ?_, ?_, ?_, ?_, ?_, ?_, ?_, ?_, ?_, ?_, ?_⟩ <;>
    first | decide +kernel | (exact test_serves _ _ _ _ (by decide +kernel) (by decide +kernel)) | (unfold scalarReq; decide +kernel) | (simp [scalarEntries, lit])

theorem test_class_m : isM .i3c ∧ isM (.pf 0) ∧ ¬ isM (.vf 0 3) :=
  ⟨fun _ _ h => ReqPath.noConfusion h, fun _ _ h => ReqPath.noConfusion h, fun h => h 0 3 rfl⟩

theorem test_writable : ∃ e ∈ writableEntries .liquid {} 3400, e.1 = 0x2000 ∧ e.2.2.2.2.1 ∧ e.2.2.2.2.2 = { envelope := 3400 } := by
  refine ⟨_, List.mem_cons_of_mem _ (List.mem_cons_of_mem _ (List.mem_cons_self ..)), rfl, ?_, rfl⟩
  simp

theorem test_recorded : cellUnrecorded (lit {}) ⟨31, 23, 16⟩ ∧ ¬ cellUnrecorded (lit { od := { cellFences := [0x9FBC0002] } }) ⟨31, 23, 16⟩ := by
  refine ⟨fun w h => by simp [lit] at h, fun h => ?_⟩
  exact absurd (h 0x9FBC0002 (by simp [lit])) (by decide +kernel)

/-- Records of cell 16 of block 23 of region 31 and of region 31. -/
theorem test_hyps_fences :
    fencesKept (lit {}) ∧
    fenceWord 0x1FBC0008 31 (some (23, 16)) (fld (0x1FBC0008 : Word) 7 0) ∧ (0x1FBC0008 : Word).getLsbD 31 = false ∧
    fenceWord 0x9F000008 31 none (fld (0x9F000008 : Word) 7 0) ∧ (0x9F000008 : Word).getLsbD 31 = true ∧
    serves (lit {}) .i3c 0x4012 1 ∧ serves (lit {}) .i3c 0x4012 2 ∧ 24 ≤ fld (0x1FC00000 : Word) 23 19 ∧ 17 ≤ fld (0x1FBC4000 : Word) 18 14 ∧
    fld (0x9F004000 : Word) 23 14 ≠ 0 ∧ (lit {}).lantern.od.regionFences.getLsbD 31 = false ∧
    (lit { restarting := true }).lantern.restarting = true ∧ (List.replicate 255 (FenceEvent.secondHbmUe 31)).length < 256 := by
  refine ⟨?_, ?_, ?_, ?_, ?_, ?_, ?_, ?_, ?_, ?_, ?_, ?_, ?_⟩ <;>
    first | decide +kernel | (unfold fencesKept; decide +kernel) |
      (unfold fenceWord; decide +kernel) | (exact test_serves _ _ _ _ (by decide +kernel) (by decide +kernel))

/-- An image in slot B that passes the boot ROM wherever its key and signature pass. -/
def aSlot : FwSlot := { bytes := [(0, 0x59), (1, 0x4C), (2, 0x46), (3, 0x57), (12, 0x43), (13, 0x1C)] }
theorem test_slot (key : sha3 ((aSlot.image.drop 16).take 2592) = rootHash)
    (sig : mlVerify ((aSlot.image.drop 16).take 2592) aSlot.digest ((aSlot.image.drop 2608).take 4627) = true) :
    aSlot.check 0 = 0 ∧ ({ slotA := aSlot } : Lantern).bootSlot = some false := by
  have h : aSlot.check 0 = 0 := by
    have a : aSlot.num 0 4 = 0x57464C59 := by decide +kernel
    have b : aSlot.num 12 4 = 7235 := by decide +kernel
    simp [FwSlot.check, a, b, key, sig]
  exact ⟨h, by simp [Lantern.bootSlot, h]⟩

theorem test_hyps_firmware :
    serves (lit {}) .i3c 0x8010 0 ∧ serves (lit {}) .i3c 0x8011 1 ∧ serves (lit {}) .i3c 0x8020 1 ∧ ({} : Lantern).spareSlot.check 0 = 1 ∧
    7387584 + 1000448 + 16 ≤ 8388608 ∧ (lit {}).lantern.logStopped = false ∧ controlled (lit {}) .i3c ∧ controlled (lit {}) .pcieH0 ∧
    (lit {}).bring.at_ ≠ .off ∧ (lit {}).bring.at_ ≠ .recovery ∧ (0xFE : Byte) ≠ 0 ∧ (0xFE : Byte) ≠ 0xFF := by
  refine ⟨?_, ?_, ?_, ?_, ?_, ?_, ?_, ?_, ?_, ?_, ?_, ?_⟩ <;>
    first | decide +kernel | (exact test_serves _ _ _ _ (by decide +kernel) (by decide +kernel)) | (unfold controlled; decide +kernel) | simp [FwSlot.check, FwSlot.num, Lantern.spareSlot, natOfBytes, Mem.rd, Mem.find]

/-! ### Further hypotheses: residues, root delays, ports and hosts -/

/-- A sum of a reduction whose residue does not agree, and its result. -/
def spoiltSum : NodeSum := { due := 100, issued := 92, key := none, lane := 0, sum := 5, res := residueOf 6 }
def spoiltCell : Cell := { cl with
  sc := { cl.sc with res := [⟨100, 92, 2, .f 3, 0x40A00000⟩] }, vec := { cl.vec with nodes := [spoiltSum] } }
theorem test_hyps_residues :
    landingCell.vec.nodes = [] ∧ spoiltSum.due = 100 ∧ spoiltSum.res ≠ residueOf spoiltSum.sum ∧ spoiltSum ∈ spoiltCell.vec.nodes ∧
    Moving (st cx spoiltCell) r0 spoiltCell ∧ (∀ k ∈ (land 6 300).checks, k.bad (land 6 300).data = false) ∧
    (∃ k ∈ [({ lane := 0, pos := 0, width := 64, signed := true, res := 2 } : ResCheck)], k.bad (land 6 300).data = true) :=
  ⟨rfl, rfl, by decide +kernel, by decide, test_moves _ _ (by decide +kernel) (by decide +kernel), by decide, by decide +kernel⟩

theorem test_hyps_movers :
    (15 : Nat) ∉ (streamed rowDesc [(15, aStream rowDesc)] false).strm.started ∧ waitingPacks (streamCell readyStream) false = [] ∧
    inSection cx (streamCell persistStream) = false ∧ bankTaken (mopped true 7 101) 7 639 = false ∧
    ((st reading cl).ctx 0).hreads.map (fun h => (h.present, decide (h.len ≤ 40960))) = [(false, true)] ∧ executing reading = true ∧
    Mem.rd [] ((st cx cl).region 31).looseAt 7 = [] ∧ bankTaken (streamCell indexStream) 5 639 = false := by decide +kernel

/-- A request whose delay to the root has passed. -/
theorem test_hyps_root (r : HoldReq) (k : KillReq) :
    [r].find? (holdDue (r.since + Config.rootDelay (2 ^ causeBit r.cause) r.src)) = some r ∧ ([] : List HoldReq).find? (holdDue 0) = none ∧
    [k].find? (killDue (k.since + Config.rootDelay (256 + k.err.code) k.err.unit)) = some k ∧ ([] : List KillReq).find? (killDue 0) = none := by
  simp [holdDue, killDue]

def clocked (l : List ClockChange) : State := { st cx cl with clock := { (st cx cl).clock with pendingF := l } }
theorem test_hyps_held_contexts :
    holdable (holding (frozen .power 0)) = true ∧ (holding (frozen .overrun 0)).state = .running ∧ (holding (frozen .overrun 0)).kills = [] ∧
    (clocked [⟨1000000000, 900000, 2400⟩]).clock.pendingF = [⟨1000000000, 900000, 2400⟩] ∧ 1000000000 ≤ (clocked []).clock.dome ∧
    ({ pending := true, cycle := 0, lastRelease := some 999968 } : Hold).opened = [] ∧ 999968 + 32 ≤ (clocked []).clock.clk ∧
    (frozen .thermal 0).opened.any (fun e => moduleWide e.1) = true ∧ (frozen .overrun 0).opened.any (fun e => moduleWide e.1) = false ∧
    (ctxWith (killed true)).unrecoverable = false := by decide +kernel

/-- A flit of 280 bytes with its CRC: IDLE, and BAR_ARRIVE of tag 5; the second with a wrong CRC. -/
def wireOf (f : Flit) : Wire := .flit (flitBits f)
theorem test_hyps_wires :
    (wireBits (wireOf (flit 0 0 0 0))).extractLsb' 2208 32 = flitCrc (wireBits (wireOf (flit 0 0 0 0))) ∧
    flitOf (wireBits (wireOf (flit 0 0 0 0))) = flit 0 0 0 0 ∧ flitOf (wireBits (wireOf (flit 2 2 0 0))) = flit 2 2 0 0 ∧
    (wireBits (wireOf (flit 2 2 0 0))).extractLsb' 2208 32 = flitCrc (wireBits (wireOf (flit 2 2 0 0))) ∧
    (wireBits (.flit (flitBits (flit 2 2 0 0) ^^^ 1))).extractLsb' 2208 32 ≠ flitCrc (wireBits (.flit (flitBits (flit 2 2 0 0) ^^^ 1))) := by
  refine ⟨?_, ?_, ?_, ?_, ?_⟩ <;> decide +kernel

theorem test_hyps_link_states :
    (3 : BitVec 2).getLsbD 1 = true ∧ 240000 ≤ 240000 ∧ ({ state := .align, mode := 2 } : Port).kept = false ∧
    ({ state := .align, mode := 2 } : Port).retraining = none ∧ (∃ e ∈ ({ resends := [(4095, 16)] } : Port).resends, 16 ≤ e.2) ∧
    (∀ e ∈ ({ resends := [(4095, 15)] } : Port).resends, e.2 < 16) ∧ ({} : Port).reached.1 ≠ (linked 2 {}).clock.clk ∧
    (sent 4095).mtype ≠ 0x10 ∧ (linked 2 {}).unrecoverable = false := by decide +kernel

/-- A TIME_SYNC request that waits at port 15, and one that has come. -/
def syncing : Port := { state := .active, ctrl := [flit 1 0x10 0 0], rx := [flit 1 0x10 1 100], stamps := [64000000007] }
def lockedPort : Port := { state := .active, partnerLocked := true }
def chosen : State := { linked 15 lockedPort with lantern := { address := 0 } }
theorem test_hyps_time_input :
    ((linked 15 syncing).port 15).ctrl = [flit 1 0x10 0 0] ∧ (flit 1 0x10 0 0).mtype = 0x10 ∧ fld (flit 1 0x10 0 0).arg 1 0 = 0 ∧
    ((linked 15 syncing).port 15).rx = [flit 1 0x10 1 100] ∧ ((linked 15 syncing).port 15).stamps = [64000000007] ∧ 64000000007 < 2 ^ 64 ∧
    fld (flit 1 0x10 1 100).arg 1 0 = 1 ∧ (timed { exchange := some (15, 100) }).clock.exchange = some (15, fld (100 : BitVec 2048) 63 0) ∧
    mayMaster chosen 0 0 ∧ (∀ k, k < 8 → ¬ mayMaster chosen 15 k) ∧ chosen.ownAddress % 8 = 0 ∧ chosen.chooseInput none = (2, some 15) ∧
    (timed {}).clock.pendingF = [] ∧ (timed {}).clock.proposals = [] := by
  refine ⟨?_, ?_, ?_, ?_, ?_, ?_, ?_, ?_, ?_, ?_, ?_, ?_, ?_, ?_⟩ <;> first | decide +kernel | (unfold mayMaster; decide +kernel)

theorem test_hyps_results_in_order :
    loosePaused ((moving [] cl).ctx 0) = false ∧ loosePaused (holding (frozen .power 0)) = true ∧
    (([aSend none, { aSend none with seq := 1 }].find? (fun q => decide (q.target = (aSend none).target) && q.result.isNone)).map (·.seq)) = some 0 ∧
    ([aSend none, { aSend none with seq := 1 }].find? (fun q => decide (q.seq = 1))) = some { aSend none with seq := 1 } := by decide +kernel

theorem test_hyps_functions :
    heldBack (theFn []) 1 ∧ heldBack { theFn [] with msixPend := 3 } 1 ∧ ({ theFn [] with cfg := { msixOn := true } }).cfg.msixFnMask = false ∧
    ({ theFn [] with unsignalled := 3 }).unsignalled = Max.max 1 (fld (0x00000301 : DWord) 15 8) ∧ (0x00000301 : DWord).getLsbD 0 = true ∧
    (theFn []).msixPend = 0 ∧ fld (15 : DWord) 15 0 ≤ 15 ∧ cregDefined ((0x1000 : BitVec 14).toNat / 8) = true ∧
    cregDefined ((0x1008 : BitVec 14).toNat / 8) = false ∧ ((served cx {}).region 0).owner = some 0 ∧
    ((served { cx with regions := [31] } {}).region 31).owner ≠ some 0 := by
  refine ⟨?_, ?_, ?_, ?_, ?_, ?_, ?_, ?_, ?_, ?_, ?_⟩ <;> first | decide +kernel | (unfold heldBack; decide +kernel)

/-- The lantern over port 15, and a load that hears of a fence. -/
theorem test_hyps_paths :
    (ReqPath.i3c ≠ .port15) ∧ serves { linked 15 { state := .active } with lantern := {} } .port15 0x7020 4 ∧
    ((served loadingCtx {}).region 31).owner = none ∧ ((served loadingCtx {}).ctx 0).state = .loading := by
  refine ⟨?_, ?_, ?_, ?_⟩ <;> first | decide +kernel | (exact test_serves _ _ _ _ (by decide +kernel) (by decide +kernel))

/-! ### Scalar part, further -/
def fullLoops : Cell := { cl with ctl := { cl.ctl with pc := 0x040, loops := List.replicate 4 ⟨0x030, 0x05F, 2⟩ } }
theorem test_hyps_loop_full : Issuing (st cx fullLoops) r0 .S fullLoops ∧ legal (.loop r0 0 false false 3 0x05F) = true ∧
    4 ≤ fullLoops.ctl.loops.length ∧ fullLoops.ctl.pc.toNat < (0x05F : BitVec 11).toNat :=
  ⟨test_issues _ _ _ (by decide +kernel), by decide, by decide, by decide⟩

theorem test_hyps_f_results :
    (∃ r ∈ landingCell.sc.res, r.due ≤ landingCell.now ∧ r.dst = .f 3 ∧ r.rank ≤ 5 ∧
      ∀ q ∈ landingCell.sc.res, ∀ d : BitVec 5, q.due ≤ landingCell.now → q.dst = .f d → d.toNat % 16 = 3 → q ≠ r →
        q.issued < r.issued) ∧
    (∀ r ∈ landingCell.sc.res, ∀ d : BitVec 5, r.due ≤ landingCell.now → r.dst = .f d → d.toNat % 16 ≠ 15) := by
  refine ⟨⟨⟨100, 97, 0, .f 3, 6⟩, by decide, by decide, rfl, by decide, ?_⟩, ?_⟩
  · intro q h d a b _ n
    simp only [landingCell, List.mem_cons, List.not_mem_nil, or_false] at h
    rcases h with rfl | rfl | rfl | rfl <;> simp_all [landingCell, cl]
  · intro r h d a b
    simp only [landingCell, List.mem_cons, List.not_mem_nil, or_false] at h
    rcases h with rfl | rfl | rfl | rfl <;> simp_all [landingCell, cl]
    subst b; decide

/-! ### Tensor row, chains and buckets -/
def halfDesc : PassDesc := { cnt := (Vector.replicate 6 1).set 0 2, ostr := (Vector.replicate 6 0).set 0 4, wstr := (Vector.replicate 6 0).set 0 4 }
def halfPass (done : Nat) (half : Option (List Contrib)) : Pass :=
  { desc := halfDesc, mode := 0, ofmt := 5, wfmt := 5, transp := false, anchor := 0, start := 100 - done, done := done, total := 2, half := half }
def halfCell (p : Pass) : Cell := { cl with tens := { cl.tens with pass := some p } }
/-- The two halves of an MX block of 32 elements, and 32 lanes of the first. -/
theorem test_hyps_half_blocks : classOf 5 = .mx ∧ firstHalf (halfPass 0 none) 0 = true ∧ firstHalf (halfPass 1 none) 1 = false ∧
    Moving (st cx (halfCell (halfPass 0 none))) r0 (halfCell (halfPass 0 none)) ∧
    Moving (st cx (halfCell (halfPass 1 (some (List.replicate 32 {}))))) r0 (halfCell (halfPass 1 (some (List.replicate 32 {})))) ∧
    (halfPass 1 none).start + 1 = 100 ∧ (List.replicate 32 ({} : Contrib)).length = 32 :=
  ⟨by decide, by decide +kernel, by decide +kernel, test_moves _ _ (by decide +kernel) (by decide +kernel),
    test_moves _ _ (by decide +kernel) (by decide +kernel), by decide, by decide⟩

/-- Stages of op 0x07 (ABS), a compare to mask 1, and MXQ. -/
def absChain : ChainDesc := { ctl := 1, stg := Vector.replicate 8 0x1C000000 }
theorem test_hyps_stages_of_chains : stageLegal 0x1C000000 = true ∧ stageLegal 0x2E000080 = true ∧ stageLegal 0x80000028 = true ∧
    chainLegal absChain = true ∧ (chainStages absChain)[0]? = some 0x1C000000 ∧ stageStart false absChain 0 = 1 ∧
    1 < chainLat false absChain ∧ 2 + 1 = chainLat false absChain := by
  refine ⟨?_, ?_, ?_, ?_, ?_, ?_, ?_, ?_⟩ <;> first | decide +kernel | (unfold stageStart; decide +kernel)

theorem test_hyps_bucket_changes : (cl.vec.bkts[7]).state = 0 ∧ ((bucketed 2 true).vec.bkts[7]).state ≠ 0 ∧
    (BitVec.ofNat 32 (18 * 1024 + 32768)).getLsbD 15 = true ∧ (BitVec.ofNat 32 (18 * 1024)).getLsbD 15 = false ∧
    shareOver 0 0x40000000 true ∧ ¬ shareOver 1 0x40000000 true ∧ ¬ shareOver 0 0x40000000 false := by
  refine ⟨?_, ?_, ?_, ?_, ?_, ?_, ?_⟩
  all_goals first | decide +kernel | skip
  · exact ⟨rfl, by decide +kernel, by norm_num [fpRat, show fpv 0x40000000 = .fin false 8388608 (-22) by decide +kernel]⟩
  · rintro ⟨_, _, h⟩; revert h; norm_num [fpRat, show fpv 0x40000000 = .fin false 8388608 (-22) by decide +kernel]
  · rintro ⟨h, _⟩; exact absurd h (by decide)

/-! ### Streams that start otherwise, and their ends -/
def emptyDesc : Desc := { rowDesc with cnt01 := 0x00010000 }
def hbmDesc : Desc := { rowDesc with ctl := 0x31800000 }
def peerDesc : Desc := { rowDesc with ctl := 0x29800000, dpeer := 0x0000017F }
def fromHbm : Desc := { rowDesc with ctl := 0x85800000 }
theorem test_hyps_starts_otherwise :
    mayStart (streamed emptyDesc [] false) emptyDesc ∧ shapeOk cx 0 emptyDesc = true ∧ dBeats emptyDesc = 0 ∧ dLoose emptyDesc = false ∧
    dDkind emptyDesc ≠ 5 ∧ Issuing (st cx (streamed emptyDesc [] false)) r0 (mSlot true) (streamed emptyDesc [] false) ∧
    mayStart (streamed remoteDesc [] false) remoteDesc ∧ shapeOk cx 0 remoteDesc = false ∧
    Issuing (st cx (streamed remoteDesc [] false)) r0 (mSlot true) (streamed remoteDesc [] false) ∧
    ({ shadow := some (0, 0) } : DescState).shadow ≠ none :=
  ⟨by unfold mayStart; decide, by decide +kernel, by decide, by decide, by decide, test_issues _ _ _ (by decide +kernel),
    by unfold mayStart; decide, by decide +kernel, test_issues _ _ _ (by decide +kernel), by decide⟩

/-- A row at the end of a region's HBM, and one at the end of the scratchpad. -/
def pairDesc (d : Desc) (r : ReadyRow) : Stream := { aStream d with ready := [r], nextBeat := 1, groups := [{ run := 0, g := 0, left := 1, lastPlanned := 320 }] }
def hbmRow : ReadyRow := { lastRow with dst := 15999991296 }
def indexedStream (w : Nat) : Stream := { pairDesc { rowDesc with ctl := 0x25880000, aux := 0x0001027F } { lastRow with src := 0 } with
  idx := [⟨0, 0, 0, BitVec.ofNat 4096 w⟩] }
theorem test_hyps_endpoints :
    ((readyRows cx (streamCell (pairDesc hbmDesc hbmRow)) false).head? = some (15, hbmRow, 0) ∧
      (hbmRow.dst % 2 ^ 39).toNat % 2 ^ 34 + dSize hbmDesc ≤ 15999991808 ∧ dDkind hbmDesc = 4) ∧
    ((readyRows cx (streamCell (pairDesc peerDesc lastRow)) false).head? = some (15, lastRow, 0) ∧ dDkind peerDesc = 2) ∧
    ((readyRows cx (streamCell (pairDesc fromHbm { hbmRow with src := 15999991296, dst := 327168 })) false).head? =
      some (15, { hbmRow with src := 15999991296, dst := 327168 }, 0) ∧ dSkind fromHbm = 4 ∧ dDkind fromHbm = 1) ∧
    ((readyRows routed (streamCell (pairDesc remoteDesc lastRow)) false).head? = some (15, lastRow, 0) ∧ dDkind remoteDesc = 5) ∧
    ((readyRows cx (streamCell (indexedStream 639)) false).head? = some (15, { lastRow with src := 0 }, 639) ∧
      dIdx (indexedStream 639).desc = 1 ∧ (639 : Word) ≠ 0xFFFFFFFF ∧ 0 + ((639 * 512 : Nat) : Int) + 512 ≤ 327680) := by
  refine ⟨⟨?_, ?_, ?_⟩, ⟨?_, ?_⟩, ⟨?_, ?_, ?_⟩, ⟨?_, ?_⟩, ⟨?_, ?_, ?_, ?_⟩⟩ <;> decide +kernel

/-! ### Tags, debts, barriers and holds -/

/-- A function whose 1,024 tags are all taken, on a link without Flit Mode. -/
def noTags : State := { hostSt cl with hostReads := (List.range 1024).map (fun t => ⟨0, t, 0, 0, 0, t⟩) }
theorem test_hyps_tags : (hostSt cl).freeTag 0 = some 0 ∧ noTags.freeTag 0 = none := by
  refine ⟨by decide +kernel, ?_⟩
  have flit : (noTags.hostLink 0).2.2 ≠ 1 := by decide +kernel
  simp only [State.freeTag, if_neg flit, List.find?_eq_none, noTags]
  intro t h
  have k : t < 1024 := List.mem_range.1 h
  simpa using k

theorem test_hyps_debt : ({ st cx cl with clock := { on := true, khz := 400000 } } : State).clock.khz < 800000 ∧
    ((st cx cl).region 0).owner = some 0 ∧ holdable ((st cx cl).ctx 0) = true ∧
    fld ((st cx cl).region 0).chmap (3 * 7 + 2) (3 * 7) = 7 ∧ (∀ j < 7, fld ((st cx cl).region 0).chmap (3 * j + 2) (3 * j) ≠ 7) ∧
    (HoldCause.refresh, 7) ∈ ({ opened := [(.refresh, 7)] } : Hold).opened := by decide +kernel

/-- An instance that cell 0 has reached twice before the release of the generation in progress. -/
def aheadInst : BarInst := { barInst 1 0 false none 300 with cur := [(0, 63)], due := [(400, [(0, 63)], false)] }
theorem test_hyps_ahead : 2 ≤ aheadInst.due.countP (fun e => e.2.1.any (fun p => decide (p.1 = 0))) +
      (if aheadInst.cur.any (fun e => decide (e.1 = 0)) then 1 else 0) + (if aheadInst.nxt.any (fun e => decide (e.1 = 0)) then 1 else 0) ∧
    aheadInst.unit = scopeUnit (barScope 0x10000003) 0 ∧ aheadInst.scope = barScope 0x10000003 := by decide

theorem test_hyps_waited :
    (waitedFor (st (holding (frozen .hbmLate 0)) cl) 0 late (.hbmLate, 0)).isSome = true ∧
    (waitedFor (st expecting cl) 0 expecting (.linkLate, 2)).isSome = true ∧
    waitedFor (st cx cl) 0 cx (.linkLate, 2) = none ∧
    1000 * 1000000 ≤ (frozen .hbmLate 1000000000).limit ∧ (frozen .hbmLate 0).limit < 1000 * 1000000 := by decide +kernel

theorem test_hyps_offsets :
    pastOffset (ctxWith cx) { cx with launch := 999999679 } ∧ ¬ pastOffset (ctxWith cx) { cx with launch := 999999680 } := by
  refine ⟨.inl (by decide), fun h => ?_⟩
  rcases h with h | h
  · exact absurd h (by decide)
  · exact h.2 (by decide +kernel)

/-! ### Ports and flits -/

/-- A port that has been compared with its expected partner, and one that goes on from a RETRAIN. -/
theorem test_hyps_compared : wrongPartner swapped (swapped.port 5) 5 ∧ ({ compared := true } : Port).compared = true ∧
    ({ state := .retrain, mode := 2, kept := true, retraining := some (2, 990000000) } : Port).retraining = some (2, 990000000) ∧
    990000000 + 1000000 * (linked 6 {}).lantern.od.retrainMs ≤ 1000000000 ∧
    999000000 < 990000000 + 1000000 * (linked 6 {}).lantern.od.retrainMs := by
  refine ⟨?_, ?_, ?_, ?_, ?_⟩ <;> first | decide +kernel | (unfold wrongPartner; decide +kernel)

/-- 290 symbols wait of the 514 of a codeword; a vacant slot carries an arrival. -/
def fullPort : Port := { state := .active, mode := 2, lanes := 3, fecIn := List.replicate 290 0 }
def vacated : Ctx := { tagged cx with routes := routed.routes, slots := [(64, ⟨1, 1, 0⟩)], vacs := [⟨1, 0, 320, 0x37F, 63, 512⟩] }
theorem test_hyps_codes :
    514 ≤ (fullPort.fecIn ++ flitSymbols (flitBits (flit 0 0 0 0))).length ∧
    (({} : Port).fecIn ++ flitSymbols (flitBits (flit 0 0 0 0))).length < 514 ∧
    running (linked 2 {}) vacated = true ∧ vacated.cc % 10 = 0 ∧ vacated.linkRows = [] ∧
    (Mem.rd ({} : SlotEntry) vacated.slots (32 * 2 + vacated.cc % 320 / 10)).route = 1 ∧ noStopNow (linked 2 {}) ⟨0, 0⟩ := by
  refine ⟨?_, ?_, ?_, ?_, ?_, ?_, fun cell h => ?_⟩
  any_goals decide +kernel
  have : cell = cl := by simpa [State.cell?, linked, st, cellKey, Mem.find, Eq.comm] using h
  subst this
  simp [cl]

theorem test_hyps_whole :
    WholeMsg (porting { cx with state := .running } { rx := [flit 3 0x05 0x1000 0], parts := [flit 3 0x05 0 0] }) 7 (flit 3 0x05 0x1000 0) [] 0x05 0
      [flit 3 0x05 0 0] ∧ rowsAre [flit 3 0x05 0 0, flit 3 0x05 0x1000 0] [0] ∧ lastOf (flit 3 0x04 0 0) [] ∧
    lastOf (flit 3 0x05 0x1000 0) [flit 3 0x05 0 0] ∧ lastOf (flit 3 0x03 0x80 0) [flit 3 0x03 0 0] := by
  refine ⟨⟨test_head _ _ { parts := [flit 3 0x05 0 0] } rfl (by decide +kernel) rfl, by decide +kernel, by decide, ?_, by decide, by decide⟩, ⟨by decide, ?_⟩, ?_, ?_, ?_⟩
  · intro g h; left; revert g; decide
  · intro i a b h1 h2
    rcases i with _ | i
    · simp at h1 h2; rw [← h1, ← h2]; decide +kernel
    · rw [List.getElem?_eq_none (by simp)] at h1; exact absurd h1 (by simp)
  all_goals unfold lastOf; decide

/-- A flit with one hop to travel over route 1, a loose and a scheduled one. -/
def farFlit (cls : BitVec 2) (mtype : BitVec 6) : Flit := { flit cls mtype 0 0 with hop := 1 }
def through (f : Flit) : State :=
  let s := porting cx { rx := [f] }
  { s with ctxs := [(0, { tagged cx with routes := [(1, ⟨1, [2], 9, 700, 3⟩)] })] }
theorem test_passing (f : Flit) (k : f.mtype ≠ 0x02 ∧ f.mtype ≠ 0x03) (h : f.hop ≠ 0) (c : f.ctx = 5) :
    Passing (through f) 7 f [] 0 :=
  ⟨rfl, by simp [c, State.tagged, through, tagged, cx], h, rfl, .inr (.inr (.inl rfl)), fun e => absurd e (by rintro (h | h); exacts [k.1 h, k.2 h])⟩
theorem test_hyps_forwarding :
    Passing (through (farFlit 3 0x04)) 7 (farFlit 3 0x04) [] 0 ∧ goesOut (through (farFlit 3 0x04)) 0 (farFlit 3 0x04) 2 ∧
    Passing (through (farFlit 2 0x01)) 7 (farFlit 2 0x01) [] 0 ∧ goesOut (through (farFlit 2 0x01)) 0 (farFlit 2 0x01) 2 ∧
    (∀ out, ¬ goesOut (porting cx {}) 0 (farFlit 3 0x04) out) ∧ (through (farFlit 1 0x11)).tagged 5 = some 0 ∧
    goesOut (through (farFlit 1 0x11)) 0 (farFlit 1 0x11) 2 ∧ ((through (farFlit 2 0x01)).port 2).reached.1 ≠ (through (farFlit 2 0x01)).clock.clk := by
  refine ⟨test_passing _ (by decide) (by decide) rfl, ⟨_, rfl, rfl, rfl⟩, test_passing _ (by decide) (by decide) rfl, ⟨_, rfl, rfl, rfl⟩, ?_, rfl, ⟨_, rfl, rfl, rfl⟩, by decide +kernel⟩
  rintro out ⟨r, h, -⟩
  simp [porting, tagged, st, State.ctx, Mem.rd, Mem.find, cx] at h

/-- A QRESULT for the sum of queue 63 of region 0, whose generation was 1,023 before it. -/
theorem test_hyps_sum_results :
    (combQueue (st (combined 0 true 1) cl) 0 0 63).pending = true ∧ (combQueue (st (combined 0 false 1) cl) 0 0 63).pending = false ∧
    fld (packFields 64 [(63, 48, 64 * ((1023 + 1023) % 1024) + 63)]) 63 48 = 64 * (((combQueue (st (combined 0 true 1) cl) 0 0 63).gen + 1023) % 1024) + 63 ∧
    (moving [.result (.comb 0 0 63) 1] cl).transit[0]? = some (.result (.comb 0 0 63) 1) ∧ loosePaused ((moving [] cl).ctx 0) = false := by
  decide +kernel

/-- A packet of 4 bytes for endpoint 0, the first of a message that goes on, and one of another version. -/
def packetFlit (b : List Byte) : Flit := { flit 3 0x18 0 (BitVec.ofNat 2048 (b.length + 65536 * natOfBytes b)) with ctx := 0xFFFF }
theorem test_hyps_packets : packetOf (packetFlit [1, 0, 9, 0x80]) [1, 0, 9, 0x80] ∧ packetOf (packetFlit [2, 0, 9, 0x80]) [2, 0, 9, 0x80] ∧
    ([1, 0, 9, 0x80] : List Byte).getD 3 0 = 0x80 ∧ (0x80 : Byte).getLsbD 7 = true ∧ (0x80 : Byte).getLsbD 6 = false ∧
    (linked 15 { state := .active }).pathOpen .port15 = true := by
  refine ⟨⟨by decide +kernel, ?_⟩, ⟨by decide +kernel, ?_⟩, by decide, by decide, by decide, by decide +kernel⟩ <;>
    · intro i h
      have : i < 4 := h
      interval_cases i <;> decide +kernel

/-- A READ of OD 0x1000.03 in one packet. -/
def readBytes : List Byte := [1, 7, 0x00, 0x10, 3, 0, 0, 0, 0, 0, 1, 0]
def readPacket : List Byte := [1, 0, 9, 0xC8] ++ (messageHead ++ readBytes)
theorem test_hyps_messages : Spells { odReq 0x1000 3 1 with tag := 7 } readBytes ∧ readPacket.drop 4 = messageHead ++ readBytes ∧
    (readPacket.getD 0 0).toNat % 16 = 1 ∧ readPacket.getD 1 0 = 0 ∧ (readPacket.getD 3 0).getLsbD 7 = true ∧
    (readPacket.getD 3 0).getLsbD 6 = true ∧ readPacket.length ≤ 254 :=
  ⟨⟨rfl, rfl, by decide, rfl, rfl, by decide, by decide⟩, rfl, by decide +kernel, rfl, by decide +kernel, by decide +kernel, by decide +kernel⟩

/-! ### Time, supplies, stages -/

theorem test_hyps_inputs :
    followsInput (timed { refState := 1 }) ∧ followsInput { timed {} with bring := { at_ := .stage 10 } } ∧ ¬ followsInput (timed {}) ∧
    suppliesGood 50000 12600 ∧ ¬ suppliesGood 49999 12600 ∧ ¬ suppliesGood 58000 12601 ∧ spanPassed (timed {}) none 10000000 ∧
    ¬ spanPassed (timed {}) (some 0) 10000000 ∧ (timed {}).power.present = true := by
  refine ⟨.inl rfl, .inr (.inr ⟨rfl, by decide +kernel⟩), ?_, ?_, ?_, ?_, fun _ h => (nomatch h), fun h => ?_, rfl⟩
  · rintro (h | h | h)
    · exact absurd h (by decide)
    · exact absurd h (by decide)
    · exact absurd h.1 (by decide)
  any_goals (unfold suppliesGood; decide +kernel)
  exact absurd (h 0 rfl) (by decide)

/-- Regions that all are fenced, or none; ports with the partner that OD 0x4000.02 expects, or not; the copies of reset. -/
theorem test_hyps_checks :
    noneOffered { atStage 5 with regions := (List.range 32).map (fun p => (p, { fenced := true })) } ∧ ¬ noneOffered (atStage 5) ∧
    mismatchedAt swapped 5 ∧ (∀ p, p < 16 → ¬ mismatchedAt (atStage 9) p) ∧ firstCopies (atStage 0).lantern ∧
    (lit {}).lantern.bootSlot = none := by
  refine ⟨?_, fun h => ?_, ?_, ?_, ?_, by decide +kernel⟩
  · intro p h e
    have : ∀ p, p < 32 → ((({ atStage 5 with regions := (List.range 32).map (fun p => (p, { fenced := true })) }) : State).region p).fenced = true := by
      decide +kernel
    exact absurd (this p h) (by rw [e.1]; decide)
  · exact h 0 (by decide) ⟨by decide +kernel, by decide +kernel⟩
  · unfold mismatchedAt wrongPartner; decide +kernel
  · unfold mismatchedAt wrongPartner; decide +kernel
  · intro g h
    refine ⟨?_, .inr ?_⟩
    · revert g; decide +kernel
    · revert g; decide +kernel

/-! ### Functions, commands and loads -/

def malformedCmd : Cmd := theCmd 0x18 0 0 false
theorem test_hyps_malformed :
    malformed f1 malformedCmd ∧ ¬ onHandleOp malformedCmd ∧ malformed f1 (theCmd 0x12 2 (2 ^ 128) false) ∧
    onHandleOp (theCmd 0x12 2 (2 ^ 128) false) ∧ ¬ malformed f1 (theCmd 0 0xFF 0 false) ∧ ¬ malformed f1 (theCmd 0x12 8 0 false) ∧
    7 < cmdHandle (theCmd 0x12 8 0 false) ∧ stateOf (served cx (theFn [])) f1 2 ∉ legalStates 0x12 ∧
    stateOf (served { cx with state := .loaded } (theFn [])) f1 2 ∈ legalStates (cmdOp (theCmd 0x12 2 0 false)) := by
  refine ⟨.inl (by decide +kernel), ?_, .inr (.inl ⟨24, by decide, by decide, by decide +kernel, ?_⟩), ?_, ?_, ?_, ?_, ?_, ?_⟩
  · unfold onHandleOp; decide +kernel
  · have : cmdOp (theCmd 0x12 2 (2 ^ 128) false) = 0x12 := by decide +kernel
    rw [this]; decide
  · unfold onHandleOp; decide +kernel
  · rintro (h | ⟨k, a, b, h, -⟩ | h | h | h | h | h | h)
    · exact absurd h (by decide +kernel)
    · exact h ((by decide +kernel : ∀ k, k < 64 → 4 ≤ k → cmdPar (theCmd 0 0xFF 0 false) k k = 0) k b a)
    all_goals exact absurd h (by decide +kernel)
  · rintro (h | ⟨k, a, b, h, -⟩ | h | h | h | h | h | h)
    · exact absurd h (by decide +kernel)
    · exact h ((by decide +kernel : ∀ k, k < 64 → 4 ≤ k → cmdPar (theCmd 0x12 8 0 false) k k = 0) k b a)
    all_goals exact absurd h (by decide +kernel)
  all_goals decide +kernel

theorem test_hyps_windows :
    ({ theFn [] with cfg := { vfWas := true } } : Fn).cfg.vfWas = true ∧ (theFn []).cfg.vfWas = false ∧ (pfOf 1).fn = 0 ∧
    Mem.find (theFn []).handles (2 : Fin 8).val = some 0 ∧ ((served { cx with state := .loaded } (theFn [])).ctx 0).state = .loaded ∧
    (31 : BitVec 5).toNat < ({ cx with regions := List.range 32 } : Ctx).regions.length ∧ fld (0 : DWord) 63 48 = 0 ∧
    combExpect (combQueue (served cx (theFn [])) 0 0 62).cfg = 0 ∧ ({ st cx cl with unrecoverable := true } : State).unrecoverable = true := by
  decide +kernel

/-- The image has come and waited; a dump is under way; a request with another operation; a lantern in its restart. -/
theorem test_hyps_waits_over :
    placing { loadingState with ctxs := [(0, { loadingCtx with passedTag := true, got := some anImage })] } 0 none anImage ∧
    (served { cx with dumps := [1] } (theFn [])).cmdsOn 0 0x15 = [] ∧ ({ odReq 0x1000 3 1 with op := 4 } : OdReq).op ≠ 3 ∧
    answersBusy (lit { restarting := true }) 0x1000 3 ∧ answersBusy { lit {} with bring := { at_ := .fatal } } 0x2000 1 ∧
    ¬ answersBusy { lit {} with bring := { at_ := .fatal } } 0x7010 1 ∧ inRecovery (lit { recovery := true }) ∧ ¬ inRecovery (lit {}) := by
  refine ⟨.inl ⟨rfl, test_image_format.1, .inl (by decide +kernel)⟩, by decide +kernel, by decide, .inl ⟨rfl, rfl⟩, ?_, ?_, .inr rfl, ?_⟩
  · unfold answersBusy servedDown; decide +kernel
  · unfold answersBusy servedDown; decide +kernel
  · unfold inRecovery; decide +kernel

/-- A request comes with the operation of its command. -/
theorem test_legal_refuses_requests : [.odRead .i3c { odReq 0x1000 3 1 with op := 2 }, .odRead .i3c { odReq 0x1000 3 1 with op := 3 },
    .odWrite .i3c (odReq 0x1000 3 1) [] false, .odInfo .i3c (odReq 0x1000 3 1)].all (fun i => !legal i) = true := by decide

end Sys2Proof.Tests
end

section
/-!
SUPPORT. Cell, course and scalar processor: every instruction of a slot goes through `issueSlot`.
-/
namespace Sys2Proof.Machine

/-- The one way in which slot instructions have their effect: all of them are issues of their slot in their cell. -/
theorem exec_eq_issueSlot {i : Instr} {sl : Slot} {c : CellRef} (hs : Sys2Proof.slotOf i = some sl) (hc : cellOf i = some c) :
    ∃ body : State → Ctx → Cell → SlotAct, ∀ s, exec i s = .next (issueSlot s c sl i (body s)) := by
  cases i <;> cases hs <;> cases hc <;> exact ⟨_, fun _ => rfl⟩

/-! ### What traffic leaves of regions and ports -/

/-- From `s` to `t` no region has changed its owner or its HBM contents, and no port anything but its loose queues. -/
structure OwnersAndLinksKept (s t : State) : Prop where
  regions : ∀ p, (t.region p).owner = (s.region p).owner ∧ (t.region p).hbm = (s.region p).hbm
  ports : ∀ p, { t.port p with loose := (s.port p).loose } = s.port p

theorem OwnersAndLinksKept.refl (s : State) : OwnersAndLinksKept s s := ⟨fun _ => ⟨rfl, rfl⟩, fun _ => rfl⟩

theorem OwnersAndLinksKept.setRegion {s t : State} (h : OwnersAndLinksKept s t) (p : Nat) {r : Region}
    (ho : r.owner = (t.region p).owner) (hm : r.hbm = (t.region p).hbm) : OwnersAndLinksKept s (t.setRegion p r) := by
  refine ⟨fun q => ?_, h.ports⟩
  by_cases hq : q = p
  · subst hq; simpa [ho, hm] using h.regions q
  · rw [State.region_setRegion_other _ _ hq]; exact h.regions q

theorem enqueueLoose_keeps_all_but_loose (q : Port) (tag : BitVec 16) (msg : List Flit) :
    { enqueueLoose q tag msg with loose := q.loose } = q := by
  unfold enqueueLoose; split <;> rfl

theorem OwnersAndLinksKept.sendLoose {s t : State} (h : OwnersAndLinksKept s t) (n route : Nat) (msg : List Flit) :
    OwnersAndLinksKept s (t.sendLoose n route msg) := by
  unfold State.sendLoose
  split
  next p _ =>
    refine ⟨h.regions, fun q => ?_⟩
    by_cases hq : q = p
    · subst hq
      rw [State.port_onPort]
      have := congrArg (fun x : Port => { x with loose := (s.port q).loose })
        (enqueueLoose_keeps_all_but_loose (t.port q) (t.ctx n).image.tag msg)
      exact this.trans (h.ports q)
    · rw [State.port_onPort_other _ _ hq]; exact h.ports q
  next => exact h

theorem OwnersAndLinksKept.tellCe {s t : State} (h : OwnersAndLinksKept s t) (p : PhysCell) :
    OwnersAndLinksKept s (t.tellCe p) := by
  unfold State.tellCe
  dsimp only
  split
  · have htold := h.setRegion p.region.val
      (r := { t.region p.region.val with ceTold := physKey p :: (t.region p.region.val).ceTold }) rfl rfl
    exact ⟨htold.regions, htold.ports⟩
  · exact h

theorem OwnersAndLinksKept.countCe {s t : State} (h : OwnersAndLinksKept s t) (p : PhysCell) (n : Nat) :
    OwnersAndLinksKept s (t.countCe p n) := by
  unfold State.countCe
  refine OwnersAndLinksKept.tellCe ?_ p
  exact h.setRegion _ rfl rfl

/-- What a cell sends reaches counters of regions and loose queues of ports, and nothing else of them. -/
theorem State.emit_keeps_owners_and_links (s : State) (n : Nat) (e : Emit) : OwnersAndLinksKept s (s.emit n e) := by
  unfold State.emit
  dsimp only
  refine foldl_keeps (OwnersAndLinksKept s) _ (fun _ m h => h.sendLoose n m.1 m.2) _ _ ?_
  refine foldl_keeps (OwnersAndLinksKept s) _ (fun _ _ h => h.countCe _ _) _ _ ?_
  exact ⟨fun _ => ⟨rfl, rfl⟩, fun _ => rfl⟩

/-! ### The frame of a slot -/

theorem issueSlot_keeps_owners_and_links (s : State) (c : CellRef) (sl : Slot) (i : Instr)
    (body : Ctx → Cell → SlotAct) : OwnersAndLinksKept s (issueSlot s c sl i body) := by
  rcases issueSlot_cases s c sl i body with h | ⟨cell, e, h⟩
  · rw [h]; exact .refl s
  · rw [h]
    have hemit := State.emit_keeps_owners_and_links (s.setCell c cell) c.ctx.val e
    exact ⟨hemit.regions, hemit.ports⟩

/-- Outside the cells and what traffic can change, issuing a slot leaves the whole state. -/
theorem issueSlot_frame (s : State) (c : CellRef) (sl : Slot) (i : Instr) (body : Ctx → Cell → SlotAct) :
    { (issueSlot s c sl i body).withTrafficOf s with cells := s.cells } = s := by
  rcases issueSlot_cases s c sl i body with h | ⟨cell, e, h⟩
  · rw [h]; rfl
  · rw [h]
    exact congrArg (fun t : State => { t with cells := s.cells }) (State.emit_frame (s.setCell c cell) c.ctx.val e)

/-- Settles O6: a slot instruction is an issue of its slot, and that reaches its cell and the traffic of its context. -/
theorem slotCommandsReachOneCellAndOneContext : Obligations.SlotCommandsReachOneCellAndOneContext := by
  unfold Obligations.SlotCommandsReachOneCellAndOneContext
  intro i sl c s t hslot hcell hexec
  obtain ⟨body, hbody⟩ := exec_eq_issueSlot hslot hcell
  obtain rfl : issueSlot s c sl i (body s) = t := by simpa [hbody] using hexec
  obtain ⟨hcells, hctxs, -⟩ := issueSlot_other s c sl i (body s)
  have hkept := issueSlot_keeps_owners_and_links s c sl i (body s)
  have hframe := issueSlot_frame s c sl i (body s)
  exact ⟨hcells, hctxs, fun f => (congrArg (State.fn · f) hframe :), (congrArg State.lantern hframe :),
    (congrArg State.clock hframe :), (congrArg State.power hframe :), (congrArg State.bring hframe :),
    (congrArg State.leases hframe :), (congrArg State.sessions hframe :), (congrArg State.out hframe :),
    (congrArg State.inService hframe :), (congrArg State.plcRegions hframe :), (congrArg State.plcMap hframe :),
    (congrArg State.plcInfo hframe :), (congrArg State.windows hframe :), (congrArg State.unrecoverable hframe :),
    hkept.regions, hkept.ports⟩

end Sys2Proof.Machine
end

section
/-!
SUPPORT. Cell, course and scalar processor: the divider (R64, R69).
-/
namespace Sys2Proof.Machine

/-- The cell with a divide issued: its result is in flight, the divider is busy for 18 cycles, and DIV0 notes the
divisor (R64, R69). -/
def withDivide (cell : Cell) (rd rb : BitVec 5) (v : Word) : Cell :=
  let r := withResult cell 18 (.s rd) v
  { r with sc := { r.sc with divFree := cell.now + 18, div0 := cell.sc.div0 || decide (sreg cell rb = 0) } }

section
variable {s : State} {c : CellRef} {cell : Cell} {i : Instr} {rd ra rb : BitVec 5} {f : Word → Word → Word}

/-- With the divider free a divide executes. -/
theorem issueDiv_free (h : Issuing s c .S cell) (hl : legal i = true) (hfree : cell.sc.divFree ≤ cell.now) :
    CellBecomes s (issueDiv s c i rd ra rb f) c
      (slotIssued (withDivide cell rd rb (f (sreg cell ra) (sreg cell rb))) .S) :=
  issueSlot_changes_cell h hl rfl (if_neg (Nat.not_lt.mpr hfree)) rfl rfl rfl rfl

/-- With the divider busy a divide is skipped with DIV_BUSY. -/
theorem issueDiv_busy (h : Issuing s c .S cell) (hl : legal i = true) (hbusy : cell.now < cell.sc.divFree) :
    CellBecomes s (issueDiv s c i rd ra rb f) c
      (markIssued (skipSlot (s.ctx c.ctx.val) cell .S ((encodeSlot i).getD 0) 7) .S) :=
  issueSlot_skips h hl rfl (if_pos hbusy)

/-- The four divides are legal with every operand, and have the results of R69 as the function that they divide by. -/
theorem exec_divide {v : Word} (hc : cellOf i = some c) (hd : divideResult cell i = some (rd, rb, v)) :
    legal i = true ∧ ∃ (ra : BitVec 5) (f : Word → Word → Word),
      (∀ s, exec i s = .next (issueDiv s c i rd ra rb f)) ∧ f (sreg cell ra) (sreg cell rb) = v := by
  cases i with
  | div d rd ra rb => cases hc; cases hd; exact ⟨rfl, ra, divS, fun _ => rfl, rfl⟩
  | divu d rd ra rb => cases hc; cases hd; exact ⟨rfl, ra, divU, fun _ => rfl, rfl⟩
  | rem d rd ra rb => cases hc; cases hd; exact ⟨rfl, ra, remS, fun _ => rfl, rfl⟩
  | remu d rd ra rb => cases hc; cases hd; exact ⟨rfl, ra, remU, fun _ => rfl, rfl⟩
  | _ => cases hd

end

/-- Settles O8, by the two ways in which a divide ends. -/
theorem dividesOccupyTheDividerAndSetDiv0 : Obligations.DividesOccupyTheDividerAndSetDiv0 := by
  unfold Obligations.DividesOccupyTheDividerAndSetDiv0
  refine ⟨fun i c s cell rd rb v hc h hd => ?_, by decide, by decide⟩
  obtain ⟨hl, ra, f, hexec, rfl⟩ := exec_divide hc hd
  exact ⟨fun hfree => ⟨_, hexec s, issueDiv_free h hl hfree⟩,
    fun hbusy => ⟨_, hexec s, _, issueDiv_busy h hl hbusy⟩⟩

end Sys2Proof.Machine
end

section
/-!
SUPPORT. Cell, course and scalar processor: control instructions in delay courses (R71), and the end of a course (R77).
-/
namespace Sys2Proof.Machine

/-! ### Control instructions in a delay course -/

/-- In a delay course every control instruction answers DELAY_CONTROL as its reason, and a LOOP with END above its address is
not illegal either. -/
theorem exec_control_in_delay {i : Instr} {c : CellRef} {cell : Cell} (hi : isControl i = true) (hc : cellOf i = some c)
    (he : endAbove cell i = true) (hd : cell.ctl.delay ≠ 0) :
    ∃ body : Ctx → Cell → SlotAct, (∀ s, exec i s = .next (issueSlot s c .S i body)) ∧
      ∀ x, (body x cell).illegal = false ∧ (body x cell).reason = some 5 := by
  have hreason : delayReason cell = some 5 := if_neg hd
  cases i with
  | beq | bne | blt | bge | bltu | bgeu | j | jal | jr | halt =>
    cases hc
    exact ⟨_, fun _ => rfl, fun _ => ⟨rfl, hreason⟩⟩
  | loop d ra reg dd count last =>
    cases hc
    have hlast : cell.ctl.pc.toNat < last.toNat := of_decide_eq_true he
    exact ⟨_, fun _ => rfl, fun _ => ⟨decide_eq_false (Nat.not_le.mpr hlast), by simp only [hreason]⟩⟩
  | _ => cases hi

theorem encodeSlot_of_isControl {i : Instr} (hi : isControl i = true) : ∃ w, encodeSlot i = some w := by
  cases i with
  | beq | bne | blt | bge | bltu | bgeu | j | jal | jr | halt | loop => exact ⟨_, rfl⟩
  | _ => cases hi

/-- Settles O16: the reason DELAY_CONTROL does not depend on the branch before. -/
theorem controlInDelayCourseIsSkipped : Obligations.ControlInDelayCourseIsSkipped := by
  unfold Obligations.ControlInDelayCourseIsSkipped
  intro i c s cell hi hc h hl he hd
  obtain ⟨body, hexec, hbody⟩ := exec_control_in_delay hi hc he hd
  obtain ⟨hlegal, hreason⟩ := hbody (s.ctx c.ctx.val)
  obtain ⟨w, hw⟩ := encodeSlot_of_isControl hi
  have hskip := issueSlot_skips (body := body) h hl hlegal hreason
  rw [hw] at hskip
  exact ⟨_, w, hexec s, hw, hskip⟩

/-! ### The end of a course -/

@[simp] theorem successor_nil (p : BitVec 11) : successor p [] = ([], p + 1) := rfl

theorem successor_inside {p : BitVec 11} {e : LoopEntry} (es : List LoopEntry) (h : p ≠ e.last) :
    successor p (e :: es) = (e :: es, p + 1) := by simp [successor, h]

theorem successor_repeats {e : LoopEntry} (es : List LoopEntry) (h : 1 < e.remaining) :
    successor e.last (e :: es) = ({ e with remaining := e.remaining - 1 } :: es, e.first) := by simp [successor, h]

theorem successor_pops {e : LoopEntry} (es : List LoopEntry) (h : e.remaining ≤ 1) :
    successor e.last (e :: es) = successor e.last es := by simp [successor, Nat.not_lt.mpr h]

/-- Popping the loops that do not contain a target drops the longest run of them from the top. -/
theorem popOutside_eq_dropWhile (t : BitVec 11) (l : List LoopEntry) :
    popOutside t l =
      l.dropWhile (fun e => !(decide (e.first.toNat ≤ t.toNat) && decide (t.toNat ≤ e.last.toNat))) := by
  induction l with
  | nil => rfl
  | cons e es ih =>
    by_cases h : e.first.toNat ≤ t.toNat ∧ t.toNat ≤ e.last.toNat
    · simp [popOutside, h]
    · rw [popOutside, if_neg h, ih, List.dropWhile_cons_of_pos (by simpa [imp_iff_not_or] using h)]

/-- Counting a course touches no part of the control state that says where it goes on. -/
theorem countCourse_goesOn (ctl : Control) :
    (countCourse ctl).pc = ctl.pc ∧ (countCourse ctl).loops = ctl.loops ∧ (countCourse ctl).delay = ctl.delay ∧
    (countCourse ctl).target = ctl.target := by
  unfold countCourse; split_ifs <;> exact ⟨rfl, rfl, rfl, rfl⟩

/-- A course that a cell executes goes on where `nextAddress` says. -/
theorem endCourse_goesOn (ctl : Control) :
    let after := endCourse { ctl with live := true }
    let next := nextAddress { ctl with live := true }
    after.pc = next.pc ∧ after.loops = next.loops ∧ after.delay = next.delay ∧ after.target = next.target :=
  countCourse_goesOn _

section
variable {ctl : Control} (he : ctl.empties = 0) (hz : ctl.zeroEnd = none)
include he hz

/-- Without a taken branch that has run its two delay courses, the sequential successor follows. -/
theorem nextAddress_sequential (h : ctl.delay ≠ 1 ∨ ctl.target = none) :
    (nextAddress ctl).pc = (successor ctl.pc ctl.loops).2 ∧ (nextAddress ctl).loops = (successor ctl.pc ctl.loops).1 := by
  by_cases hd : ctl.delay = 1
  · have ht : ctl.target = none := h.resolve_left (not_not_intro hd)
    simp [nextAddress, he, hz, hd, ht]
  · simp [nextAddress, he, hz, hd]

/-- After the second delay course of a taken branch its target follows. -/
theorem nextAddress_target {t : BitVec 11} (hd : ctl.delay = 1) (ht : ctl.target = some t) :
    nextAddress ctl = { ctl with
      pc := t, loops := popOutside t (successor ctl.pc ctl.loops).1, delay := 0, target := none } := by
  simp [nextAddress, he, hz, hd, ht]

end

/-- Settles O19: the clauses of `successor`, then the two ways in which `nextAddress` goes on. -/
theorem endOfALoopBodyGoesBackOrPops : Obligations.EndOfALoopBodyGoesBackOrPops := by
  unfold Obligations.EndOfALoopBodyGoesBackOrPops
  refine ⟨fun _ _ es h => successor_inside es h, fun _ es h => successor_repeats es h,
    fun _ es h => successor_pops es h, successor_nil, fun ctl he hz => ?_⟩
  obtain ⟨hpc, hloops, hdelay, htarget⟩ := endCourse_goesOn ctl
  refine ⟨fun h => ?_, fun t hd ht => ?_⟩
  · obtain ⟨hpc', hloops'⟩ := nextAddress_sequential (ctl := { ctl with live := true }) he hz h
    exact ⟨hpc.trans hpc', hloops.trans hloops'⟩
  · rw [nextAddress_target (ctl := { ctl with live := true }) he hz hd ht] at hpc hloops hdelay htarget
    exact ⟨hpc, hdelay, htarget, hloops.trans (popOutside_eq_dropWhile t _)⟩

end Sys2Proof.Machine
end

section
/-!
SUPPORT. Tensor row: the steps of a pass and their addresses (R108, R111, R112).
-/
namespace Sys2Proof.Machine

/-! ### Addresses of a step -/

@[simp] theorem loopIndices_length (cs : List Nat) (n : Nat) : (loopIndices cs n).length = cs.length := by
  induction cs generalizing n with
  | nil => rfl
  | cons c cs ih => simp [loopIndices, ih]

/-- Dividing by one count after the other is dividing by the product of the counts inside a level. -/
theorem loopIndices_getElem (cs : List Nat) (n l : Nat) (h : l < cs.length) :
    (loopIndices cs n)[l]'(by simpa using h) = n / (cs.take l).prod % cs[l] := by
  induction cs generalizing n l with
  | nil => cases h
  | cons c cs ih =>
    cases l with
    | zero => simp [loopIndices]
    | succ l => simpa [loopIndices, Nat.div_div_eq_div_mul] using ih (n / c) l (Nat.lt_of_succ_lt_succ h)

/-- The six products of index and stride, in the order of the levels. -/
theorem loopTerms_eq_map (d : PassDesc) (n : Nat) (strides : Vector Word 6) :
    List.zipWith (fun (i : Nat) (s : Word) => (i : Int) * s.toInt) (loopIndices (d.cnt.toList.map (·.toNat)) n)
      strides.toList = (List.finRange 6).map (fun l => (passIndex d n l : Int) * strides[l.val].toInt) := by
  refine List.ext_getElem (by simp) fun l _ hl => ?_
  have hl6 : l < 6 := by simpa using hl
  simp [loopIndices_getElem, passIndex, hl6]

theorem loopAddress_eq_passAddress (d : PassDesc) (n base m : Nat) (strides : Vector Word 6) :
    loopAddress base (loopIndices (d.cnt.toList.map (·.toNat)) n) strides.toList m =
      passAddress d n base strides m := by
  rw [loopAddress, passAddress, loopTerms_eq_map, List.sum_eq_foldl,
    ← List.foldl_assoc (op := fun a b : Int => a + b), add_zero]

/-- The operand address, the weight address and the bank of R111, with the fields of the base word written out. -/
theorem stepAddresses_eq_passAddress (d : PassDesc) (n : Nat) :
    stepAddresses d n = (passAddress d n (d.base.toNat % 256) d.ostr 256,
      passAddress d n (d.base.toNat / 256 % 32) d.wstr 32, passAddress d n (d.base.toNat / 65536 % 4) d.bstr 4) := by
  simp [stepAddresses, loopAddress_eq_passAddress, fld, Nat.shiftRight_eq_div_pow]

/-- The steps of a pass are the product of its six counts (R112). -/
theorem passSteps_eq_prod (d : PassDesc) :
    passSteps d = d.cnt[0].toNat * d.cnt[1].toNat * d.cnt[2].toNat * d.cnt[3].toNat * d.cnt[4].toNat *
      d.cnt[5].toNat := by
  have hcounts : d.cnt.toList = (List.finRange 6).map (fun l => d.cnt[l.val]) :=
    List.ext_getElem (by simp) fun l _ _ => by simp
  simp [passSteps, hcounts, List.finRange_succ]

end Sys2Proof.Machine
end

section
/-!
SUPPORT. Tensor row: what the integer formats bring a lane, in plain integers (R83, Table 5.3, R118).
-/
namespace Sys2Proof.Machine

/-! ### Integers as exact values -/

theorem sext_eq_toInt {w : Nat} (hw : 0 < w) (n : Nat) : sext w n = (BitVec.ofNat w n).toInt := by
  obtain ⟨w, rfl⟩ := Nat.exists_eq_add_of_lt hw
  simp only [sext, BitVec.toInt_eq_toNat_cond, BitVec.toNat_ofNat, Nat.zero_add, Nat.add_sub_cancel, pow_succ]
  split_ifs <;> omega

theorem intElem_int8 (bits : Nat) : intElem 0xA bits = (BitVec.ofNat 8 bits).toInt := rfl
theorem intElem_uint8 (bits : Nat) : intElem 0xB bits = ((bits % 256 : Nat) : Int) := rfl
theorem intElem_int4 (bits : Nat) : intElem 0xC bits = (BitVec.ofNat 4 bits).toInt := rfl

/-- The codes of the integer formats that a pass can read (Table 4.1). -/
theorem mem_int_codes {code : Nat} (h : code ∈ [0xA, 0xB, 0xC]) : code = 0xA ∨ code = 0xB ∨ code = 0xC := by
  simpa using h

theorem elemVal_eq_ofIntV {code : Nat} (h : code ∈ [0xA, 0xB, 0xC]) (bits : Nat) :
    elemVal code bits = ofIntV (intElem code bits) := by
  rcases mem_int_codes h with rfl | rfl | rfl
  · exact congrArg ofIntV (sext_eq_toInt (w := 8) (by decide) bits)
  · rfl
  · exact congrArg ofIntV (sext_eq_toInt (w := 4) (by decide) bits)

theorem intElem_bounds {code : Nat} (h : code ∈ [0xA, 0xB, 0xC]) (bits : Nat) :
    -128 ≤ intElem code bits ∧ intElem code bits < 256 := by
  rcases mem_int_codes h with rfl | rfl | rfl
  · have hlt := BitVec.toInt_lt (x := BitVec.ofNat 8 bits)
    have hle := BitVec.le_toInt (BitVec.ofNat 8 bits)
    rw [intElem_int8]; omega
  · rw [intElem_uint8]; omega
  · have hlt := BitVec.toInt_lt (x := BitVec.ofNat 4 bits)
    have hle := BitVec.le_toInt (BitVec.ofNat 4 bits)
    rw [intElem_int4]; omega

/-- A sign and a magnitude of exponent 0 are an integer. -/
theorem scaledInt_zero (n : Bool) (m : Nat) : scaledInt n m 0 0 = if n then -(m : Int) else m := rfl

theorem scaledInt_of_int (a : Int) : scaledInt (decide (a < 0)) a.natAbs 0 0 = a := by
  by_cases h : a < 0
  · simp [scaledInt_zero, h, abs_of_neg]
  · simp [scaledInt_zero, h, abs_of_nonneg (not_lt.mp h)]

theorem scaledInt_not (n : Bool) (m : Nat) : scaledInt (!n) m 0 0 = -scaledInt n m 0 0 := by
  cases n <;> simp [scaledInt_zero]

theorem scaledInt_mul (n k : Bool) (m p : Nat) :
    scaledInt (n != k) (m * p) 0 0 = scaledInt n m 0 0 * scaledInt k p 0 0 := by
  cases n <;> cases k <;> simp [scaledInt_zero]

theorem contribOf_fin (n : Bool) (m : Nat) : contribOf (.fin n m 0) = { sum := scaledInt n m 0 0 } := rfl

/-- A sum whose first part is not the negative zero is the integer sum. -/
theorem addV_ofIntV_fin (a : Int) (k : Bool) (p : Nat) :
    addV (ofIntV a) (.fin k p 0) = ofIntV (a + scaledInt k p 0 0) := by
  simp only [addV, ofIntV.eq_def a, min_self, scaledInt_of_int]
  split_ifs with hsum hzero
  · have ha : a = 0 := Int.natAbs_eq_zero.mp hzero.1
    rw [hsum]; simp [ofIntV, ha]
  · rw [hsum]; rfl
  · rfl

theorem addV_ofIntV (a w : Int) : addV (ofIntV a) (ofIntV w) = ofIntV (a + w) := by
  rw [ofIntV.eq_def w, addV_ofIntV_fin, scaledInt_of_int]

theorem addV_negV_ofIntV (a w : Int) : addV (ofIntV a) (negV (ofIntV w)) = ofIntV (a - w) := by
  rw [ofIntV.eq_def w, negV, addV_ofIntV_fin, scaledInt_not, scaledInt_of_int, sub_eq_add_neg]

theorem contribOf_mulV_ofIntV (a w : Int) : contribOf (mulV (ofIntV a) (ofIntV w)) = { sum := a * w } := by
  rw [ofIntV, ofIntV, mulV, add_zero, contribOf_fin, scaledInt_mul, scaledInt_of_int, scaledInt_of_int]

theorem contribOf_ofIntV (a : Int) : contribOf (ofIntV a) = { sum := a } := by
  rw [ofIntV, contribOf_fin, scaledInt_of_int]

/-- Table 5.3 for integers: the modes that sum bring `pairInt`, the other modes the sum of the pair. -/
theorem contribOf_pairValue_ofIntV (mode : Nat) (a w : Int) :
    contribOf (pairValue mode (ofIntV a) (ofIntV w)) =
      { sum := if mode ∈ [0, 1, 2, 6] then pairInt mode a w else a + w } := by
  unfold pairValue
  split
  · exact contribOf_mulV_ofIntV a w
  · rw [addV_negV_ofIntV]
    simp [ofIntV, contribOf_fin, scaledInt_zero, pairInt]
  · rw [addV_negV_ofIntV]
    simp [ofIntV, contribOf_fin, scaledInt_zero, pairInt, sq]
  · rw [addV_negV_ofIntV]
    have hgt : ¬a - w = 0 ∧ w ≤ a ↔ w < a := by omega
    simp [ofIntV, contribOf_fin, scaledInt_zero, pairInt, hgt]
  next h0 h1 h2 h6 =>
    have hmode : mode ∉ [0, 1, 2, 6] := by simpa using ⟨h0, h1, h2, h6⟩
    rw [addV_ofIntV, contribOf_ofIntV, if_neg hmode]

end Sys2Proof.Machine
end

section
/-!
SUPPORT. Tensor row: what a step brings a lane (R88, R93, R117, R118): the count, the sum, and the best candidate.
-/
namespace Sys2Proof.Machine

/-! ### The best candidate of a selection mode (R118) -/

/-- A candidate that a selection mode keeps before another: the smaller value in MINPLUS, the greater in MAXPLUS, and
the smaller index among equal values. -/
structure Preferred (mode : Nat) (a b : Int × Word) : Prop where
  value : if mode = 3 then a.1 ≤ b.1 else b.1 ≤ a.1
  index : a.1 = b.1 → a.2.toNat ≤ b.2.toNat

theorem Preferred.refl (mode : Nat) (a : Int × Word) : Preferred mode a a :=
  ⟨by split_ifs <;> exact le_rfl, fun _ => le_rfl⟩

theorem Preferred.trans {mode : Nat} {a b c : Int × Word} (hab : Preferred mode a b) (hbc : Preferred mode b c) :
    Preferred mode a c := by
  obtain ⟨hv, hi⟩ := hab
  obtain ⟨hv', hi'⟩ := hbc
  constructor <;> split_ifs at * <;> omega

/-- `better` keeps the candidate that is preferred to the other. -/
theorem better_cases (mode : Nat) (a b : Int × Word) :
    (better mode a b = a ∧ Preferred mode a b) ∨ (better mode a b = b ∧ Preferred mode b a) := by
  unfold better
  split_ifs with heq hidx hmin hlt hgt
  · exact .inr ⟨rfl, by simp [heq], fun _ => hidx.le⟩
  · exact .inl ⟨rfl, by simp [heq], fun _ => Nat.le_of_not_lt hidx⟩
  · exact .inr ⟨rfl, by simpa [hmin] using hlt.le, fun h => absurd h.symm heq⟩
  · exact .inl ⟨rfl, by simpa [hmin] using hlt, fun h => absurd h heq⟩
  · exact .inr ⟨rfl, by simpa [hmin] using hgt.le, fun h => absurd h.symm heq⟩
  · exact .inl ⟨rfl, by simpa [hmin] using hgt, fun h => absurd h heq⟩

/-- Of a list of candidates after a first one, `better` finds one that is preferred to all. -/
theorem foldl_better_spec (mode : Nat) (l : List (Int × Word)) (a : Int × Word) :
    l.foldl (better mode) a ∈ a :: l ∧ ∀ b ∈ a :: l, Preferred mode (l.foldl (better mode) a) b := by
  induction l generalizing a with
  | nil => simp [Preferred.refl]
  | cons b l ih =>
    obtain ⟨hmem, hall⟩ := ih (better mode a b)
    have hbest := hall _ List.mem_cons_self
    rw [List.foldl_cons]
    rcases better_cases mode a b with ⟨hone, hab⟩ | ⟨hone, hba⟩ <;> rw [hone] at hmem hall hbest ⊢
    · refine ⟨List.cons_subset_cons a (List.subset_cons_self b l) hmem, List.forall_mem_cons.mpr ⟨hbest, ?_⟩⟩
      exact List.forall_mem_cons.mpr ⟨hbest.trans hab, fun c hc => hall c (List.mem_cons_of_mem a hc)⟩
    · exact ⟨List.mem_cons_of_mem a hmem, List.forall_mem_cons.mpr ⟨hbest.trans hba, hall⟩⟩

theorem foldl_betterOpt_some (mode : Nat) (l : List (Int × Word)) (a : Int × Word) :
    l.foldl (betterOpt mode) (some a) = some (l.foldl (better mode) a) := by
  induction l generalizing a with
  | nil => rfl
  | cons b l ih => exact ih (better mode a b)

theorem foldl_betterOpt_spec (mode : Nat) {l : List (Int × Word)} (hl : l ≠ []) :
    ∃ a ∈ l, l.foldl (betterOpt mode) none = some a ∧ ∀ b ∈ l, Preferred mode a b := by
  cases l with
  | nil => exact absurd rfl hl
  | cons a l =>
    obtain ⟨hmem, hall⟩ := foldl_better_spec mode l a
    exact ⟨_, hmem, foldl_betterOpt_some mode l a, hall⟩

/-! ### Contributions one after the other -/

theorem LaneAdd.add_cnt (p : Pass) (acc : LaneAdd) (c : Contrib) (idx : Word) :
    (acc.add p c idx).cnt = acc.cnt + 1 := by
  unfold LaneAdd.add; dsimp only; split_ifs <;> rfl

/-- Each contribution counts once (R93). -/
theorem foldl_add_cnt (p : Pass) (c : Nat → Contrib) (idx : Nat → Word) (l : List Nat) (acc : LaneAdd) :
    (l.foldl (fun a k => a.add p (c k) (idx k)) acc).cnt = acc.cnt + l.length := by
  induction l generalizing acc with
  | nil => rfl
  | cons k l ih => rw [List.foldl_cons, ih, LaneAdd.add_cnt, List.length_cons]; omega

theorem laneStep_cnt (p : Pass) (t : Tensor) (oa wa i : Nat) : (laneStep p t oa wa i).cnt = stepElems p.ofmt :=
  (foldl_add_cnt p _ _ _ _).trans (by simp)

section
variable {p : Pass} (hp : classOf p.ofmt = .int)
include hp

/-- An integer is added as it is: its class has no anchor, and its least significant bit is 2^0 (R89, R92). -/
theorem LaneAdd.add_int (acc : LaneAdd) (v : Int) (idx : Word) :
    acc.add p { sum := v } idx = if p.mode = 3 ∨ p.mode = 4
      then { acc with cnt := acc.cnt + 1, best := betterOpt p.mode acc.best ((BitVec.ofInt 160 v).toInt, idx) }
      else { acc with cnt := acc.cnt + 1, sum := acc.sum + v } := by
  simp [LaneAdd.add, Contrib.special, hp, lsbOf, truncTo, anchored]

variable (v : Nat → Int) (idx : Nat → Word) (l : List Nat) (acc : LaneAdd)

theorem foldl_add_int_sum (hm : ¬(p.mode = 3 ∨ p.mode = 4)) :
    (l.foldl (fun a k => a.add p { sum := v k } (idx k)) acc).sum = acc.sum + (l.map v).sum := by
  induction l generalizing acc with
  | nil => simp
  | cons k l ih => rw [List.foldl_cons, ih, LaneAdd.add_int hp, if_neg hm, List.map_cons, List.sum_cons, add_assoc]

theorem foldl_add_int_best (hm : p.mode = 3 ∨ p.mode = 4) :
    (l.foldl (fun a k => a.add p { sum := v k } (idx k)) acc).best =
      (l.map (fun k => ((BitVec.ofInt 160 (v k)).toInt, idx k))).foldl (betterOpt p.mode) acc.best := by
  induction l generalizing acc with
  | nil => rfl
  | cons k l ih => rw [List.foldl_cons, ih, LaneAdd.add_int hp, if_pos hm]; rfl

end

/-! ### A step of the integer formats -/

/-- What element `k` of a step of integer formats brings lane `i`. -/
def intTerm (p : Pass) (t : Tensor) (oa wa i k : Nat) : Int :=
  let a := operandElem t p.ofmt oa k
  let w := weightElem t p.wfmt wa p.transp i k
  if p.mode = 5 then (if a = w then 0 else 1)
  else if p.mode ∈ [0, 1, 2, 6] then pairInt p.mode (intElem p.ofmt a) (intElem p.wfmt w)
  else intElem p.ofmt a + intElem p.wfmt w

theorem intTerm_of_sums {p : Pass} (hm : p.mode ∈ [0, 1, 2, 6]) (t : Tensor) (oa wa i k : Nat) :
    intTerm p t oa wa i k = pairInt p.mode (intElem p.ofmt (operandElem t p.ofmt oa k))
      (intElem p.wfmt (weightElem t p.wfmt wa p.transp i k)) := by
  have hbin : p.mode ≠ 5 := by intro h; simp [h] at hm
  simp only [intTerm, if_neg hbin, if_pos hm]

theorem intTerm_of_selects {p : Pass} (hm : p.mode = 3 ∨ p.mode = 4) (t : Tensor) (oa wa i k : Nat) :
    intTerm p t oa wa i k = intElem p.ofmt (operandElem t p.ofmt oa k) +
      intElem p.wfmt (weightElem t p.wfmt wa p.transp i k) := by
  rcases hm with hm | hm <;> simp [intTerm, hm]

theorem classOf_int {code : Nat} (h : code ∈ [0xA, 0xB, 0xC]) : classOf code = .int := by
  rcases mem_int_codes h with rfl | rfl | rfl <;> rfl

theorem stepElems_pos (code : Nat) : 0 < stepElems code := by
  unfold stepElems; split <;> decide

section
variable {p : Pass} {t : Tensor} {oa wa i : Nat} (ho : p.ofmt ∈ [0xA, 0xB, 0xC]) (hw : p.wfmt ∈ [0xA, 0xB, 0xC])
include ho hw

/-- The elements of an integer step come to the lane as plain integers. -/
theorem laneStep_int : laneStep p t oa wa i = (List.range (stepElems p.ofmt)).foldl
    (fun acc k => acc.add p { sum := intTerm p t oa wa i k } (elemIndex t p.ofmt oa k)) {} := by
  unfold laneStep
  congr 1
  funext acc k
  dsimp only [intTerm]
  rw [elemVal_eq_ofIntV ho, elemVal_eq_ofIntV hw, contribOf_pairValue_ofIntV]
  congr 1
  split_ifs <;> rfl

theorem laneStep_int_noFlags :
    ((laneStep p t oa wa i).nan || (laneStep p t oa wa i).pinf || (laneStep p t oa wa i).ninf ||
      (laneStep p t oa wa i).loss || (laneStep p t oa wa i).ovf) = false := by
  rw [laneStep_int ho hw]
  refine foldl_same (fun l : LaneAdd => l.nan || l.pinf || l.ninf || l.loss || l.ovf) _ (fun acc k => ?_) _ _
  rw [LaneAdd.add_int (classOf_int ho)]
  split_ifs <;> rfl

theorem laneStep_int_sum (hm : p.mode ∈ [0, 1, 2, 6]) : (laneStep p t oa wa i).sum =
    ((List.range (stepElems p.ofmt)).map (fun k => pairInt p.mode (intElem p.ofmt (operandElem t p.ofmt oa k))
      (intElem p.wfmt (weightElem t p.wfmt wa p.transp i k)))).sum := by
  have hsel : ¬(p.mode = 3 ∨ p.mode = 4) := by rintro (h | h) <;> simp [h] at hm
  rw [laneStep_int ho hw, foldl_add_int_sum (classOf_int ho) _ _ _ _ hsel, zero_add,
    funext (intTerm_of_sums hm t oa wa i)]

variable (t oa wa i) in
/-- Sums of two elements lie far inside the window of 160 bits, so that a selection mode compares them as they are. -/
theorem laneStep_int_best (hm : p.mode = 3 ∨ p.mode = 4) :
    let cand := fun k => (intElem p.ofmt (operandElem t p.ofmt oa k) +
      intElem p.wfmt (weightElem t p.wfmt wa p.transp i k), elemIndex t p.ofmt oa k)
    ∃ k < stepElems p.ofmt, (laneStep p t oa wa i).best = some (cand k) ∧
      ∀ j < stepElems p.ofmt, Preferred p.mode (cand k) (cand j) := by
  intro cand
  have hcand : ∀ k, ((BitVec.ofInt 160 (intTerm p t oa wa i k)).toInt, elemIndex t p.ofmt oa k) = cand k := by
    intro k
    have hx := intElem_bounds ho (operandElem t p.ofmt oa k)
    have hy := intElem_bounds hw (weightElem t p.wfmt wa p.transp i k)
    rw [intTerm_of_selects hm, BitVec.toInt_ofInt_eq_self (by decide) (by omega) (by omega)]
  obtain ⟨a, ha, hbest, hall⟩ := foldl_betterOpt_spec p.mode
    (l := (List.range (stepElems p.ofmt)).map cand) (by simpa using (stepElems_pos p.ofmt).ne')
  obtain ⟨k, hk, rfl⟩ := List.mem_map.mp ha
  refine ⟨k, List.mem_range.mp hk, ?_, fun j hj => hall _ (List.mem_map_of_mem (List.mem_range.mpr hj))⟩
  rw [laneStep_int ho hw, foldl_add_int_best (classOf_int ho) _ _ _ _ hm, funext hcand]
  exact hbest

end

end Sys2Proof.Machine
end

section
/-!
SUPPORT. Tensor row: passes (R108, R110 to R112).
-/
namespace Sys2Proof.Machine

/-! ### TPASS -/

theorem trowBusy_of_over {cell : Cell} (h : ∀ p ∈ cell.tens.pass, p.start + p.total ≤ cell.now) :
    trowBusy cell = false := by
  cases hp : cell.tens.pass with
  | none => simp [trowBusy, hp]
  | some p => simpa [trowBusy, hp] using h p hp

theorem trowBusy_of_running {cell : Cell} {p : Pass} (hp : cell.tens.pass = some p) (h : cell.now < p.start + p.total) :
    trowBusy cell = true := by
  simpa [trowBusy, hp] using h

/-- The cell with a pass begun that has latched descriptor `desc` (R112). -/
def withPass (cell : Cell) (mode : BitVec 3) (ofmt wfmt : BitVec 4) (transp : Bool) (desc : BitVec 2)
    (anchor : BitVec 10) : Cell :=
  let d := cell.tens.descs[desc.toNat]'(desc.isLt)
  { cell with tens := { cell.tens with
      passDesc := desc
      pass := some { desc := d, mode := mode.toNat, ofmt := ofmt.toNat, wfmt := wfmt.toNat, transp := transp
                     anchor := anchor.toInt, start := cell.now, done := 0, total := passSteps d, half := none } } }

section
variable {c : CellRef} {s : State} {cell : Cell} {mode : BitVec 3} {ofmt wfmt : BitVec 4} {transp : Bool}
  {desc : BitVec 2} {anchor : BitVec 10} (h : Issuing s c .T cell)
  (hl : legal (.tpass c mode ofmt wfmt transp desc anchor) = true)
include h hl

theorem tpass_begins (hfree : trowBusy cell = false) :
    ∃ t, exec (.tpass c mode ofmt wfmt transp desc anchor) s = .next t ∧
      CellBecomes s t c (slotIssued (withPass cell mode ofmt wfmt transp desc anchor) .T) :=
  ⟨_, rfl, issueSlot_changes_cell h hl rfl (by simp [hfree]) rfl rfl rfl rfl⟩

theorem tpass_skipped (hbusy : trowBusy cell = true) :
    ∃ t w, exec (.tpass c mode ofmt wfmt transp desc anchor) s = .next t ∧ CellBecomes s t c (slotIssued
        { cell with ctl := addSkip cell.ctl (slotLogOf (s.ctx c.ctx.val) cell .T w 8) } .T) :=
  ⟨_, _, rfl, issueSlot_skips h hl rfl (by simp [hbusy])⟩

end

/-! ### A step of the pass -/

/-- A state with one cell set. -/
theorem cellBecomes_setCell (s : State) (c : CellRef) (x : Cell) : CellBecomes s (s.setCell c x) c x :=
  ⟨by simp, fun _ hd => State.cell_setCell_other s x hd, fun _ => rfl, rfl⟩

/-- In the cycle of its step a moving cell performs the step (R112). -/
theorem exec_passStep {s : State} {c : CellRef} {cell : Cell} {p : Pass} (h : Moving s c cell)
    (hp : cell.tens.pass = some p) (hdone : p.done < p.total) (hnow : p.start + p.done = cell.now) :
    exec (.passStep c) s = .next (s.setCell c { cell with tens := passStepOn cell.now cell.tens p }) := by
  simp [exec, execPassStep, h.here, h.runs, h.up, h.free, hp, hdone, hnow]

/-- R108 on the addresses of R111. -/
theorem roundedStep_eq (p : Pass) (n : Nat) :
    let oa0 := passAddress p.desc n (p.desc.base.toNat % 256) p.desc.ostr 256
    let wa0 := passAddress p.desc n (p.desc.base.toNat / 256 % 32) p.desc.wstr 32
    let oa := oa0 / stepUnits p.ofmt * stepUnits p.ofmt
    let wa := wa0 / weightUnits p.wfmt p.transp * weightUnits p.wfmt p.transp
    roundedStep p n = (oa, wa, passAddress p.desc n (p.desc.base.toNat / 65536 % 4) p.desc.bstr 4,
      decide (oa ≠ oa0 ∨ wa ≠ wa0)) := by
  simp [roundedStep, stepAddresses_eq_passAddress]

/-- The pass with one more step done, and what it keeps of a half block. -/
def Pass.advance (p : Pass) (half : Option (List Contrib)) : Pass := { p with done := p.done + 1, half := half }

/-- The row after a step: the step is counted, a moved address sets ALIGN, and the rest is what the step makes of the
half block and of the contributions in flight. -/
def stepped (t : Tensor) (p : Pass) (moved : Bool) (half : Option (List Contrib)) (adds : List StepAdd) : Tensor :=
  { t with pass := some (p.advance half), adds := adds, align := t.align || moved }

/-- What a step puts in flight for its bank (R112, R114). -/
def stepAdd (now : Nat) (p : Pass) (bank : Nat) (lanes : List LaneAdd) : StepAdd :=
  { due := now + 3, bank := bank, lanes := lanes
    latch := { mode := p.mode, cls := classOf p.ofmt, lsb := lsbOf (classOf p.ofmt) p.anchor, fmt := p.ofmt } }

/-- The dot products of the 32 lanes in a step of an MX pass, by the scales of this step (log entry 35). -/
def mxParts (t : Tensor) (p : Pass) (oa wa : Nat) : List Contrib := (List.range 32).map (fun i => mxPart p t oa wa i)

/-- The dot products of a step joined with the half block before it, where one waits (R88). -/
def joinHalf (half : Option (List Contrib)) (parts : List Contrib) : List Contrib :=
  match half with
  | some h => List.zipWith Contrib.join h parts
  | none => parts

theorem joinHalf_length {half : Option (List Contrib)} {parts : List Contrib} {n : Nat} (hp : parts.length = n)
    (hh : ∀ h, half = some h → h.length = n) : (joinHalf half parts).length = n := by
  cases half with
  | none => exact hp
  | some h => simp [joinHalf, hp, hh h rfl]

section
variable (now : Nat) (t : Tensor) {p : Pass} {oa wa bank : Nat} {moved : Bool}
  (hr : roundedStep p p.done = (oa, wa, bank, moved))
include hr

/-- The first half of an MX block waits for the second (R110). -/
theorem passStepOn_waits (hc : classOf p.ofmt = .mx) (hh : p.half = none) (hf : firstHalf p p.done = true) :
    passStepOn now t p = stepped t p moved (some (mxParts t p oa wa)) t.adds := by
  dsimp only [passStepOn]
  rw [hr, hh]
  exact (if_pos hc).trans (if_pos hf)

/-- Any other step of an MX pass brings each lane one contribution. -/
theorem passStepOn_joins (hc : classOf p.ofmt = .mx) (hf : ¬(p.half = none ∧ firstHalf p p.done = true)) :
    passStepOn now t p = stepped t p moved none
      (t.adds ++ [stepAdd now p bank ((joinHalf p.half (mxParts t p oa wa)).map (fun k => LaneAdd.add p {} k 0))]) := by
  dsimp only [passStepOn]
  rw [hr]
  exact (if_pos hc).trans (if_neg (by simpa using hf))

/-- A step of another class brings each lane its elements. -/
theorem passStepOn_lanes (hc : classOf p.ofmt ≠ .mx) :
    passStepOn now t p = stepped t p moved p.half
      (t.adds ++ [stepAdd now p bank ((List.range 32).map (laneStep p t oa wa))]) := by
  dsimp only [passStepOn]
  rw [hr]
  exact if_neg hc

end

/-- Settles O22: TPASS by whether the row is busy; a step by its class and, for an MX class, by whether it waits for the
other half of its block. -/
theorem tensorPassesLatchAndStep : Obligations.TensorPassesLatchAndStep := by
  unfold Obligations.TensorPassesLatchAndStep
  refine ⟨fun c s cell mode ofmt wfmt transp desc anchor h hl => ⟨fun hfree => ?_, fun p hp hbusy =>
    tpass_skipped h hl (trowBusy_of_running hp hbusy)⟩, ?_⟩
  · simpa only [withPass, passSteps_eq_prod] using tpass_begins h hl (trowBusy_of_over hfree)
  intro c s cell p h hp hdone hnow hhalf d oa0 wa0 oa wa parts joined
  have hr : roundedStep p p.done = (oa, wa, _, decide (oa ≠ oa0 ∨ wa ≠ wa0)) := roundedStep_eq p p.done
  have hstep := exec_passStep h hp hdone hnow
  have hset := cellBecomes_setCell s c { cell with tens := passStepOn cell.now cell.tens p }
  by_cases hc : classOf p.ofmt = .mx
  · by_cases hw : p.half = none ∧ firstHalf p p.done = true
    · obtain ⟨hnone, hfirst⟩ := hw
      rw [passStepOn_waits _ _ hr hc hnone hfirst] at hstep hset
      refine ⟨_, _, p.advance _, hstep, hset, rfl, rfl, fun _ _ _ => ⟨rfl, rfl⟩, fun hsends => ?_⟩
      simp [hc, hnone, hfirst] at hsends
    · rw [passStepOn_joins _ _ hr hc hw] at hstep hset
      have hlen : (joinHalf p.half parts).length = 32 := joinHalf_length (by simp [parts]) hhalf
      exact ⟨_, _, p.advance _, hstep, hset, rfl, rfl, fun _ hnone hfirst => absurd ⟨hnone, hfirst⟩ hw,
        fun _ => ⟨_, rfl, rfl, rfl, rfl, (List.length_map _).trans hlen, fun _ => ⟨rfl, rfl⟩,
          fun hne => absurd hc hne⟩⟩
  · rw [passStepOn_lanes _ _ hr hc] at hstep hset
    refine ⟨_, _, p.advance _, hstep, hset, rfl, rfl, fun hmx => absurd hmx hc, fun _ => ⟨_, rfl, rfl, rfl, rfl,
      by simp [stepAdd], fun hmx => absurd hmx hc, fun _ => ⟨rfl, fun i hi => ?_⟩⟩⟩
    refine ⟨laneStep p cell.tens oa wa i, by simp [stepAdd, hi], rfl, laneStep_cnt .., fun ho hw =>
      ⟨laneStep_int_noFlags ho hw, laneStep_int_sum ho hw, fun hm => ?_, fun hm => ?_⟩⟩
    all_goals
      obtain ⟨k, hk, hbest, hall⟩ := laneStep_int_best cell.tens oa wa i ho hw (by simp [hm])
      exact ⟨k, hk, hbest, fun j hj => ⟨by simpa [hm] using (hall j hj).value, (hall j hj).index⟩⟩

end Sys2Proof.Machine
end


section
/-!
SUPPORT. Placement and fencing: the tables of cells, contexts, ports, regions, functions, leases and sessions stay in the order of
their keys. The invariant, and the updates that every command is made of.

The proofs of this part repeat the shape of the definitions that they are about: `.ite` at a branch, `split` at a match,
`foldl` at a fold, and the rule of each update in the order of the updates.
-/
namespace Sys2Proof.Machine

/-! ### The invariant -/

/-- Every table of the module stands in the order of its keys, each key once. -/
structure InOrder (s : State) : Prop where
  cells : Mem.sortedFrom none s.cells
  ctxs : Mem.sortedFrom none s.ctxs
  ports : Mem.sortedFrom none s.ports
  regions : Mem.sortedFrom none s.regions
  fns : Mem.sortedFrom none s.fns
  leases : Mem.sortedFrom none s.leases
  sessions : Mem.sortedFrom none s.sessions

theorem inOrder_iff_tablesSorted (s : State) : InOrder s ↔ s.tablesSorted = true := by
  simp only [State.tablesSorted, Bool.and_eq_true]
  exact ⟨fun ⟨c, x, p, r, f, l, e⟩ => ⟨⟨⟨⟨⟨⟨c, x⟩, p⟩, r⟩, f⟩, l⟩, e⟩,
    fun ⟨⟨⟨⟨⟨⟨c, x⟩, p⟩, r⟩, f⟩, l⟩, e⟩ => ⟨c, x, p, r, f, l, e⟩⟩

/-- Inserting or replacing an entry of a table keeps it in order. -/
theorem Mem.sortedFrom_put {α : Type} {m : Mem α} {k : Nat} {v : α} (h : Mem.sortedFrom none m) :
    Mem.sortedFrom none (Mem.put m k v) := Mem.put_sorted m k v none rfl h

/-- Changing some entries of a table under their keys keeps it in order. -/
theorem Mem.sortedFrom_map_if {α : Type} {m : Mem α} {p : Nat × α → Prop} [DecidablePred p] {f : Nat × α → α}
    (h : Mem.sortedFrom none m) : Mem.sortedFrom none (m.map (fun e => if p e then (e.1, f e) else e)) :=
  Mem.map_sorted _ (fun e => by split <;> rfl) m none h

/-- Where an outcome is a next state, its tables stand in order. -/
def NextInOrder : Host.Outcome State Fault Refusal → Prop
  | .next t => InOrder t
  | _ => True

theorem NextInOrder.next {t : State} (h : InOrder t) : NextInOrder (.next t) := h

namespace InOrder

variable {s t : State}

/-! ### Branches and folds -/

protected theorem ite {c : Prop} [Decidable c] (hs : InOrder s) (ht : InOrder t) : InOrder (if c then s else t) := by
  split <;> assumption

/-- The same for a branch that carries another value beside the state. -/
protected theorem ite_fst {γ : Type} {c : Prop} [Decidable c] {a b : State × γ} (ha : InOrder a.1) (hb : InOrder b.1) :
    InOrder (if c then a else b).1 := by
  split <;> assumption

/-- A fold of updates keeps the order where each of them does. -/
theorem foldl {β : Type} {f : State → β → State} {l : List β} (hf : ∀ {t} b, InOrder t → InOrder (f t b))
    (h : InOrder s) : InOrder (l.foldl f s) := foldl_keeps InOrder f (fun _ b => hf b) l s h

/-- The same for a fold that carries another value beside the state. -/
theorem foldl_fst {β γ : Type} {f : State × γ → β → State × γ} {l : List β} {g : γ}
    (hf : ∀ {a} b, InOrder a.1 → InOrder (f a b).1) (h : InOrder s) : InOrder (l.foldl f (s, g)).1 :=
  foldl_keeps (fun a => InOrder a.1) f (fun _ b => hf b) l (s, g) h

section
variable {c : CellRef} {n p : Nat} {x : Ctx} {cell : Cell} {f : FnRef} (h : InOrder s)
include h

/-! ### Updates of one entry -/

theorem setCtx : InOrder (s.setCtx n x) := { h with ctxs := Mem.sortedFrom_put h.ctxs }
theorem onCtx {g : Ctx → Ctx} : InOrder (s.onCtx n g) := h.setCtx
theorem setCell : InOrder (s.setCell c cell) := { h with cells := Mem.sortedFrom_put h.cells }
theorem onCell {g : Cell → Cell} : InOrder (s.onCell c g) := { h with cells := Mem.adjust_sorted _ _ _ _ h.cells }
theorem setPort {q : Port} : InOrder (s.setPort p q) := { h with ports := Mem.sortedFrom_put h.ports }
theorem onPort {g : Port → Port} : InOrder (s.onPort p g) := h.setPort
theorem setRegion {r : Region} : InOrder (s.setRegion p r) := { h with regions := Mem.sortedFrom_put h.regions }
theorem onRegion {g : Region → Region} : InOrder (s.onRegion p g) := h.setRegion
theorem setFn {q : Fn} : InOrder (s.setFn f q) := { h with fns := Mem.sortedFrom_put h.fns }
theorem onFn {g : Fn → Fn} : InOrder (s.onFn f g) := h.setFn
theorem addEvent {e : EventRec} : InOrder (s.addEvent f e) := h.onFn

/-! ### Updates of a whole table, and of none -/

theorem onCells {g : Cell → Cell} : InOrder (s.onCells n g) := { h with cells := Mem.sortedFrom_map_if h.cells }
theorem onPorts {g : Port → Port} : InOrder (s.onPorts g) := h.foldl fun _ h => h.onPort
theorem holdAll {cause : HoldCause} {src : Nat} : InOrder (s.holdAll cause src) :=
  { h with ctxs := Mem.sortedFrom_map_if h.ctxs }
theorem emitOut {l : List Out} : InOrder (s.emitOut l) := { h with }

/-! ### Traffic, and the issue of a slot -/

theorem sendLoose {route : Nat} {msg : List Flit} : InOrder (s.sendLoose n route msg) := by
  unfold State.sendLoose
  split
  · exact h.onPort
  · exact h
theorem tellCe {p : PhysCell} : InOrder (s.tellCe p) := .ite { h.setRegion with } h
theorem countCe {p : PhysCell} : InOrder (s.countCe p n) := h.onRegion.tellCe
theorem tellAllCe : InOrder s.tellAllCe := h.foldl fun _ h => h.foldl fun _ h => h.tellCe

theorem emit {e : Emit} : InOrder (s.emit n e) :=
  .foldl (fun _ h => h.sendLoose) (.foldl (fun _ h => h.countCe) { h.setCtx with })

protected theorem issueSlot {sl : Slot} {i : Instr} {body : Ctx → Cell → SlotAct} : InOrder (issueSlot s c sl i body) := by
  rcases issueSlot_cases s c sl i body with hs | ⟨cell, e, hs⟩ <;> rw [hs]
  · exact h
  · exact h.setCell.emit

end
end InOrder

end Sys2Proof.Machine
end

section
/-!
SUPPORT. Placement and fencing: cells, streams, holds, the scratchpad and HBM keep the tables in order.
-/
namespace Sys2Proof.Machine
namespace InOrder

variable {s : State} {c : CellRef} {n p : Nat} {x : Ctx} {cell : Cell} {dn : Nat} {st : Stream} (h : InOrder s)
include h

/-! ### Tensor rows and streams -/

theorem execPassStep : NextInOrder (execPassStep c s) := by
  refine .next ?_
  split
  · exact h
  · refine .ite ?_ h
    split
    · exact h
    · exact .ite h.setCell h

protected theorem pipeRow {m : Bool} : InOrder (pipeRow s c m) := by
  unfold pipeRow
  split
  · exact h
  · dsimp only
    split
    · exact h
    · split
      · exact h
      · exact h.setCell.emit

omit h in
protected theorem leavePacks {m : Bool} {fuel : Nat} : ∀ {s : State}, InOrder s → InOrder (leavePacks s c m fuel) := by
  induction fuel with
  | zero => exact fun h => h
  | succ fuel ih =>
    intro s h
    unfold leavePacks
    split
    · exact h
    · dsimp only
      split
      · exact h
      · exact ih h.setCell.emit

protected theorem rowPipe {m : Bool} : InOrder (rowPipe s c m) := by
  unfold rowPipe
  split
  · exact h
  · exact .ite h h.pipeRow.leavePacks

theorem execStreamBoundary {d : BitVec 4} : NextInOrder (execStreamBoundary c d s) := by
  refine .next ?_
  split
  · exact h
  · dsimp only
    split
    · exact h
    · exact .ite h.setCell.emit h

theorem execIndexRowRead {d : BitVec 4} : NextInOrder (execIndexRowRead c d s) := by
  refine .next ?_
  split
  · exact h
  · dsimp only
    split
    · exact h
    · exact .ite h h.setCell.emit

/-! ### Loose streams -/

theorem takeSlot {k bank : Nat} {write : Bool} : InOrder (s.takeSlot p k bank write) := h.onRegion

theorem takeTag {q : Fin 2} {row : Nat} : InOrder (s.takeTag q c dn row) := by
  unfold State.takeTag
  split
  · exact { h with }
  · exact h

theorem dropHostTag {row : Nat} : InOrder (s.dropHostTag c dn row) := { h with }

protected theorem looseIndexRow {r : ReadyRow} : InOrder (looseIndexRow s c x cell dn st r) := by
  unfold looseIndexRow
  refine .ite h.setCell (.ite h ?_)
  dsimp only
  split <;> exact h.setCell.emit

protected theorem looseRow {r : ReadyRow} {w : Word} : InOrder (looseRow s c x cell dn st r w) := by
  unfold looseRow
  refine .ite h (.ite (emit (setCell ?slot)) (.ite (emitOut (takeTag (emit (setCell ?slot)))) (emit (setCell ?slot))))
  split
  · exact h.takeSlot
  · exact h

protected theorem looseIssue : InOrder (looseIssue s c dn) := by
  unfold looseIssue
  split
  · exact h
  · dsimp only
    split
    · exact h
    · refine .ite h ?_
      split
      · exact h
      · split
        · exact h.looseIndexRow
        · exact h.looseRow

protected theorem hbmPoke {a len : Nat} {v : Row} : InOrder (hbmPoke s x a len v) := h.onRegion

protected theorem ackLoose {id : CellId} {row : Nat} : InOrder (ackLoose s n id dn row) :=
  { h with cells := Mem.adjust_sorted _ _ _ _ h.cells }

/-! ### The beginning of a cycle -/

protected theorem openCell {sched : Bool} : InOrder (openCell s n sched c) := by
  unfold openCell
  split
  · exact h
  · exact h.setCell.emit

protected theorem openFree : InOrder (openFree s n) := by
  refine .ite (h.foldl fun c h => ?_) h
  split
  · exact .ite h.openCell h
  · exact h

protected theorem placeCommand {q : Command} : InOrder (placeCommand x s q) := h.onRegion

protected theorem openCtx : InOrder (openCtx s n) := by
  unfold openCtx
  exact onCtx (foldl (fun _ h => h.openCell) (foldl (fun _ h => h.placeCommand) h.onCtx))

/-! ### Holds -/

protected theorem presence : InOrder (presence s n) := .ite h.setCtx h

theorem sendControl {route : Nat} {mtype : BitVec 6} {payload : Nat} : InOrder (s.sendControl n route mtype payload) := by
  unfold State.sendControl
  dsimp only
  split
  · exact h
  · exact h.onPort

protected theorem freeze : InOrder (freeze s n) :=
  .ite (.ite h.setCtx.openFree (h.setCtx.openFree.foldl fun _ h => h.sendControl)) h

protected theorem release : InOrder (release s n) := .ite h h.setCtx

protected theorem resumeCtx : InOrder (resumeCtx s n) := h.setCtx.foldl fun _ h => h.sendControl

protected theorem resumeHold : InOrder (resumeHold s n) := .ite (.ite h.resumeCtx.openCtx h.resumeCtx.onCtx) h

protected theorem holdLimit : InOrder (holdLimit s n) := by
  refine .ite ?_ h
  split
  · exact { h.setCtx with }
  · exact h

theorem execRefreshDebt {region : Fin 32} {ch : Fin 8} : NextInOrder (execRefreshDebt region ch s) := by
  refine .next (.ite ?_ h)
  dsimp only
  split
  · exact h.setRegion
  · exact h.setRegion.onCtx

/-! ### The scratchpad -/

protected theorem mopWrite {kind : Bool} {src dst count : BitVec 10} : InOrder (mopWrite s c kind src dst count) := by
  unfold mopWrite
  split
  · exact h
  · exact .ite h.setCell h

theorem execCopyRowRead : NextInOrder (execCopyRowRead c s) := by
  refine .next ?_
  split
  · exact h
  · dsimp only
    split
    · exact h
    · exact .ite h.setCell.emit h

theorem execMopComplete : NextInOrder (execMopComplete c s) := by
  refine .next ?_
  split
  · exact h
  · dsimp only
    split
    · exact h
    · exact .ite h.setCell.emit h

theorem dropWriteBack {id : CellId} {rows : List Nat} : InOrder (s.dropWriteBack x id rows) := by
  unfold State.dropWriteBack
  exact h.onRegion

protected theorem landCell : InOrder (landCell s c) := by
  unfold landCell
  split
  · exact h
  · exact .ite h.setCell.setCtx.dropWriteBack.emit h

theorem freeLanding {k : Nat} : InOrder (s.freeLanding p k) := h.onPort

protected theorem landHbm : InOrder (landHbm s n) := by
  refine .ite (emit (setCtx (foldl (fun _ h => h.freeLanding) (foldl (fun _ h => h.hbmPoke) ?_)))) h
  exact { h with }

theorem execTransferLanding {t : LandTarget} : NextInOrder (execTransferLanding t s) := by
  cases t with
  | cell c => exact h.landCell
  | hbm n => exact h.landHbm

protected theorem landLooseRow {r : LooseRow} : InOrder (landLooseRow s c cell r) := by
  unfold landLooseRow
  dsimp only
  split
  · exact h.setCell.emit.ackLoose
  · exact h.setCell.emit

theorem setScrub {p : PhysCell} {q : Scrub} : InOrder (s.setScrub p q) := h.onRegion

protected theorem writeBacks {busy : List Nat} : InOrder (writeBacks s c x busy) := by
  unfold writeBacks
  split
  · exact h
  · exact .ite h h.setCell.dropWriteBack

/-- A lease becomes damaged, and its function gets an event: neither adds a table entry out of order. -/
theorem damageLease : InOrder (s.damageLease p) := by
  unfold State.damageLease
  split
  · exact h
  · refine .ite h ?_
    have hlease {k : Nat} {l : Lease} : InOrder { s with leases := Mem.put s.leases k l } :=
      { h with leases := Mem.sortedFrom_put h.leases }
    dsimp only
    split
    · exact hlease
    · exact hlease.addEvent

protected theorem looseLand : InOrder (looseLand s c) := by
  unfold looseLand
  split
  · exact h
  · refine .ite ?_ h.writeBacks
    extract_lets busy r s'
    have hs' : InOrder s' := by
      refine onCell (foldl_fst (fun l ha => ?_) h)
      refine .ite_fst ha ?_
      split
      · exact ha
      · exact ha.landLooseRow
    split
    · exact hs'
    · exact hs'.setCell.dropWriteBack.writeBacks

/-! ### Scrubbing -/

theorem scrubFound {p : PhysCell} {row : Nat} {words : List Nat} : InOrder (s.scrubFound p row words) :=
  .ite h (.ite h.damageLease h.onRegion)

protected theorem scrubRead {p : PhysCell} : InOrder (scrubRead s p) := by
  refine .ite h ?_
  dsimp only
  split
  · exact .ite h.setScrub (.ite h.setCell.emit.setScrub (scrubFound (.ite h.setCell.setScrub h.setCell.setScrub.countCe)))
  · exact scrubFound (.ite h.setRegion.setScrub h.setRegion.setScrub.countCe)

theorem execScrubStarve {p : PhysCell} : NextInOrder (execScrubStarve p s) := by
  refine .next (.ite ?_ h)
  dsimp only
  split
  · exact h.setScrub
  · exact h.setScrub.onCell

theorem execCellMemoryScrub {data : Bool} {word : BitVec 13} : NextInOrder (execCellMemoryScrub c data word s) := by
  refine .next ?_
  split
  · exact h
  · refine .ite ?_ h
    dsimp only
    split
    · exact h
    · exact h.setCell
    · exact h.emit

/-! ### HBM -/

theorem hbmCorrected : InOrder (s.hbmCorrected p n) := .ite h h.onRegion

theorem hbmUncorrectable {off : Nat} : InOrder (s.hbmUncorrectable p off) := by
  unfold State.hbmUncorrectable
  extract_lets r dome s₁ s₂
  have h₂ : InOrder s₂ := .ite { h.setRegion with } h.setRegion
  split
  · exact .ite h₂.emit (.ite h₂.damageLease h₂)
  · exact .ite h₂.damageLease h₂

theorem execHbmReadData {n : Fin 32} {id : Nat} {ecc : Ecc} : NextInOrder (execHbmReadData n id ecc s) := by
  refine .next ?_
  dsimp only
  split
  · exact h
  · refine .ite h ?_
    split
    · exact h.onCtx
    · exact h.hbmCorrected.onCtx
    · exact h.hbmUncorrectable

theorem notIssued {d : Desc} : InOrder (s.notIssued n x cell dn d) := by
  unfold State.notIssued
  exact h.emit.emitOut

protected theorem looseDone {num : Nat} {r : HostRead} : InOrder (looseDone s c dn num r) := by
  unfold looseDone
  split
  · exact h
  · refine .ite h ?_
    split
    · exact h
    · extract_lets d came have_ done finish failed p ecc v host cannot fails s₁
      clear_value ecc
      have hfinish {t : State} (h : InOrder t) : InOrder (finish t) := h.onCell.emit.onCell.emit
      have h₁ : InOrder s₁ := by
        unfold s₁
        split
        · exact .ite h.hbmCorrected h
        · exact h
      refine .ite h (.ite h (.ite (hfinish h₁) (.ite (.ite h₁.onCell.emit h₁) (.ite h₁ (.ite h₁.notIssued ?_)))))
      split
      · exact h₁.hbmUncorrectable
      · exact .ite h₁.emit (.ite (.ite (hfinish h₁) (hfinish h₁.hbmPoke).emit)
          (.ite (.ite (hfinish h₁) (hfinish h₁).emitOut.emit) (.ite (.ite (hfinish h₁) h₁) h₁.setCell.emit)))

protected theorem looseAnswered {row : Nat} : InOrder (looseAnswered s c dn row) := .ite h h.dropHostTag

theorem execCompletionTimeout {d : BitVec 4} {row : Nat} : NextInOrder (execCompletionTimeout c d row s) := by
  refine .next (dropHostTag ?_)
  split
  · exact h
  · split
    · exact h
    · exact .ite h.looseDone h

theorem execHbmScrub {region : Fin 32} {ch : Fin 8} {unit : Nat} {ecc : Ecc} :
    NextInOrder (execHbmScrub region ch unit ecc s) := by
  refine .next (.ite h ?_)
  dsimp only
  split
  · exact h.onRegion.takeSlot
  · exact h.onRegion.takeSlot.hbmCorrected
  · exact h.onRegion.takeSlot.hbmUncorrectable

theorem execClearingDone {region : Fin 32} : NextInOrder (execClearingDone region s) :=
  .next (.ite { h.setRegion with ctxs := Mem.sortedFrom_map_if h.ctxs } h)

end InOrder
end Sys2Proof.Machine
end

section
/-!
SUPPORT. Placement and fencing: signals, barriers, queues and the link layer of the ports keep the tables in order.
-/
namespace Sys2Proof.Machine
namespace InOrder

variable {s : State} {c : CellRef} {n p : Nat} {f : Flit} (h : InOrder s)
include h

/-! ### Signals and barriers -/

protected theorem signalArrive : InOrder (signalArrive s c) := by
  unfold signalArrive
  split
  · exact h
  · exact .ite h.setCell.setCtx.emit h

theorem sendToModule {addr : Nat} {mk : Nat → Flit} : InOrder (s.sendToModule n addr mk) := by
  unfold State.sendToModule
  dsimp only
  split
  · exact h.sendLoose
  · exact h.onPort

protected theorem releaseGen {cells : List (CellId × BitVec 6)} {epoch : Bool} : InOrder (releaseGen s n cells epoch) :=
  emit (.ite (h.foldl fun _ h => h.onCell) h)

protected theorem stepInstance {i : BarInst} : InOrder (stepInstance s n i).1 := by
  refine .ite_fst h (.ite_fst h ?_)
  extract_lets others told i₁ i₂
  have htold : InOrder told := .ite h (h.foldl fun _ h => h.sendToModule)
  exact .ite_fst htold.releaseGen htold

protected theorem barRelease {b : Nat} : InOrder (barRelease s n b) := by
  refine .ite (onCtx (foldl_fst (fun i ha => ?_) h)) h
  exact .ite_fst (foldl (fun _ h => h.releaseGen) ha.stepInstance) ha

theorem execRejoinCheck {n : Fin 32} {b : Nat} : NextInOrder (execRejoinCheck n b s) := .next (.ite h.setCtx.emit h)

protected theorem rejoinCell {id : CellId} : InOrder (rejoinCell s n id) := by
  unfold rejoinCell
  dsimp only
  split
  · exact h
  · exact .ite h h.setCell.emit

protected theorem rejoinNow {b : Nat} : InOrder (rejoinNow s n b) :=
  .ite (h.foldl fun _ h => emit (onCtx (h.foldl fun _ h => h.rejoinCell))) h

/-! ### Queues -/

theorem execQueRingWrite {q : Bool} {value : Word} : NextInOrder (execQueRingWrite c q value s) := by
  refine .next ?_
  split
  · exact h
  · exact .ite h.setCell h

theorem execWaitSatisfied : NextInOrder (execWaitSatisfied c s) := by
  refine .next ?_
  split
  · exact h
  · refine .ite ?_ h
    split
    · exact h
    · exact .ite h.setCell h
    · split
      · exact h.setCell
      · exact h
    · split
      · exact h.setCell
      · exact h

theorem sendResult {goal : Reply} {res : BitVec 2} : InOrder (s.sendResult n goal res) := by
  unfold State.sendResult
  split
  · exact { h with }
  · exact { h with }
  · exact .ite h.onPort h.sendLoose
  · exact h

protected theorem processMessage : InOrder (processMessage s c) := by
  unfold processMessage
  split
  · exact h
  · refine .ite ?_ h
    split
    · exact h
    · exact h.setCell.sendResult

protected theorem arriveMessage {id : CellId} {m : StagedMsg} : InOrder (arriveMessage s n id m) := by
  unfold arriveMessage
  dsimp only
  split
  · exact h.sendResult
  · exact .ite h.sendResult h.setCell

theorem setComb {region : Nat} {r : CombRegion} : InOrder (s.setComb n region r) := h.onCtx

protected theorem combResult {region q : Nat} {res : BitVec 2} : InOrder (combResult s n region q res) :=
  .ite h (.ite h.emit h.setComb)

protected theorem applyResult {goal : Reply} {res : BitVec 2} : InOrder (applyResult s goal res) := by
  unfold applyResult
  split
  · exact h.onCell
  · exact h.combResult
  · exact h

protected theorem arriveContrib {region : Nat} {m : StagedContrib} : InOrder (arriveContrib s n region m) :=
  .ite h.sendResult (.ite h.sendResult h.setComb)

protected theorem sendSum {region q : Nat} {u : Comb} : InOrder (sendSum s n region q u) := .ite { h with } h.sendLoose

protected theorem processContrib {region : Nat} : InOrder (processContrib s n region) := by
  refine .ite ?_ h
  split
  · exact h
  · refine .ite h.setComb.sendResult (.ite h.setComb.sendResult ?_)
    dsimp only
    split
    · exact h.setComb.setComb.emit
    · exact .ite h.setComb.setComb.sendResult h.setComb.setComb.sendResult.sendSum

theorem execSumResend {n : Fin 32} {region : BitVec 5} {q : BitVec 6} : NextInOrder (execSumResend n region q s) :=
  .next (.ite h.setComb.sendSum h)

protected theorem landAll : InOrder (landAll s c) := by
  unfold landAll
  split
  · exact h
  · exact .ite h.setCell.emit h

/-! ### Flits that leave and flits that arrive -/

theorem countLoose {sent : Bool} : InOrder (s.countLoose p f sent) := by
  unfold State.countLoose
  split
  · exact .ite h.onCtx h
  · exact h

theorem wireOut : InOrder (s.wireOut p f) := by
  unfold State.wireOut
  exact h.emitOut.setPort.emitOut

theorem beginExchange : InOrder (s.beginExchange p f) := .ite { h with } h

protected theorem transmit {frac : BitVec 6} : InOrder (transmit s p frac) := by
  refine .ite h ?_
  dsimp only
  split
  · exact h.setPort.wireOut
  · split
    · exact h.setPort.wireOut.beginExchange.countLoose
    · exact h.setPort.wireOut

theorem execHeaderTimer {p : Fin 16} : NextInOrder (execHeaderTimer p s) := .next (.ite h.setPort.wireOut h)

theorem hear : InOrder (s.hear p f) := by
  unfold State.hear
  split
  · exact h.onCtx
  · exact h

protected theorem acceptFlit {t : Nat} : InOrder (acceptFlit s p f t) :=
  .ite (.ite h.setPort h.setPort) (.ite h.setPort (.ite h.setPort.hear.countLoose h.setPort))

protected theorem receive {w : Wire} {frac : BitVec 6} : InOrder (receive s p w frac) :=
  .ite h (.ite h.setPort h.acceptFlit)

/-! ### The slot plan, and messages that go on -/

theorem reach {pair : Nat} {fs : List Flit} : InOrder (s.reach p n pair fs) := h.onPort

theorem stopsOf : InOrder (s.stopsOf c) := by
  unfold State.stopsOf
  split
  · exact h
  · exact .ite h.setCell.emit h

protected theorem slotSend : InOrder (slotSend s p n) := by
  refine .ite ?_ h
  dsimp only
  split
  · exact h.stopsOf.setCtx.reach
  · exact h.stopsOf.setCtx.reach

theorem takeRx {t : State} {mtype : BitVec 6} (ht : s.takeRx p mtype = some (f, t)) : InOrder t := by
  unfold State.takeRx at ht
  split at ht
  · obtain ⟨-, ht⟩ := Option.ite_none_right_eq_some.1 ht
    cases ht
    exact h.onPort
  · cases ht

theorem linkPlan : InOrder (s.linkPlan n p f) := by
  unfold State.linkPlan
  exact h.emit

theorem forward {fs : List Flit} : InOrder (s.forward n p fs) := by
  unfold State.forward
  split
  · exact h
  · split
    · exact h.linkPlan
    · exact .ite h.reach h.onPort

end InOrder
end Sys2Proof.Machine
end

section
/-!
SUPPORT. Placement and fencing: records and events, fences, regions that leave a context, kills, commands of the hosts and LOAD
keep the tables in order.
-/
namespace Sys2Proof.Machine
namespace InOrder

variable {s : State} {c : CellRef} {n p seq : Nat} {x : Ctx} {f : FnRef} (h : InOrder s)
include h

/-! ### Records, interrupts and events -/

theorem fireMsix {v : Nat} : InOrder (s.fireMsix f v) := .ite h (.ite h.setFn h.emitOut)

theorem signalNow : InOrder (s.signalNow f) := .ite h.setFn.fireMsix h

theorem signalRecord : InOrder (s.signalRecord f) := h.onFn.signalNow

theorem putRecord {r : Course} : InOrder (s.putRecord f r) := by
  unfold State.putRecord
  exact h.setFn.emitOut.signalRecord

theorem finish {code result : Nat} : InOrder (s.finish f seq code n result) := by
  unfold State.finish
  dsimp only
  split
  · exact h
  · exact .ite h.setFn.fireMsix (.ite h.putRecord.onFn (.ite h h.setFn))

protected theorem writeWaiting : InOrder (writeWaiting s f) := by
  refine .ite h ?_
  split
  · exact h.setFn.putRecord.onFn
  · split
    · exact h
    · exact h.setFn.putRecord

theorem finishOn {op code result : Nat} : InOrder (s.finishOn n op code result) := h.foldl fun _ h => h.finish

theorem ctxEvent {code error : Nat} : InOrder (s.ctxEvent n code error) := by
  unfold State.ctxEvent
  exact h.addEvent

theorem logEvent {code arg : Nat} : InOrder (s.logEvent code arg) := .ite h { h with }

/-! ### Fences -/

theorem serviceChange : InOrder s.serviceChange := by
  unfold State.serviceChange
  exact h.addEvent.addEvent

theorem refreshService : InOrder s.refreshService := by
  refine .ite h (serviceChange (logEvent ?_))
  exact { h with }

theorem fenceRegionNow : InOrder (s.fenceRegionNow p) := .ite h h.onRegion.damageLease.refreshService

theorem fenceCellNow {c : PhysCell} : InOrder (s.fenceCellNow c) :=
  .ite h (.ite h.setRegion.damageLease h.fenceRegionNow)

theorem fenceNow {c : Option PhysCell} : InOrder (s.fenceNow p c) := by
  cases c with
  | none => exact h.fenceRegionNow
  | some c => exact h.fenceCellNow

theorem fenceFree {c : Option PhysCell} {cause : Nat} : InOrder (s.fenceFree p c cause) := by
  unfold State.fenceFree
  refine fenceNow ?_
  exact { h with ctxs := Mem.sortedFrom_map_if h.ctxs }

theorem fence {c : Option PhysCell} {cause : Nat} : InOrder (s.fence p c cause) := by
  unfold State.fence
  refine .ite h ?_
  extract_lets s₁ s₂
  have h₁ : InOrder s₁ := .ite h { h with }
  have h₂ : InOrder s₂ := h₁.logEvent
  split
  · exact h₂.onRegion
  · exact h₂.fenceFree

/-! ### Regions that leave a context -/

theorem keepRows {i : Nat} : InOrder (s.keepRows n i p) := by
  unfold State.keepRows
  exact { h.setRegion with cells := Mem.sortedFrom_map_if h.cells }

theorem keepWindows : InOrder (s.keepWindows n) := by
  unfold State.keepWindows
  extract_lets x s₁
  have h₁ : InOrder s₁ := h.foldl fun _ h => .ite h { h with }
  exact .ite h₁ h₁.setCtx

theorem leaveRegion {i : Nat} : InOrder (s.leaveRegion n i p) := by
  unfold State.leaveRegion
  exact foldl (fun _ h => h.fenceFree) h.keepRows.onRegion

theorem leaveRegions : InOrder (s.leaveRegions n) := h.keepWindows.foldl fun _ h => .ite h.leaveRegion h

theorem recordEnd {code : Nat} : InOrder (s.recordEnd n code) := { h with }

theorem endLease {k : Nat} : InOrder (s.endLease k) := by
  unfold State.endLease
  split
  · exact h
  · exact foldl (fun _ h => h.onRegion) { h with leases := Mem.del_sorted _ _ _ h.leases }

theorem endSession {k : Nat} : InOrder (s.endSession k) := by
  unfold State.endSession
  exact foldl (fun _ h => h.endLease) { h with sessions := Mem.del_sorted _ _ _ h.sessions }

/-! ### Kills -/

theorem beginKill {source : Nat} {e : ErrRec} {notice : Option (Nat × Nat)} : InOrder (s.beginKill n source e notice) :=
  .ite (setCtx (finishOn (.ite h.finishOn h))) h

theorem killOrJoin {source : Nat} {e : ErrRec} : InOrder (s.killOrJoin n source e) := .ite h.beginKill h.onCtx

protected theorem killStart : InOrder (killStart s n) := by
  unfold killStart
  dsimp only
  split
  · exact h
  · exact h.setCtx.killOrJoin

theorem sendKillNotice {k : Kill} : InOrder (s.sendKillNotice x k) := h.foldl fun _ h => h.onPort

theorem clearTraffic : InOrder (s.clearTraffic n) := by
  unfold State.clearTraffic
  extract_lets x s₁ s₂
  have h₂ : InOrder s₂ := foldl (fun _ h => h.freeLanding) (.ite h.onPorts h)
  exact { h₂.setCtx with }

theorem withReports {l : List FenceEvent} : InOrder { s with reports := l } := { h with }

protected theorem killReceipt : InOrder (killReceipt s n) := by
  unfold killReceipt
  extract_lets x
  split
  · exact h
  · have hw {x : Ctx} {l : List HbmWrite} {r : List FenceEvent} :
        InOrder (l.foldl (fun s h => hbmPoke s x h.addr h.len h.data) { s.keepWindows n with reports := r }) :=
      h.keepWindows.withReports.foldl fun _ h => h.hbmPoke
    exact .ite (.ite hw.emitOut.setCtx.clearTraffic.onCells.sendKillNotice hw.emitOut.setCtx.clearTraffic.onCells) h

protected theorem killEnd : InOrder (killEnd s n) := by
  unfold killEnd
  dsimp only
  split
  · exact h
  · exact .ite h.leaveRegions.onCtx.recordEnd.ctxEvent.finishOn h

theorem enterUnrecoverable : InOrder s.enterUnrecoverable := by
  refine .ite h (foldl (fun _ h => foldl (fun _ h => h.finish) (.ite h.addEvent h)) (emitOut (onPorts ?_)))
  refine foldl (fun _ h => .ite (h.foldl fun _ h => h.onPort) h) (logEvent ?_)
  exact { h with }

theorem execKillTimer {n : Fin 32} : NextInOrder (execKillTimer n s) := by
  refine .next ?_
  dsimp only
  split
  · exact h
  · exact .ite h.enterUnrecoverable h

/-! ### Start and completion of a context, and dumps -/

protected theorem contextStart : InOrder (contextStart s n) :=
  .ite (.ite h.freeze.setCtx.resumeHold h.freeze.setCtx.openCtx) h

protected theorem contextComplete : InOrder (contextComplete s n) := by
  refine .ite (ctxEvent (onCtx (recordEnd (leaveRegions ?_)))) h
  exact h.finishOn.foldl fun _ h => h.freeLanding

theorem execSummaryTimer {n : Fin 32} : NextInOrder (execSummaryTimer n s) :=
  .next (.ite (h.setCtx.foldl fun _ h => h.onPort) h)

omit h in
protected theorem pokeBytes {l : List Byte} : ∀ {s : State} {addr : Nat}, InOrder s → InOrder (pokeBytes s x addr l) := by
  induction l with
  | nil => exact fun h => h
  | cons b l ih => exact fun h => ih (.ite h.onRegion h)

protected theorem dumpDone : InOrder (dumpDone s n) := by
  unfold dumpDone
  dsimp only
  split
  · exact h
  · refine .ite ?_ h
    split
    · exact h.pokeBytes.setCtx.emitOut.ctxEvent.beginKill
    · exact h.pokeBytes.setCtx.emitOut.ctxEvent
    · exact h.pokeBytes.setCtx.emitOut.finishOn

/-! ### Commands of the hosts -/

theorem execMsixTimer : NextInOrder (execMsixTimer f s) := .next (.ite h.setFn.fireMsix h)

theorem execCommandFetch {entry : Option Codeword} : NextInOrder (execCommandFetch f entry s) := .next (.ite h.onFn h)

protected theorem accept : InOrder (accept s f seq) := by
  unfold accept
  dsimp only
  split
  · exact h
  · exact .ite h (.ite h.finish (.ite h.finish (.ite h.finish (.ite h.finish { h.setFn with }))))

theorem withCmd {op : Nat} {body : Cmd → Nat → State} (hb : ∀ c n, InOrder (body c n)) :
    InOrder (s.withCmd f seq op body) := by
  unfold State.withCmd
  split
  · exact .ite (.ite h.finish (hb _ _)) h
  · exact h

theorem execOpenSession : NextInOrder (execOpenSession f seq s) := by
  refine .next (h.withCmd fun _ _ => ?_)
  split
  · refine finish ?_
    exact { h with sessions := Mem.sortedFrom_put h.sessions }
  · exact h.finish

theorem execCloseSession : NextInOrder (execCloseSession f seq s) :=
  .next (h.withCmd fun _ _ => .ite h.finish (.ite h.finish h.endSession.finish))

theorem execSetHostWindow : NextInOrder (execSetHostWindow f seq s) :=
  .next (h.withCmd fun _ _ => .ite h.finish h.onCtx.finish)

theorem execLaunch : NextInOrder (execLaunch f seq s) := .next (h.withCmd fun _ _ => .ite h.finish h.onCtx.finish)

theorem execKill : NextInOrder (execKill f seq s) := .next (h.withCmd fun _ _ => .ite h.beginKill (.ite h h.finish))

protected theorem hostKillWrite {v : Word} : InOrder (hostKillWrite s f v) := by
  unfold hostKillWrite
  split
  · exact .ite h.beginKill h
  · exact h

theorem dropCtx : InOrder (s.dropCtx n) := by
  unfold State.dropCtx
  extract_lets x s₁
  have h₁ : InOrder s₁ := h.onFn
  exact { h₁ with ctxs := Mem.del_sorted _ _ _ h.ctxs, cells := Mem.filter_sorted _ _ _ h.cells }

theorem execRelease : NextInOrder (execRelease f seq s) :=
  .next (h.withCmd fun _ _ => .ite h (dropCtx (finish (.ite h.leaveRegions.clearTraffic h.clearTraffic))))

theorem execDump : NextInOrder (execDump f seq s) := .next (h.withCmd fun _ _ => .ite h.onCtx h.finish)

theorem execLeaseCreate : NextInOrder (execLeaseCreate f seq s) := by
  refine .next (h.withCmd fun _ _ => .ite h.finish ?_)
  split
  · exact h.finish
  · refine finish ?_
    exact { h with leases := Mem.sortedFrom_put h.leases }

theorem execLeaseRelease : NextInOrder (execLeaseRelease f seq s) := by
  refine .next (h.withCmd fun _ _ => ?_)
  dsimp only
  split
  · exact h.finish
  · exact .ite h.finish (.ite h.finish h.endLease.finish)

/-! ### Register writes -/

protected theorem writeFn {off : Nat} {v : DWord} : InOrder (writeFn s f off v) :=
  .ite h.hostKillWrite (.ite h.onFn.signalNow h.onFn)

theorem sendPending : InOrder (s.sendPending f) := h.foldl fun _ h => .ite h.setFn.emitOut h

theorem clearQuotas {k : Fin 2} : InOrder (s.clearQuotas k) := { h with fns := Mem.sortedFrom_map_if h.fns }

protected theorem writeCfg {field : CfgField} {v : DWord} : InOrder (writeCfg s f field v) :=
  .ite h (sendPending (onFn (.ite h.clearQuotas h)))

protected theorem writeMsix {off : Nat} {v : DWord} : InOrder (writeMsix s f off v) :=
  .ite h (.ite h.setFn (.ite h.setFn.sendPending h))

protected theorem writeModule {off : Nat} {v : DWord} : InOrder (writeModule s off v) :=
  .ite h.onPort (.ite { h with } (.ite { h with } h))

protected theorem writeRegion {r off : Nat} {v : DWord} : InOrder (writeRegion s f n r off v) :=
  .ite h.onRegion (.ite (.ite (.ite h.setComb h.onFn) (.ite h.setComb h)) h)

theorem whenLoaded {k : Nat} {body : Nat → State} (hb : ∀ n, InOrder (body n)) : InOrder (s.whenLoaded f k body) := by
  unfold State.whenLoaded
  split
  · exact .ite (hb _) h.onFn
  · exact h.onFn

protected theorem writeTarget {t : RegTarget} {value : DWord} : InOrder (writeTarget t value s) := by
  cases t with
  | config f field => exact h.writeCfg
  | fn f off => exact h.writeFn
  | msix f off => exact h.writeMsix
  | moduleWin f off => exact .ite h.writeModule h
  | ctxWin f k off =>
    unfold writeTarget
    dsimp only
    split
    · exact h.onCtx
    · exact h
  | regionWin f k r off => exact h.whenLoaded fun _ => .ite h.writeRegion h
  | cellWin f k id off => exact h.whenLoaded fun _ => .ite h.onCell h

/-! ### LOAD, and resets of functions -/

theorem execLoad : NextInOrder (execLoad f seq s) := by
  refine .next (h.withCmd fun _ _ => ?_)
  split
  · exact h.finish
  · extract_lets classes service s₁ s₂ s₃
    have h₃ : InOrder s₃ := h.setCtx.onFn.foldl fun _ h => h.onRegion
    clear_value s₃
    exact { h₃ with }

theorem refuseLoad {status : Nat} : InOrder (s.refuseLoad n status) := h.finishOn.dropCtx

theorem forgetRegion : InOrder (s.forgetRegion p) := { h with cells := Mem.filter_sorted _ _ _ h.cells }

theorem withdrawFences : InOrder (s.withdrawFences n p) := by
  unfold State.withdrawFences
  dsimp only
  split
  · exact h
  · exact h.onRegion

omit h in
theorem sortedFrom_foldl_put {l m : Mem Cell} (hm : Mem.sortedFrom none m) :
    Mem.sortedFrom none (l.foldl (fun m e => Mem.put m e.1 e.2) m) :=
  foldl_keeps (fun m => Mem.sortedFrom none m) _ (fun _ _ hm => Mem.sortedFrom_put hm) l m hm

theorem bindRegion {b : List Byte} {i : Nat} : InOrder (s.bindRegion b n i p) := by
  unfold State.bindRegion
  extract_lets s₁ r z cells s₂
  have h₂ : InOrder s₂ := h.forgetRegion.withdrawFences.setRegion
  clear_value cells s₂
  exact { h₂ with cells := sortedFrom_foldl_put h₂.cells }

theorem bindContext {b : List Byte} {l : List Nat} : InOrder (s.bindContext n b l) := by
  unfold State.bindContext
  extract_lets info s₁ s₂ src s₃
  have h₂ : InOrder s₂ := h.onCtx.foldl fun _ h => h.bindRegion
  have hsrc : InOrder src := h₂.refreshService
  have h₃ : InOrder s₃ := { hsrc with }
  exact h₃.onCtx.finishOn

protected theorem placeLoad {b : List Byte} : InOrder (placeLoad s n b) := by
  unfold placeLoad
  split
  · exact h.refuseLoad
  · split
    · exact h.bindContext
    · refine refuseLoad ?_
      exact { h with }

protected theorem readImage {image : Option (List Byte)} : InOrder (readImage s n image) := by
  unfold readImage
  dsimp only
  split
  · exact h.refuseLoad
  · split
    · exact h.refuseLoad
    · split
      · exact h.setCtx.beginKill
      · exact h.setCtx

protected theorem loadComplete {image : Option (List Byte)} : InOrder (loadComplete s n image) := by
  unfold loadComplete
  refine .ite h ?_
  extract_lets s₁
  have h₁ : InOrder s₁ := .ite h h.readImage
  split
  · exact .ite h₁.placeLoad h₁
  · exact h₁

theorem resetFns {hit : FnRef → Bool} {quota : Bool} {flr : Nat} : InOrder (s.resetFns hit quota flr) := by
  unfold State.resetFns
  extract_lets mine s₁ s₂
  have h₁ : InOrder s₁ := h.foldl fun _ h => .ite h.dropCtx (.ite h.beginKill h)
  have h₂ : InOrder s₂ := h₁.foldl fun _ h => h.endSession
  exact { h₂ with fns := Mem.sortedFrom_map_if h₂.fns }

theorem resetPort {k : Fin 2} {flr : Nat} : InOrder (s.resetPort k flr) := h.resetFns

theorem execFunctionLevelReset : NextInOrder (execFunctionLevelReset f s) := .next (.ite h.resetPort h.resetFns)

end InOrder
end Sys2Proof.Machine
end

section
/-!
SUPPORT. Placement and fencing: the negotiation of ports, and what the messages of the links do where they arrive, keep the
tables in order.
-/
namespace Sys2Proof.Machine
namespace InOrder

variable {s t : State} {n p : Nat} {f : Flit} {src : MsgSrc} (h : InOrder s)
include h

/-! ### Negotiation of a port -/

theorem sendWord : InOrder (s.sendWord p) := by
  unfold State.sendWord
  exact h.onPort.emitOut

theorem wordTimer : InOrder (s.wordTimer p) := .ite h.sendWord h

theorem downForContexts : InOrder (s.downForContexts p) := h.foldl fun _ h => h.onPort.killOrJoin

theorem portDown {mismatch : Bool} : InOrder (s.portDown p mismatch) := h.onPort.downForContexts

theorem enterDetect : InOrder (s.enterDetect p) := h.onPort

theorem execSignalDetect {p : Fin 16} {lanes : BitVec 2} : NextInOrder (execSignalDetect p lanes s) :=
  .next (.ite h.onPort.sendWord h)

theorem execModeSelect {p : Fin 16} {mode : BitVec 4} {lanes : BitVec 2} : NextInOrder (execModeSelect p mode lanes s) := by
  refine .next (.ite ?_ h)
  dsimp only
  split
  · exact h.portDown
  · exact .ite h.setPort.emitOut h.setPort.emitOut.sendWord

theorem execTrainRound {p : Fin 16} {e₀ e₁ : Nat} {inverted pass : BitVec 2} :
    NextInOrder (execTrainRound p e₀ e₁ inverted pass s) :=
  .next (.ite (.ite h.setPort (.ite h.portDown h.setPort)) (.ite h.setPort h))

theorem execAlignDone {p : Fin 16} {rtt : BitVec 16} : NextInOrder (execAlignDone p rtt s) :=
  .next (.ite (.ite h.setPort.portDown (.ite h.setPort.downForContexts h.setPort)) h)

theorem execNegotiationTimeout {p : Fin 16} : NextInOrder (execNegotiationTimeout p s) := .next (.ite h.portDown h)

theorem execDownWait {p : Fin 16} : NextInOrder (execDownWait p s) := .next (.ite h.enterDetect h)

theorem execRetrainTimeout {p : Fin 16} : NextInOrder (execRetrainTimeout p s) := by
  refine .next ?_
  dsimp only
  split
  · exact .ite h.setPort.downForContexts h
  · exact h

/-! ### Taking a message -/

theorem leavePort {k : Nat} : InOrder (s.leavePort p f k) := h.onPort

protected theorem scheduled {mtype : BitVec 6} {act : State → Nat → Flit → State}
    (hact : ∀ {t} n f, InOrder t → InOrder (act t n f)) : InOrder (scheduled s p mtype act) := by
  unfold scheduled
  split
  · exact h
  case h_2 ht =>
    have ht := h.takeRx ht
    split
    · exact ht.leavePort
    · exact .ite ht.leavePort (.ite ht.leavePort.linkPlan (.ite ht.leavePort.forward (hact _ _ ht)))

protected theorem looseMsg {mtype : BitVec 6} {act : State → Nat → List Flit → State}
    (hact : ∀ {t} n fs, InOrder t → InOrder (act t n fs)) : InOrder (looseMsg s p mtype act) := by
  unfold looseMsg
  split
  · exact h
  case h_2 ht =>
    have ht := h.takeRx ht
    extract_lets q fs t'
    have ht' : InOrder t' := .ite ht.setPort (.ite ht.setPort ht.setPort)
    split
    · exact ht'
    · exact .ite ht' (.ite ht'.linkPlan (.ite ht' (.ite ht'.forward (hact _ _ ht'))))

protected theorem controlMsg {mtype : BitVec 6} {act : State → Nat → Flit → State}
    (hact : ∀ {t} n f, InOrder t → InOrder (act t n f)) : InOrder (controlMsg s p mtype act) := by
  unfold controlMsg
  split
  · exact h
  case h_2 ht =>
    have ht := h.takeRx ht
    split
    · exact ht
    · exact .ite ht.forward (hact _ _ ht)

theorem takeTransit {i : Nat} {want : Loose → Bool} {l : Loose} (ht : s.takeTransit i want = some (l, t)) : InOrder t := by
  unfold State.takeTransit at ht
  split at ht
  · obtain ⟨-, ht⟩ := Option.ite_none_right_eq_some.1 ht
    cases ht
    exact { h with }
  · cases ht

/-! ### Scheduled messages -/

protected theorem vacantArrives : InOrder (vacantArrives s p) := by
  refine h.scheduled fun _ _ h => ?_
  dsimp only
  split
  · exact h.leavePort.linkPlan
  · exact .ite h.setCtx.emit h.setCtx

theorem withFree {k : Nat} : InOrder { s with free := k } := { h with }

protected theorem rowArrives : InOrder (rowArrives s p) := by
  refine h.scheduled fun _ _ h => ?_
  dsimp only
  split
  · exact h.leavePort.linkPlan
  · split
    · exact h.setCtx.withFree.emit
    · exact h.setCtx

protected theorem reduceArrives : InOrder (reduceArrives s p) := by
  refine h.scheduled fun _ _ h => ?_
  dsimp only
  split
  · exact h.leavePort.linkPlan
  · split
    · exact h.setCtx.emit
    · exact h.setCtx

/-! ### Loose messages -/

theorem bringRow {id : CellId} {r : LooseRow} : InOrder (s.bringRow n id r) := h.onCell

theorem bringSignal {id : CellId} {k : BitVec 6} {bytes : Nat} : InOrder (s.bringSignal n id k bytes) := h.emit

protected theorem rowLooseArrives : InOrder (rowLooseArrives s src) := by
  unfold rowLooseArrives
  split
  · refine h.looseMsg fun _ _ h => ?_
    split
    · exact h.withFree.bringRow
    · exact h
  · split
    case h_1 ht => exact (h.takeTransit ht).bringRow
    · exact h

protected theorem signalArrives : InOrder (signalArrives s src) := by
  unfold signalArrives
  split
  · refine h.looseMsg fun _ _ h => ?_
    split
    · exact h.bringSignal
    · exact h
  · split
    case h_1 ht => exact (h.takeTransit ht).bringSignal
    · exact h

protected theorem qmsgArrives : InOrder (qmsgArrives s src) := by
  unfold qmsgArrives
  split
  · refine h.looseMsg fun _ _ h => ?_
    split
    · dsimp only
      split
      · exact h
      · exact h.arriveMessage
    · exact h
  · split
    case h_1 ht => exact (h.takeTransit ht).arriveMessage
    · exact h

protected theorem contribArrives : InOrder (contribArrives s src) := by
  unfold contribArrives
  split
  · refine h.looseMsg fun _ _ h => ?_
    split
    · dsimp only
      split
      · exact h
      · exact h.arriveContrib
    · exact h
  · split
    case h_1 ht => exact (h.takeTransit ht).arriveContrib
    · exact h

protected theorem linkResult : InOrder (linkResult s n f) := by
  unfold linkResult
  dsimp only
  split
  · exact h.applyResult
  · exact .ite h.combResult h

/-! ### Barriers beyond the module, and delivery at the receive side -/

protected theorem partnerArrived : InOrder (partnerArrived s n f) := .ite h.setCtx h.setCtx.emit

protected theorem partnerReleased : InOrder (partnerReleased s n f) := by
  unfold partnerReleased
  dsimp only
  split
  · exact h
  · exact .ite h h.releaseGen.onCtx

protected theorem takeEffect : InOrder (takeEffect s n f) :=
  .ite h.linkResult (.ite h.partnerArrived (.ite h.partnerReleased h))

theorem deliver : InOrder (s.deliver n p f) := .ite h.onCtx h.takeEffect

theorem deliverWaiting : InOrder (s.deliverWaiting n) := .ite h (h.onCtx.foldl fun _ h => h.takeEffect)

theorem execBarArrive {p : Fin 16} : NextInOrder (execBarArrive p s) :=
  .next (h.looseMsg fun _ _ h => h.foldl fun _ h => h.deliver)

theorem execBarRelease {p : Fin 16} : NextInOrder (execBarRelease p s) :=
  .next (h.looseMsg fun _ _ h => h.foldl fun _ h => h.deliver)

protected theorem qresultArrives : InOrder (qresultArrives s src) := by
  unfold qresultArrives
  split
  · exact h.looseMsg fun _ _ h => h.foldl fun _ h => h.deliver
  · split
    case h_1 ht => exact (h.takeTransit ht).applyResult
    · exact h

/-! ### Summaries and notices -/

protected theorem summaryArrives : InOrder (summaryArrives s p) := by
  refine h.looseMsg fun _ _ h => ?_
  split
  · exact h.onCtx
  · exact h

protected theorem holdNotice : InOrder (holdNotice s p) := h.controlMsg fun _ _ h => h.onCtx

theorem execReleaseNotice {p : Fin 16} : NextInOrder (execReleaseNotice p s) := .next (h.controlMsg fun _ _ h => h)

theorem keepNotice {tag : BitVec 16} {dome : Nat} : InOrder (s.keepNotice tag dome p) := by
  unfold State.keepNotice
  extract_lets s₁
  have h₁ : InOrder s₁ := h.onPort
  exact { h₁ with }

protected theorem killNotice : InOrder (killNotice s p) := by
  unfold killNotice
  split
  · exact h
  case h_2 ht =>
    have ht := h.takeRx ht
    dsimp only
    split
    · exact ht.keepNotice
    · exact .ite ht (.ite ht.beginKill ht)

end InOrder
end Sys2Proof.Machine
end

section
/-!
SUPPORT. Placement and fencing: time alignment, power, bring-up and resets keep the tables in order, and a loss of power
empties them.
-/
namespace Sys2Proof.Machine
namespace InOrder

variable {s t : State} {n p : Nat} {f : FnRef} {dur : Nat}

/-! ### Parts of the state beside the tables -/

/-- A loss of power leaves every table empty. -/
theorem lose {goal : BringUp} : InOrder (s.lose goal) := ⟨rfl, rfl, rfl, rfl, rfl, rfl, rfl⟩

section
variable (h : InOrder s)
include h

theorem withClock {k : Clocks} : InOrder { s with clock := k } := { h with }
theorem withPower {w : Power} : InOrder { s with power := w } := { h with }
theorem withBring {b : Bring} : InOrder { s with bring := b } := { h with }
theorem withClockBring {k : Clocks} {b : Bring} : InOrder { s with clock := k, bring := b } := { h with }
theorem withBringFree {b : Bring} {k : Nat} : InOrder { s with bring := b, free := k } := { h with }
theorem withLantern {l : Lantern} : InOrder { s with lantern := l } := { h with }

/-! ### The clock that is proposed and agreed -/

theorem sendHop {mtype : BitVec 6} {arg payload : Nat} : InOrder (s.sendHop p mtype arg payload) := h.onPort

theorem agree {at' khz : Nat} : InOrder (s.agree at' khz) := h.withClock

theorem sendDown {payload : Nat} : InOrder (s.sendDown payload) := h.foldl fun _ h => h.sendHop

theorem decideClock : InOrder s.decideClock := h.agree.sendDown

theorem sendProposal : InOrder s.sendProposal := by
  refine .ite h.decideClock ?_
  split
  · exact h.sendHop
  · exact h

theorem propose : InOrder s.propose := .ite h (.ite h.withClock.sendProposal.agree h.withClock.sendProposal)

protected theorem frequencyChange : InOrder (frequencyChange s) := by
  unfold frequencyChange
  split
  · exact .ite h.withClock h
  · exact h

protected theorem clockAgree : InOrder (clockAgree s p) := by
  unfold clockAgree
  split
  · exact h
  case h_2 ht =>
    have ht := h.takeRx ht
    refine .ite (.ite ht (.ite ht.withClock.withClock.decideClock ?_)) (.ite ?_ ht)
    · split
      · exact ht.withClock.sendHop
      · exact ht.withClock
    · extract_lets t'
      have ht' : InOrder t' := .ite ht.sendDown ht
      exact .ite ht'.agree ht'.sendProposal

/-! ### Time inputs -/

theorem takeInput {r : Nat × Option Nat} : InOrder (s.takeInput r) := by
  unfold State.takeInput
  exact (h.foldl fun _ h => h.onPort).withClock

theorem forgetRoles : InOrder s.forgetRoles := h.onPorts

protected theorem timeInputLost : InOrder (timeInputLost s) := by
  unfold timeInputLost
  split
  · exact h
  · exact .ite h.onPort.forgetRoles.takeInput.withClock h

theorem execReferenceLost : NextInOrder (execReferenceLost s) := .next (.ite h.withClock h)

theorem takeOffset {o : BitVec 24} : InOrder (s.takeOffset p o) := h.withClock

protected theorem referenceRestored {o : BitVec 24} : InOrder (referenceRestored s o) := by
  unfold referenceRestored
  dsimp only
  split
  · exact h
  · exact .ite h.takeInput.takeOffset (.ite h.withClock h)

protected theorem timeSyncTimer : InOrder (timeSyncTimer s) := by
  unfold timeSyncTimer
  split
  · exact h
  · exact .ite h.sendHop.withClock h

theorem leaveMember : InOrder (s.leaveMember p) := .ite h.takeInput h

protected theorem timeSync : InOrder (timeSync s p) := by
  unfold timeSync
  split
  · exact h
  case h_2 ht =>
    have ht := h.takeRx ht
    exact .ite ht.onPort.sendHop (.ite ht.onPort.withClock.takeOffset.leaveMember ht.onPort)

/-! ### Supplies, caps and sensors -/

protected theorem supplyInRange {first : Byte} {v54 v12 : Nat} : InOrder (supplyInRange s first v54 v12) :=
  .ite (.ite h.withPower.withBring h.withPower) h

theorem leaveRange : InOrder s.leaveRange := .ite h.withBring h

protected theorem supplyLow {mv : Nat} : InOrder (supplyLow s mv) := .ite h.leaveRange.withPower.holdAll h

protected theorem supplyRestored {mv : Nat} : InOrder (supplyRestored s mv) := by
  refine .ite ?_ h
  exact { h with }

protected theorem shutdown {cause : ShutCause} : InOrder (shutdown s cause) := by
  refine .ite ?_ h
  cases cause <;> exact lose.withPower

protected theorem v12Excursion {mv us : Nat} : InOrder (v12Excursion s mv us) := .ite h.leaveRange.withPower h

protected theorem v54High {mv : Nat} : InOrder (v54High s mv) := .ite h.leaveRange.withPower h

theorem lateStart : InOrder s.lateStart := { h with }

protected theorem presentMate : InOrder (presentMate s) := .ite h.withPower.lateStart h.withPower

protected theorem powerSample {a b c : Nat} : InOrder (powerSample s a b c) :=
  .ite h.withPower.withPower.holdAll (.ite h.withPower.withPower h.withPower)

protected theorem measuredCapStep : InOrder (measuredCapStep s) := .ite h.withClock.propose (.ite h.withClock.propose h)

protected theorem thermalCapStep : InOrder (thermalCapStep s) := .ite h.withClock.propose (.ite h.withClock.propose h)

theorem readSensor {k : Nat} {v : BitVec 16} : InOrder (s.readSensor k v) := h.withPower

protected theorem sensorHold {k : Nat} {v : BitVec 16} : InOrder (sensorHold s k v) :=
  .ite h.readSensor.withPower.holdAll h.readSensor

protected theorem sensorRelease {k : Nat} {v : BitVec 16} : InOrder (sensorRelease s k v) :=
  .ite h.readSensor.withPower h.readSensor

protected theorem overtempShutdown {k : Nat} {v : BitVec 16} : InOrder (overtempShutdown s k v) := .ite lose h.readSensor

/-! ### Stages of bring-up -/

theorem stageRecord {stage result : Nat} {detail : List (Nat × Nat × Nat)} :
    InOrder (s.stageRecord stage result dur detail) := h.withBring

theorem stageDone {stage : Nat} : InOrder (s.stageDone stage) := h.withClockBring

theorem stageFatal : InOrder s.stageFatal := h.withBring

theorem atStage {stage : Nat} {body : State → State} (hb : InOrder (body s)) : InOrder (s.atStage stage body) := .ite hb h

theorem defaultGroup {g : Nat} : InOrder (s.defaultGroup g) := h.withLantern.logEvent

theorem countStart : InOrder s.countStart := .ite h h.withLantern

protected theorem stageS0 {bad : BitVec 18} {badLogs : DWord} : InOrder (stageS0 s dur bad badLogs) := by
  have hs {l : Lantern} {lost : List Nat} : InOrder (lost.foldl State.defaultGroup { s with lantern := l }).countStart :=
    (h.withLantern.foldl fun _ h => h.defaultGroup).countStart
  exact h.atStage (.ite hs.stageRecord.stageFatal hs.stageRecord.stageDone)

protected theorem stageS1 : InOrder (stageS1 s dur) := by
  refine h.atStage ?_
  dsimp only
  split
  · exact h.stageRecord.withBring
  · exact h.withLantern.stageRecord.stageDone

protected theorem stageS2 {ok : Bool} {ppb : Word} : InOrder (stageS2 s dur ok ppb) :=
  h.atStage (.ite h.stageRecord.withClock.withClock.stageDone h.stageRecord.stageFatal)

theorem fenceRegions {l : List Nat} : InOrder (s.fenceRegions l) := h.foldl fun _ h => h.fenceRegionNow

protected theorem stageS3 {failed : BitVec 256} : InOrder (stageS3 s dur failed) :=
  h.atStage (.ite h.fenceRegions.withBring.stageRecord.stageFatal h.fenceRegions.withBring.stageRecord.stageDone)

theorem reapply : InOrder s.reapply := (h.foldl fun _ h => h.fenceCellNow).fenceRegions

protected theorem stageS4 {failed : List PhysCell} : InOrder (stageS4 s dur failed) := by
  have hs : InOrder (failed.foldl State.fenceCellNow s).reapply := (h.foldl fun _ h => h.fenceCellNow).reapply
  exact h.atStage (.ite hs.stageRecord.stageFatal hs.stageRecord.stageDone)

theorem withService {m : Word} {k : Nat} : InOrder { s with inService := m, plcRegions := k } := { h with }

protected theorem stageS5 : InOrder (stageS5 s dur) :=
  h.atStage (.ite h.withService.stageRecord.stageFatal h.withService.stageRecord.stageDone)

protected theorem stageS6 {ok : Bool} {skew : Word} : InOrder (stageS6 s dur ok skew) :=
  h.atStage (.ite h.withBringFree.stageRecord.withBring.stageDone h.withBringFree.stageRecord.stageFatal)

protected theorem stageS7 {h₀ h₁ : PcieTrain} {refclk : BitVec 2} : InOrder (stageS7 s dur h₀ h₁ refclk) :=
  h.atStage (h.withBring.stageRecord.stageDone.foldl fun _ h => h.enterDetect)

protected theorem stageS8 : InOrder (stageS8 s dur) := h.atStage h.stageRecord.stageDone

protected theorem stageS9 : InOrder (stageS9 s dur) :=
  h.atStage (h.onPorts.foldl fun _ h => h.portDown).stageRecord.stageDone

protected theorem stageS10 {time : Option Nat} {offset : BitVec 24} : InOrder (stageS10 s dur time offset) :=
  h.atStage h.withClock.takeInput.withClock.stageRecord.stageDone

theorem advanceSecurity : InOrder s.advanceSecurity := .ite h.withLantern.logEvent h

protected theorem stageS11 : InOrder (stageS11 s dur) :=
  h.atStage h.stageRecord.withClockBring.advanceSecurity.serviceChange

/-! ### Warm re-entry, register writes and resets -/

protected theorem reenter {v : Word} : InOrder (reenter s f v) := by
  refine .ite ?_ h
  have hkilled {l : List (Nat × Ctx)} {e : State → Nat × Ctx → ErrRec} :
      InOrder (l.foldl (fun s x => s.beginKill x.1 6 (e s x) none) s) := h.foldl fun _ h => h.beginKill
  exact (hkilled.onPorts.foldl fun _ h => h.enterDetect).withClockBring

theorem execRegisterWrite {r : RegTarget} {value : DWord} : NextInOrder (execRegisterWrite r value s) := by
  refine .next ?_
  split
  · exact .ite h.reenter h.writeTarget
  · exact h.writeTarget

theorem setTrain {k : Fin 2} {x : PcieTrain} : InOrder (s.setTrain k x) := h.withBring

theorem sampleRefclk {k : Fin 2} {present : Bool} : InOrder (s.sampleRefclk k present) := h.withBring

theorem execPerstDeassert {k : Fin 2} {refclk : Bool} {x : PcieTrain} : NextInOrder (execPerstDeassert k refclk x s) :=
  .next (.ite h.sampleRefclk.setTrain h)

protected theorem portReset {k : Fin 2} {kind : ResetKind} {x : PcieTrain} : InOrder (portReset s k kind x) :=
  .ite lose.lateStart h.resetPort.setTrain

theorem restartLantern {memoryError : Bool} : InOrder (s.restartLantern memoryError) := h.withLantern.logEvent

/-! ### Channels that retrain -/

protected theorem hbmCrossing {ch : Nat} : InOrder (hbmCrossing s p ch) := by
  unfold hbmCrossing
  extract_lets r s₁ s₂
  have h₁ : InOrder s₁ := h.setRegion
  refine refreshService ?_
  unfold s₂
  split
  · exact h₁.emit
  · exact h₁

protected theorem crossingTimeout {x : Crossing} : InOrder (crossingTimeout s x) := by
  cases x with
  | pcie k => exact h.withClock.resetPort
  | silide p => exact h.withClock.portDown
  | hbm r ch => exact h.withClock.hbmCrossing
  | lantern => exact h.withClock.restartLantern

protected theorem hbmChannelRetrain {ch : Nat} {ok : Bool} : InOrder (hbmChannelRetrain s p ch ok) := by
  refine .ite (refreshService ?_) h
  refine .ite h.setRegion ?_
  split
  · exact h.setRegion.onRegion
  · exact h.setRegion.fenceFree

end
end InOrder
end Sys2Proof.Machine
end

section
/-!
SUPPORT. Placement and fencing: the lantern, with its object dictionary, fence commands and MCTP messages, keeps the tables
in order.
-/
namespace Sys2Proof.Machine
namespace InOrder

variable {s : State} {q : ReqPath} {r : OdReq} {data : List Byte} {fails : Bool} {w : Word} (h : InOrder s)
include h

/-! ### Unit records -/

theorem takeRecord {e : FenceEvent} : InOrder (s.takeRecord e) := h.fence

theorem execFenceRecord {e : FenceEvent} : NextInOrder (execFenceRecord e s) :=
  .next (.ite (.ite h.withReports.withLantern h.withReports.withLantern) h.withReports.takeRecord)

/-! ### Requests, and what they answer -/

theorem mctpOut {msg : List Byte} : InOrder (s.mctpOut q msg) := .ite h.onPort h.emitOut

theorem served {body : State → State × Nat × List Byte} (hb : InOrder (body s).1) : InOrder (s.served q r body) :=
  .ite h (mctpOut (.ite_fst h hb))

protected theorem odReadBody : InOrder (odReadBody q r s).1 := by
  refine .ite_fst h ?_
  split
  · exact h
  · refine .ite_fst h (.ite_fst h (.ite_fst h ?_))
    split <;> exact h

protected theorem odInfoBody : InOrder (odInfoBody r s).1 := by
  refine .ite_fst h ?_
  split
  · exact h
  · exact .ite_fst h h

/-! ### What a WRITE does -/

theorem storeGroup {g : Nat} {od : OdVals} : InOrder (s.storeGroup g od).1 := .ite_fst h (.ite_fst h h.withLantern)

protected theorem writeScalar {d : OdDef} {idx sub v : Nat} : InOrder (writeScalar s d idx sub v).1 := by
  unfold writeScalar
  split
  · exact h
  · extract_lets stored changed
    have hstored : InOrder stored.1 := h.storeGroup
    refine .ite_fst ?_ (.ite_fst ?_ hstored)
    · exact .ite hstored.logEvent.propose hstored.logEvent
    · dsimp only
      exact hstored.tellAllCe

protected theorem fenceWrite : InOrder (fenceWrite s w).1 := by
  unfold fenceWrite
  split
  · exact h
  · exact .ite_fst h h.fence

protected theorem unfenceWrite : InOrder (unfenceWrite s w).1 := by
  unfold unfenceWrite
  split
  · exact h
  · exact .ite_fst h (.ite_fst h h.withLantern.logEvent)

protected theorem imageWrite {off : Nat} : InOrder (imageWrite s off data).1 := .ite_fst h h.withLantern

protected theorem commitWrite {v : Nat} : InOrder (commitWrite s v).1 :=
  .ite_fst h (.ite_fst (.ite lose.lateStart h.withLantern.logEvent) h.withLantern)

protected theorem nonceWrite {off : Nat} : InOrder (nonceWrite s q off data).1 := h.withLantern

protected theorem writeEntry {d : OdDef} {idx sub off : Nat} : InOrder (writeEntry s q d idx sub off data).1 :=
  .ite_fst (.ite_fst h.fenceWrite h.unfenceWrite)
    (.ite_fst h.imageWrite (.ite_fst h.commitWrite (.ite_fst h.nonceWrite h.writeScalar)))

protected theorem odWriteBody : InOrder (odWriteBody q r data fails s).1 := by
  refine .ite_fst h ?_
  split
  · exact h
  · exact .ite_fst h (.ite_fst h (.ite_fst h (.ite_fst h (.ite_fst h h.writeEntry))))

protected theorem odBody : InOrder (odBody q r data fails s).1 := by
  unfold odBody
  split
  · exact h.odReadBody
  · exact h.odWriteBody
  · exact h.odInfoBody
  · exact h

theorem odServe : InOrder (s.odServe q r data fails) := h.served h.odBody

/-! ### Attestation, and the lantern's restart -/

protected theorem attestReport : InOrder (attestReport s q) := by
  unfold attestReport
  split
  · refine .ite ?_ h
    exact { h with }
  · exact h

theorem execDoeRequest {host : Fin 2} {o : DoeObject} : NextInOrder (execDoeRequest host o s) := by
  refine .next (.ite ?_ h)
  split
  · exact h.emitOut
  · exact h.emitOut.withFree

theorem execLanternRestart {memoryError : Bool} : NextInOrder (execLanternRestart memoryError s) :=
  .next (.ite h h.restartLantern)

protected theorem restartComplete : InOrder (restartComplete s) := by
  refine .ite ?_ h
  split
  · exact h.withLantern
  · exact h.withLantern.foldl fun _ h => h.takeRecord

/-! ### MCTP -/

theorem control {c : ControlReq} {cmd : Byte} {body : State → State × List Byte} (hb : InOrder (body s).1) :
    InOrder (s.control c cmd body) := .ite (mctpOut hb) h

protected theorem setEidBody {m : Medium} {eid : Byte} : InOrder (setEidBody m eid s).1 := .ite_fst h h.withLantern

theorem controlRequest {c : ControlReq} {cmd : Byte} : InOrder (s.controlRequest c cmd data) := by
  unfold State.controlRequest
  generalize (if (data.getD 0 0).toNat % 4 < 2 then data.getD 1 0 else 0) = eid
  split
  · exact h.control h.setEidBody
  all_goals exact h.control h

theorem message {msg : List Byte} : InOrder (s.message msg) := by
  unfold State.message
  split
  · exact .ite h.odServe h
  · exact .ite h.controlRequest h
  · exact h

theorem packet {pkt : List Byte} : InOrder (s.packet pkt) := by
  unfold State.packet
  dsimp only
  split
  · exact h.withLantern
  · exact h.withLantern.withLantern.message

theorem execMgmt {p : Fin 16} : NextInOrder (execMgmt p s) := by
  refine .next ?_
  split
  · exact h
  case h_2 ht =>
    have ht := h.takeRx ht
    exact .ite ht.leavePort.packet ht.leavePort

theorem execEntdaa {addr : BitVec 7} : NextInOrder (execEntdaa addr s) := .next (.ite h h.withLantern)

end InOrder
end Sys2Proof.Machine
end

section
/-!
SUPPORT. Placement and fencing: every command and every core clock cycle keeps the tables in order, and so does every step
(O4).
-/
namespace Sys2Proof.Machine

theorem cellOf_of_slotOf {i : Instr} {sl : Slot} (hs : Sys2Proof.slotOf i = some sl) : ∃ c, cellOf i = some c := by
  cases i <;> cases hs <;> exact ⟨_, rfl⟩

namespace InOrder

variable {s : State} {n : Nat} {i : Instr} (h : InOrder s)
include h

/-! ### Commands -/

theorem exec_of_slot {sl : Slot} (hs : Sys2Proof.slotOf i = some sl) : NextInOrder (exec i s) := by
  obtain ⟨c, hc⟩ := cellOf_of_slotOf hs
  obtain ⟨body, hbody⟩ := exec_eq_issueSlot hs hc
  rw [hbody]
  exact .next h.issueSlot

theorem exec_of_no_slot (hs : Sys2Proof.slotOf i = none) : NextInOrder (exec i s) := by
  cases i with
  | resultLanding _ => exact .next h.landAll
  | passStep _ => exact h.execPassStep
  | rowPipeIssue _ _ => exact .next h.rowPipe
  | streamBoundary _ _ => exact h.execStreamBoundary
  | indexRowRead _ _ => exact h.execIndexRowRead
  | looseRowIssue _ _ => exact .next h.looseIssue
  | looseRowDone _ _ _ _ => exact .next h.looseDone.looseAnswered
  | looseLanding _ => exact .next h.looseLand
  | signalArrival _ => exact .next h.signalArrive
  | waitSatisfied _ => exact h.execWaitSatisfied
  | barrierRelease _ _ => exact .next h.barRelease
  | rejoinCheck _ _ => exact h.execRejoinCheck
  | rejoinResume _ _ => exact .next h.rejoinNow
  | messageProcessing _ => exact .next h.processMessage
  | contributionProcessing _ _ => exact .next h.processContrib
  | sumResend _ _ _ => exact h.execSumResend
  | fill _ _ _ _ => exact .next h.mopWrite
  | copy _ _ _ _ => exact .next h.mopWrite
  | copyRowRead _ => exact h.execCopyRowRead
  | mopComplete _ => exact h.execMopComplete
  | queRingWrite _ _ _ => exact h.execQueRingWrite
  | registerWrite _ _ => exact h.execRegisterWrite
  | transferLanding _ => exact h.execTransferLanding
  | presenceCheck _ => exact .next h.presence
  | refreshDebt _ _ => exact h.execRefreshDebt
  | scrubRead _ => exact .next h.scrubRead
  | scrubStarve _ => exact h.execScrubStarve
  | hbmScrub _ _ _ _ => exact h.execHbmScrub
  | clearingDone _ => exact h.execClearingDone
  | holdAccept _ => exact .next h.onCtx
  | holdFreeze _ => exact .next h.freeze
  | holdRelease _ => exact .next h.release
  | holdResume _ => exact .next h.resumeHold
  | holdLimit _ => exact .next h.holdLimit
  | frequencyChange => exact .next h.frequencyChange
  | contextStart _ => exact .next h.contextStart
  | contextComplete _ => exact .next h.contextComplete
  | killStart _ => exact .next h.killStart
  | killReceipt _ => exact .next h.killReceipt
  | killEnd _ => exact .next h.killEnd
  | killTimer _ => exact h.execKillTimer
  | quietDetected _ => exact .next h.onCtx
  | summaryTimer _ => exact h.execSummaryTimer
  | quietDump _ => exact .next h.onCtx
  | signalDetect _ _ => exact h.execSignalDetect
  | capabilityAccept _ _ _ _ => exact .next h.onPort
  | modeSelect _ _ _ => exact h.execModeSelect
  | trainRound _ _ _ _ _ => exact h.execTrainRound
  | alignDone _ _ => exact h.execAlignDone
  | negotiationTimeout _ => exact h.execNegotiationTimeout
  | downWait _ => exact h.execDownWait
  | retrain _ _ => exact .next h.onPort
  | retrainTimeout _ => exact h.execRetrainTimeout
  | flitReceive _ _ _ => exact .next h.receive
  | nakResend _ => exact .next h.onPort
  | nakRepeat _ => exact .next h.onPort
  | headerTimer _ => exact h.execHeaderTimer
  | slotCycleSend _ _ => exact .next h.slotSend
  | idle _ _ => exact .next (.ite h.setPort h)
  | vacant _ => exact .next h.vacantArrives
  | row _ => exact .next h.rowArrives
  | rowLoose _ => exact .next h.rowLooseArrives
  | signal _ => exact .next h.signalArrives
  | qmsg _ => exact .next h.qmsgArrives
  | qresult _ => exact .next h.qresultArrives
  | contrib _ => exact .next h.contribArrives
  | barArrive _ => exact h.execBarArrive
  | barRelease _ => exact h.execBarRelease
  | reduce _ => exact .next h.reduceArrives
  | summary _ => exact .next h.summaryArrives
  | timeSync _ => exact .next h.timeSync
  | holdNotice _ => exact .next h.holdNotice
  | releaseNotice _ => exact h.execReleaseNotice
  | killNotice _ => exact .next h.killNotice
  | clockAgree _ => exact .next h.clockAgree
  | mgmt _ => exact h.execMgmt
  | timeSyncTimer => exact .next h.timeSyncTimer
  | timeInputLost => exact .next h.timeInputLost
  | referenceLost => exact h.execReferenceLost
  | referenceRestored _ => exact .next h.referenceRestored
  | supplyInRange _ _ _ => exact .next h.supplyInRange
  | supplyLow _ => exact .next h.supplyLow
  | supplyRestored _ => exact .next h.supplyRestored
  | shutdown _ => exact .next h.shutdown
  | v12Excursion _ _ => exact .next h.v12Excursion
  | v54High _ => exact .next h.v54High
  | presentMate => exact .next h.presentMate
  | powerSample _ _ _ => exact .next h.powerSample
  | measuredCapStep => exact .next h.measuredCapStep
  | thermalCapStep => exact .next h.thermalCapStep
  | sensorHold _ _ => exact .next h.sensorHold
  | sensorRelease _ _ => exact .next h.sensorRelease
  | overtempShutdown _ _ => exact .next h.overtempShutdown
  | stageS0 _ _ _ => exact .next h.stageS0
  | stageS1 _ => exact .next h.stageS1
  | stageS2 _ _ _ => exact .next h.stageS2
  | stageS3 _ _ => exact .next h.stageS3
  | stageS4 _ _ => exact .next h.stageS4
  | stageS5 _ => exact .next h.stageS5
  | stageS6 _ _ _ => exact .next h.stageS6
  | stageS7 _ _ _ _ => exact .next h.stageS7
  | stageS8 _ => exact .next h.stageS8
  | stageS9 _ => exact .next h.stageS9
  | stageS10 _ _ _ => exact .next h.stageS10
  | stageS11 _ => exact .next h.stageS11
  | perstDeassert _ _ _ => exact h.execPerstDeassert
  | portReset _ _ _ => exact .next h.portReset
  | functionLevelReset _ => exact h.execFunctionLevelReset
  | crossingTimeout _ => exact .next h.crossingTimeout
  | reenter _ _ => exact .next h.reenter
  | cmdqTailWrite _ _ => exact .next h.onFn
  | cmdqCfgWrite _ _ => exact .next h.onFn
  | cplqCfgWrite _ _ => exact .next h.onFn
  | cplqHeadWrite _ _ => exact .next h.onFn
  | commandFetch _ _ => exact h.execCommandFetch
  | commandAccept _ _ => exact .next h.accept
  | eventRecord _ => exact .next h.writeWaiting
  | msixTimer _ => exact h.execMsixTimer
  | hostKill _ _ => exact .next h.hostKillWrite
  | hostMboxGo _ _ => exact .next h.onFn
  | commandNop _ _ => exact .next (h.withCmd fun _ _ => h.finish)
  | openSession _ _ => exact h.execOpenSession
  | closeSession _ _ => exact h.execCloseSession
  | setVfQuota _ _ => exact .next (h.withCmd fun _ _ => h.onFn.finish)
  | load _ _ => exact h.execLoad
  | loadComplete _ _ => exact .next h.loadComplete
  | setHostWindow _ _ => exact h.execSetHostWindow
  | launch _ _ => exact h.execLaunch
  | kill _ _ => exact h.execKill
  | release _ _ => exact h.execRelease
  | dump _ _ => exact h.execDump
  | dumpDone _ => exact .next h.dumpDone
  | leaseCreate _ _ => exact h.execLeaseCreate
  | leaseRelease _ _ => exact h.execLeaseRelease
  | fenceRecord _ => exact h.execFenceRecord
  | odRead _ _ => exact .next h.odServe
  | odWrite _ _ _ _ => exact .next h.odServe
  | odInfo _ _ => exact .next h.odServe
  | fence _ _ _ _ => exact .next h.odServe
  | unfence _ _ _ _ => exact .next h.odServe
  | fwImage _ _ _ _ _ => exact .next h.odServe
  | fwCommit _ _ _ _ => exact .next h.odServe
  | attestNonce _ _ _ => exact .next h.odServe
  | attestReport _ => exact .next h.attestReport
  | doeRequest _ _ => exact h.execDoeRequest
  | setEndpointId _ _ => exact .next (h.control h.setEidBody)
  | getEndpointId _ => exact .next (h.control h)
  | getMctpVersionSupport _ => exact .next (h.control h)
  | getMessageTypeSupport _ => exact .next (h.control h)
  | entdaa _ => exact h.execEntdaa
  | lanternRestart _ => exact h.execLanternRestart
  | restartComplete => exact .next h.restartComplete
  | flitTransmit _ _ => exact .next h.transmit
  | hbmReadData _ _ _ => exact h.execHbmReadData
  | refreshDebtCleared _ _ => exact .next h.onRegion
  | completionTimeout _ _ _ => exact h.execCompletionTimeout
  | hbmChannelRetrain _ _ _ => exact .next h.hbmChannelRetrain
  | cellMemoryScrub _ _ _ => exact h.execCellMemoryScrub
  | _ => cases hs

protected theorem exec : NextInOrder (exec i s) :=
  match hs : Sys2Proof.slotOf i with
  | some _ => h.exec_of_slot hs
  | none => h.exec_of_no_slot hs

/-! ### A core clock cycle -/

protected theorem lowerClock : InOrder (lowerClock s) := .ite h.withClock h

protected theorem advanceCtx {ns : Nat} : InOrder (advanceCtx s n ns) := h.setCtx

protected theorem beginCtx : InOrder (beginCtx s n) := .ite h.openCtx (.ite h h.openFree)

theorem mapCells {g : Nat × Cell → Nat × Cell} (hg : ∀ e, (g e).1 = e.1) : InOrder { s with cells := s.cells.map g } :=
  { h with cells := Mem.map_sorted g hg s.cells none h.cells }

protected theorem nextCycle : InOrder (nextCycle s) := by
  unfold nextCycle
  extract_lets s₁ s₂ clock ns s₃ s₄
  have h₁ : InOrder s₁ := h.mapCells fun _ => rfl
  have h₃ : InOrder s₃ := h₁.lowerClock.withClock.foldl fun _ h => h.advanceCtx
  have h₄ : InOrder s₄ := h₃.foldl fun _ h => h.beginCtx.deliverWaiting
  exact h₄.foldl fun _ h => h.wordTimer

theorem withPending {l : List Instr} : InOrder { s with pending := l } := { h with }

protected theorem clockTick : InOrder (clockTick s) := .ite h h.nextCycle.withPending

protected theorem step : NextInOrder (step s) := by
  unfold step
  split
  · exact .next h.clockTick
  · exact h.withPending.exec

end InOrder

/-- Settles O4. Every update that a command is made of puts, drops or changes entries of a table under their keys, so that it keeps
the order of every table (`InOrder`); a loss of power empties the tables. -/
theorem stepKeepsTablesInOrder : Obligations.StepKeepsTablesInOrder := by
  unfold Obligations.StepKeepsTablesInOrder
  intro s t hs hstep
  have ht : NextInOrder (step s) := ((inOrder_iff_tablesSorted s).2 hs).step
  rw [hstep] at ht
  exact (inOrder_iff_tablesSorted t).1 ht

end Sys2Proof.Machine
end

section
/-!
SUPPORT. Signals, barriers and queues: an instruction that enters a free-running section or arrives at a barrier (O39).
-/
namespace Sys2Proof.Machine

/-! ### Slots that send into their context -/

/-- An arrival that is taken without an error changes the barriers of its context alone. -/
theorem State.emit_arrival {s : State} {n : Nat} {a : BarArr} {bars : List BarInst}
    (h : barArrive (s.ctx n).bars (s.ctx n).cc a = (bars, none)) :
    s.emit n { bars := [a] } = s.setCtx n { s.ctx n with bars := bars } := by
  simp [State.emit, h, addHazards, addReads, State.setCtx]

/-- Arrivals at signals go to those of their context. -/
theorem State.emit_arrs (s : State) (n : Nat) (l : List Arrival) :
    s.emit n { arrs := l } = s.setCtx n { s.ctx n with arrivals := (s.ctx n).arrivals ++ l } := by
  simp [State.emit, addHazards, addReads, State.setCtx]

theorem ctxBecomes_onCtx (s : State) (n : Nat) (f : Ctx → Ctx) : CtxBecomes s (s.onCtx n f) n (f (s.ctx n)) :=
  ⟨by simp, fun m hm => State.ctx_onCtx_other s f hm, rfl⟩

theorem cellAndCtxBecome_setCell_setCtx (s : State) (c : CellRef) (cell : Cell) (x : Ctx) :
    CellAndCtxBecome s ((s.setCell c cell).setCtx c.ctx.val x) c cell x :=
  ⟨by simp, by simp, fun d hd => by simp [State.cell_setCell_other _ _ hd],
    fun m hm => by simp [State.ctx_setCtx_other _ _ hm], rfl⟩

/-- A slot that executes, leaves its cell as it is and sends traffic that reaches its context alone. -/
theorem issueSlot_changes_ctx {s : State} {c : CellRef} {cell : Cell} {sl : Slot} {i : Instr}
    {body : Ctx → Cell → SlotAct} {e : Emit} {x : Ctx}
    (h : Issuing s c sl cell) (hl : legal i = true) (hbody : body (s.ctx c.ctx.val) cell = { cell := cell, emit := e })
    (he : ∀ t : State, t.ctx c.ctx.val = s.ctx c.ctx.val → t.emit c.ctx.val e = t.setCtx c.ctx.val x) :
    CellAndCtxBecome s (issueSlot s c sl i body) c (markIssued cell sl) x := by
  rw [issueSlot_executes h hl (by rw [hbody]) (by rw [hbody]) (by simp [hbody, bankConflict, banks])
    (by simp [hbody, descConflict]), hbody, he _ (State.ctx_of_setCell s c _ _)]
  simpa [claimDesc, claimBanks, banks] using cellAndCtxBecome_setCell_setCtx s c (markIssued cell sl) x

/-! ### The shape of an arrival (R237) -/

/-- Only bits below `k` are set in a number below 2^k. -/
theorem regions_below_iff (r : Word) (k : Nat) : r.toNat < 2 ^ k ↔ ∀ j, j < 32 → r.getLsbD j = true → j < k := by
  refine ⟨fun h j _ hj => ?_, fun h => ?_⟩
  · by_contra hk
    rw [BitVec.getLsbD, Nat.testBit_lt_two_pow (h.trans_le (Nat.pow_le_pow_right Nat.two_pos (Nat.not_lt.mp hk)))] at hj
    cases hj
  · refine Nat.lt_pow_two_of_testBit _ fun j hj => Bool.eq_false_iff.mpr fun hset => ?_
    exact absurd (h j (BitVec.lt_of_getLsbD hset) hset) (Nat.not_lt.mpr hj)

theorem barScope_le (a : Word) : barScope a ≤ 7 := Nat.lt_succ_iff.mp (Nat.mod_lt _ (by decide))

/-- The check of the barrier unit is the shape that the statements ask for. -/
theorem barMisshapen_eq_false_iff (x : Ctx) (id : CellId) (a r : Word) :
    barMisshapen x id a r = false ↔ barShaped x id a r := by
  have hscope := barScope_le a
  have hnone : 1 ≤ barScope a ∧ barScope a ≤ 6 ↔ barScope a ≠ 0 ∧ barScope a ≠ 7 := by omega
  have hregs := regions_below_iff r x.regions.length
  simp only [barMisshapen, barShaped, bit, Bool.or_eq_false_iff, Bool.and_eq_false_imp, Bool.and_eq_true, decide_eq_true_eq,
    decide_eq_false_iff_not, Bool.not_eq_false', hnone, Nat.not_le, hregs]
  tauto

/-! ### Arrivals at a barrier (R236 to R239) -/

theorem barArrive_no_instance (x : Ctx) (id : CellId) (b : BitVec 3) (a r : Word) (j : Nat) :
    barArrive [] x.cc (barArrival id b false a r j) = ([newInstance x id b false a r none], none) := rfl

theorem unreleased_eq_countP (i : BarInst) (id : CellId) :
    unreleased i id = i.due.countP (fun e => e.2.1.any (fun p => decide (p.1 = id))) +
      (if i.cur.any (fun e => decide (e.1 = id)) then 1 else 0) + (if i.nxt.any (fun e => decide (e.1 = id)) then 1 else 0) := by
  rw [unreleased, List.countP_eq_length_filter]; rfl

/-- A cell that no generation of a barrier has heard has arrived for none. -/
theorem unreleased_eq_zero {i : BarInst} {id : CellId} (hdue : ∀ e ∈ i.due, ∀ p ∈ e.2.1, p.1 ≠ id)
    (hcur : ∀ e ∈ i.cur, e.1 ≠ id) (hnxt : ∀ e ∈ i.nxt, e.1 ≠ id) : unreleased i id = 0 := by
  have habsent (l : List (CellId × BitVec 6)) (hl : ∀ e ∈ l, e.1 ≠ id) : l.any (fun e => decide (e.1 = id)) = false :=
    List.any_eq_false.mpr fun e he => by simpa using hl e he
  rw [unreleased_eq_countP, habsent _ hcur, habsent _ hnxt,
    List.countP_eq_zero.mpr fun e he => by simp only [habsent _ (hdue e he), Bool.false_eq_true, not_false_eq_true]]
  rfl

section
variable {x : Ctx} {i : BarInst} {arr : BarArr}

/-- The arrival is for this barrier (R237). -/
structure ArrivesAt (arr : BarArr) (i : BarInst) : Prop where
  b : i.b = arr.b
  rejoin : i.rejoin = arr.rejoin
  scope : i.scope = arr.scope
  unit : i.unit = arr.unit

theorem instanceOf_single (hi : ArrivesAt arr i) (hx : x.bars = [i]) : instanceOf x arr = some i := by
  obtain ⟨hb, hj, hs, hu⟩ := hi
  simp [instanceOf, hx, hb, hj, hs, hu]

/-- A participant of the current generation that brings the values of the first arrival joins it. -/
theorem barArrive_joins (hi : ArrivesAt arr i) (hj : arr.rejoin = false) (hnew : ∀ e ∈ i.cur, e.1 ≠ arr.cell)
    (hcur : i.cur ≠ []) (hkey : i.curKey = some arr.key) (cc : Nat) :
    barArrive [i] cc arr = ([{ i with cur := i.cur ++ [(arr.cell, arr.rsig)], j := none }], none) := by
  obtain ⟨hb, hr, hs, hu⟩ := hi
  have habsent : i.cur.any (fun e => decide (e.1 = arr.cell)) = false := by simpa using hnew
  simp [barArrive, hb, hr, hs, hu, hj, habsent, hcur, hkey]

end

/-! ### BAR -/

section
variable {s : State} {c : CellRef} {cell : Cell} {b : BitVec 3}

/-- What BAR does when it issues. -/
def barAct (b : BitVec 3) (x : Ctx) (cell : Cell) : SlotAct :=
  let a := barArrival cell.id b false (barAof cell b) (barBof cell b) 0
  { reason := firstReason [if barMisshapen x cell.id (barAof cell b) (barBof cell b) then some 12 else none,
      if (instanceOf x a).any (fun i => decide (2 ≤ unreleased i cell.id)) then some 13 else none]
    cell := cell, emit := { bars := [a] } }

theorem exec_bar (s : State) (c : CellRef) (b : BitVec 3) :
    exec (.bar c b) s = .next (issueSlot s c .Q (.bar c b) (barAct b)) := rfl

theorem firstReason_single (r : Option Nat) : firstReason [r] = r := by cases r <;> rfl

theorem barAct_misshapen {x : Ctx} (h : ¬ barShaped x cell.id (barAof cell b) (barBof cell b)) :
    (barAct b x cell).reason = some 12 := by
  rw [← barMisshapen_eq_false_iff, Bool.not_eq_false] at h
  simp [barAct, h, firstReason]

theorem barAct_shaped {x : Ctx} (h : barShaped x cell.id (barAof cell b) (barBof cell b)) :
    (barAct b x cell).reason = if (instanceOf x (barArrival cell.id b false (barAof cell b) (barBof cell b) 0)).any
      (fun i => decide (2 ≤ unreleased i cell.id)) then some 13 else none := by
  simp only [barAct, (barMisshapen_eq_false_iff ..).2 h]
  exact firstReason_single _

/-- BAR is skipped for a reason of its unit. -/
theorem bar_skipped {r : Nat} (h : Issuing s c .Q cell) (hr : (barAct b (s.ctx c.ctx.val) cell).reason = some r) :
    ∃ t w, exec (.bar c b) s = .next t ∧ CellBecomes s t c
      (slotIssued { cell with ctl := addSkip cell.ctl (slotLogOf (s.ctx c.ctx.val) cell .Q w r) } .Q) :=
  ⟨_, _, exec_bar s c b, issueSlot_skips h rfl rfl hr⟩

/-- BAR executes: its arrival is entered into its barrier. -/
theorem bar_arrives {bars : List BarInst} (h : Issuing s c .Q cell)
    (hr : (barAct b (s.ctx c.ctx.val) cell).reason = none)
    (harr : barArrive (s.ctx c.ctx.val).bars (s.ctx c.ctx.val).cc
      (barArrival cell.id b false (barAof cell b) (barBof cell b) 0) = (bars, none)) :
    ∃ t, exec (.bar c b) s = .next t ∧
      CellAndCtxBecome s t c (slotIssued cell .Q) { s.ctx c.ctx.val with bars := bars } := by
  refine ⟨_, exec_bar s c b, issueSlot_changes_ctx
    (e := { bars := [barArrival cell.id b false (barAof cell b) (barBof cell b) 0] }) h rfl ?_ fun t ht => ?_⟩
  · exact congrArg (fun q => ({ barAct b (s.ctx c.ctx.val) cell with reason := q } : SlotAct)) hr
  · rw [← ht] at harr ⊢
    exact State.emit_arrival harr

end

/-! ### What LOPEN and BAR change (R238, R242) -/

/-- LOPEN marks the next course as the first of a free-running section (R242). -/
theorem lopen_enters {s : State} {c : CellRef} {cell : Cell} (h : Issuing s c .Q cell) :
    ∃ t, exec (.lopen c) s = .next t ∧ CellBecomes s t c (slotIssued
      { cell with ctl := { cell.ctl with entering := cell.ctl.entering || !cell.ctl.free } } .Q) :=
  ⟨_, rfl, issueSlot_changes_cell h rfl rfl rfl rfl rfl rfl rfl⟩

section
variable {s : State} {c : CellRef} {cell : Cell} {b : BitVec 3} (h : Issuing s c .Q cell)
  (hshape : barShaped (s.ctx c.ctx.val) cell.id (barAof cell b) (barBof cell b))
include h hshape

/-- The first arrival opens a barrier. -/
theorem bar_opens (hx : (s.ctx c.ctx.val).bars = []) :
    ∃ t, exec (.bar c b) s = .next t ∧ CellAndCtxBecome s t c (slotIssued cell .Q)
      { s.ctx c.ctx.val with
        bars := [newInstance (s.ctx c.ctx.val) cell.id b false (barAof cell b) (barBof cell b) none] } := by
  refine bar_arrives h ?_ ?_
  · rw [barAct_shaped hshape, instanceOf, hx]; rfl
  · rw [hx]; exact barArrive_no_instance ..

variable {i : BarInst} (hi : ArrivesAt (barArrival cell.id b false (barAof cell b) (barBof cell b) 0) i)
  (hx : (s.ctx c.ctx.val).bars = [i])
include hi hx

omit h in
/-- With one barrier, BAR checks how many generations of it the cell has arrived for. -/
theorem barAct_single : (barAct b (s.ctx c.ctx.val) cell).reason =
    if 2 ≤ unreleased i cell.id then some 13 else none := by
  simp [barAct_shaped hshape, instanceOf_single hi hx]

/-- A cell that no generation of the barrier has heard joins the current one. -/
theorem bar_joins (hcur : i.cur ≠ []) (hnew : ∀ e ∈ i.cur, e.1 ≠ cell.id) (hnxt : ∀ e ∈ i.nxt, e.1 ≠ cell.id)
    (hdue : ∀ e ∈ i.due, ∀ p ∈ e.2.1, p.1 ≠ cell.id) (hkey : i.curKey = some (barKey (barAof cell b) (barBof cell b) false)) :
    ∃ t, exec (.bar c b) s = .next t ∧ CellAndCtxBecome s t c (slotIssued cell .Q)
      { s.ctx c.ctx.val with
        bars := [{ i with cur := i.cur ++ [(cell.id, BitVec.ofNat 6 (fld (barAof cell b) 27 22))], j := none }] } := by
  refine bar_arrives h ?_ ?_
  · rw [barAct_single hshape hi hx, unreleased_eq_zero hdue hnew hnxt]; rfl
  · rw [hx]; exact barArrive_joins hi rfl hnew hcur hkey _

/-- A cell that two generations wait for is ahead (R238). -/
theorem bar_ahead (htwo : 2 ≤ unreleased i cell.id) :
    ∃ t w, exec (.bar c b) s = .next t ∧ CellBecomes s t c
      (slotIssued { cell with ctl := addSkip cell.ctl (slotLogOf (s.ctx c.ctx.val) cell .Q w 13) } .Q) :=
  bar_skipped h (by rw [barAct_single hshape hi hx, if_pos htwo])

end

end Sys2Proof.Machine
end

section
/-!
SUPPORT. Signals, barriers and queues: the release of a generation (O39).
-/
namespace Sys2Proof.Machine

/-! ### The participants of a released generation (R240, R241) -/

/-- Changing cells that differ from one another changes each of them once. -/
theorem State.cell_foldl_onCell (f : Cell → Cell) (l : List CellRef) (s : State) (hl : l.Nodup) (k : CellRef) :
    (l.foldl (fun s c => s.onCell c f) s).cell? k = if k ∈ l then (s.cell? k).map f else s.cell? k := by
  induction l generalizing s with
  | nil => rfl
  | cons c l ih =>
    obtain ⟨hc, hl⟩ := List.nodup_cons.mp hl
    rw [List.foldl_cons, ih _ hl]
    by_cases hk : k = c
    · subst hk; simp [hc]
    · simp [hk, State.cell_onCell_other _ _ hk]

/-- The participants of a generation as cells of context `n`. -/
def participantRefs (n : Fin 32) (cells : List (CellId × BitVec 6)) : List CellRef := cells.map (fun e => ⟨n, e.1⟩)

theorem mem_participantRefs {n : Fin 32} {cells : List (CellId × BitVec 6)} {k : CellRef} :
    k ∈ participantRefs n cells ↔ ∃ e ∈ cells, ⟨n, e.1⟩ = k := List.mem_map

theorem participantRefs_nodup {n : Fin 32} {cells : List (CellId × BitVec 6)} (h : (cells.map (·.1)).Nodup) :
    (participantRefs n cells).Nodup := by
  have hrefs : participantRefs n cells = (cells.map (·.1)).map (fun id => ⟨n, id⟩) := by simp [participantRefs]
  rw [hrefs]
  exact h.map fun a b hab => congrArg CellRef.id hab

/-- What the release of a generation does to the cells before its arrivals go out. -/
theorem releaseGen_eq (s : State) (n : Fin 32) (cells : List (CellId × BitVec 6)) (epoch : Bool) :
    releaseGen s n.val cells epoch =
      State.emit (if epoch then (participantRefs n cells).foldl (fun s c => s.onCell c epochCell) s else s) n.val
        { arrs := cells.map (fun e => arriving 0 true e.1 e.2 1) } := by
  rw [participantRefs, List.foldl_map, releaseGen, Fin.ofNat_val_eq_self]
  rfl

section
variable {s : State} {n : Fin 32} {cells : List (CellId × BitVec 6)} {epoch : Bool}

/-- Each participant's arrival goes out to its context. -/
theorem releaseGen_ctx : (releaseGen s n.val cells epoch).ctx n.val =
    { s.ctx n.val with arrivals := (s.ctx n.val).arrivals ++ cells.map (fun e => arriving 0 true e.1 e.2 1) } := by
  rw [releaseGen_eq, State.emit_arrs, State.ctx_setCtx]
  split
  · rw [foldl_same (fun t : State => t.ctx n.val) _ (fun t c => State.ctx_of_onCell t c _ _)]
  · rfl

/-- With EPOCH the queue counters of the participants are cleared; no other cell changes. -/
theorem releaseGen_cell (hnodup : (cells.map (·.1)).Nodup) (k : CellRef) :
    (releaseGen s n.val cells epoch).cell? k =
      if k ∈ participantRefs n cells then (s.cell? k).map (fun cell => if epoch then epochCell cell else cell)
      else s.cell? k := by
  rw [releaseGen_eq, State.cell_emit]
  cases epoch with
  | true => exact State.cell_foldl_onCell epochCell _ s (participantRefs_nodup hnodup) k
  | false => simp

end

theorem releaseCells_cells (s : State) (n : Nat) (i : BarInst) : (releaseCells s n i).map (·.1) = instCells (s.ctx n) i := by
  rw [releaseCells, List.map_map]
  refine (List.map_congr_left fun k _ => ?_).trans (List.map_id _)
  rw [Function.comp_apply]
  split
  next e hfind => exact of_decide_eq_true (List.find?_some hfind :)
  next => rfl

/-- With nobody missing, who has not arrived has halted. -/
theorem releaseCells_arrived_or_halted {i : BarInst} {n : Nat} (hall : missing s n i = []) :
    ∀ e ∈ releaseCells s n i, e ∈ i.cur ∨ haltedCell s n e.1 = true := by
  intro e he
  obtain ⟨id, hid, rfl⟩ := List.mem_map.mp he
  have hin := List.filter_eq_nil_iff.mp hall id hid
  split
  next e hfind => exact .inl (List.mem_of_find?_eq_some hfind)
  next hfind =>
    refine .inr ?_
    have habsent : i.cur.any (fun e => decide (e.1 = id)) = false := List.any_eq_false.mpr (List.find?_eq_none.mp hfind)
    simpa [habsent] using hin

/-! ### BARRIER_RELEASE -/

section
variable {s : State} {n : Nat} {i : BarInst}

theorem scopeLatency_eq_barLatency {k : Nat} (h : 1 ≤ k) : scopeLatency k = barLatency k := by
  match k with
  | 1 | 2 | 3 | _ + 4 => rfl

theorem two_le_barLatency {k : Nat} (h : 1 ≤ k) : 2 ≤ barLatency k := by
  match k with
  | 1 | 2 | 3 => decide
  | _ + 4 => exact (by decide : 2 ≤ 72)

/-- The completion cycle of a generation. -/
def doneCycle (x : Ctx) (i : BarInst) : Nat := max x.btime (match i.lastDone with | some d => d + 1 | none => 0)

theorem btime_le_doneCycle (x : Ctx) (i : BarInst) : x.btime ≤ doneCycle x i := Nat.le_max_left ..

/-- A complete generation of a scope of the module gets its release cycle, and the next one begins. -/
theorem stepInstance_complete (hcur : i.cur ≠ []) (hall : missing s n i = []) (hscope : i.scope ≤ 4) :
    stepInstance s n i = (s, nextGen { i with due := i.due ++
      [(doneCycle (s.ctx n) i + barLatency i.scope - 1, releaseCells s n i, (i.curKey.getD (0, 0, false)).2.2)] }
      (doneCycle (s.ctx n) i)) := by
  have hready : ¬ ((i.cur.isEmpty && i.heard.isEmpty) || !(missing s n i).isEmpty) = true := by simp [hcur, hall]
  exact (if_neg hready).trans (if_pos hscope)

/-- A generation for which nobody has arrived stays as it is. -/
theorem stepInstance_empty (hcur : i.cur = []) (hheard : i.heard = []) : stepInstance s n i = (s, i) := by
  simp [stepInstance, hcur, hheard]

/-- The generations of a barrier whose release cycle has come are released. -/
def releaseDue (s : State) (n now : Nat) (i : BarInst) : State :=
  (i.due.filter (fun e => decide (e.1 ≤ now))).foldl (fun s e => releaseGen s n e.2.1 e.2.2) s

/-- Before the release cycles of a barrier nothing is released. -/
theorem releaseDue_later {now : Nat} (h : ∀ e ∈ i.due, now < e.1) : releaseDue s n now i = s := by
  rw [releaseDue, List.filter_eq_nil_iff.mpr fun e he => by simpa using h e he]
  rfl

/-- BARRIER_RELEASE where its context has one barrier. -/
theorem barRelease_single (hruns : looseRuns s (s.ctx n) = true) (hfresh : (s.ctx n).fresh = true → (s.ctx n).hold.held = true)
    (hbars : (s.ctx n).bars = [i]) (hjoin : i.rejoin = false) :
    let r := stepInstance s n i
    barRelease s n i.b = (releaseDue r.1 n (s.ctx n).btime r.2).onCtx n (fun x =>
      { x with bars := [{ r.2 with due := r.2.due.filter (fun e => !decide (e.1 ≤ (s.ctx n).btime)) }] }) := by
  have hgo : barrierRuns s (s.ctx n) = true := by simpa [barrierRuns, hruns, imp_iff_not_or] using hfresh
  simp [barRelease, releaseDue, hgo, hbars, hjoin]

end

section
variable {s : State} {n : Fin 32} {i : BarInst} (hruns : looseRuns s (s.ctx n.val) = true)
  (hfresh : (s.ctx n.val).fresh = true → (s.ctx n.val).hold.held = true)
  (hbars : (s.ctx n.val).bars = [i]) (hjoin : i.rejoin = false)
include hruns hfresh hbars hjoin

/-- A barrier with no release cycle that has come takes its step and nothing else. -/
theorem barRelease_waits {i' : BarInst} (hstep : stepInstance s n.val i = (s, i'))
    (hlater : ∀ e ∈ i'.due, (s.ctx n.val).btime < e.1) :
    barRelease s n.val i.b = s.onCtx n.val (fun x => { x with bars := [i'] }) := by
  have hrelease := barRelease_single hruns hfresh hbars hjoin
  rw [hstep] at hrelease
  dsimp only at hrelease
  rwa [releaseDue_later hlater, List.filter_eq_self.mpr fun e he => by simpa using hlater e he] at hrelease

/-- A complete generation is to be released L - 1 cycles after its completion (R240, Table 10.2). -/
theorem barrierRelease_completes (hdue : i.due = []) (hcur : i.cur ≠ []) (hall : missing s n.val i = [])
    (hlow : 1 ≤ i.scope) (hhigh : i.scope ≤ 4) :
    ∃ t, exec (.barrierRelease n i.b) s = .next t ∧ CtxBecomes s t n.val { s.ctx n.val with bars := [{ i with
      gen := i.gen + 1, cur := i.nxt, nxt := [], curKey := i.nxtKey, nxtKey := none
      lastDone := some (doneCycle (s.ctx n.val) i)
      due := [(doneCycle (s.ctx n.val) i + scopeLatency i.scope - 1, releaseCells s n.val i,
        (i.curKey.getD (0, 0, false)).2.2)]
      heard := i.heardNext, heardNext := [], sent := false, own := none, spread := none }] } := by
  have hlater : (s.ctx n.val).btime < doneCycle (s.ctx n.val) i + barLatency i.scope - 1 := by
    have hbtime := btime_le_doneCycle (s.ctx n.val) i
    have hlat := two_le_barLatency hlow
    omega
  have hstep := stepInstance_complete hcur hall hhigh
  rw [hdue] at hstep
  have hwaits := barRelease_waits hruns hfresh hbars hjoin hstep (by simpa [nextGen] using hlater)
  rw [scopeLatency_eq_barLatency hlow]
  exact ⟨_, congrArg Host.Outcome.next hwaits, ctxBecomes_onCtx s n.val _⟩

/-- A generation whose release cycle has come is released (R240, R241). -/
theorem barrierRelease_releases {d : Nat} {cells : List (CellId × BitVec 6)} {epoch : Bool} (hdue : i.due = [(d, cells, epoch)])
    (hnow : d ≤ (s.ctx n.val).btime) (hcur : i.cur = []) (hheard : i.heard = []) :
    exec (.barrierRelease n i.b) s =
      .next ((releaseGen s n.val cells epoch).onCtx n.val (fun x => { x with bars := [{ i with due := [] }] })) := by
  have hrelease := barRelease_single hruns hfresh hbars hjoin
  simp only [stepInstance_empty hcur hheard, releaseDue, hdue, List.filter_singleton, decide_eq_true hnow, Bool.not_true,
    cond_true, cond_false, List.foldl_cons, List.foldl_nil] at hrelease
  exact congrArg Host.Outcome.next hrelease

end

/-- Settles O39: BAR by the state of its barrier, BARRIER_RELEASE by the two ways in which a barrier goes on. -/
theorem barriersGatherAndRelease : Obligations.BarriersGatherAndRelease := by
  unfold Obligations.BarriersGatherAndRelease
  refine ⟨fun c s cell h => ⟨lopen_enters h, fun b => ⟨bar_opens h, ?_, ?_, ?_⟩⟩, fun n s i hruns hfresh hbars hjoin => ⟨?_, ?_⟩⟩
  · exact fun i hshape hx hb hj hs hu hcur hnew hnxt hdue hkey =>
      bar_joins h hshape ⟨hb, hj, hs, hu⟩ hx hcur hnew hnxt hdue hkey
  · exact fun i hshape hx hb hj hs hu htwo =>
      bar_ahead h hshape ⟨hb, hj, hs, hu⟩ hx (by rwa [unreleased_eq_countP])
  · exact fun hshape => bar_skipped h (barAct_misshapen hshape)
  · intro hdue hcur hall hlow hhigh done ps
    obtain ⟨t, hexec, hbecomes⟩ := barrierRelease_completes hruns hfresh hbars hjoin hdue hcur hall hlow hhigh
    exact ⟨t, hexec, hbecomes, releaseCells_cells s n.val i, releaseCells_arrived_or_halted hall⟩
  · intro d cells epoch hdue hnow hcur hheard hnodup
    refine ⟨_, barrierRelease_releases hruns hfresh hbars hjoin hdue hnow hcur hheard, ?_, ?_, ?_, ?_⟩
    · rw [State.ctx_onCtx]
    · rw [State.ctx_onCtx, releaseGen_ctx]
    · intro e he
      rw [State.cell_of_onCtx, releaseGen_cell hnodup, if_pos (mem_participantRefs.mpr ⟨e, he, rfl⟩)]
    · intro k hk
      rw [State.cell_of_onCtx, releaseGen_cell hnodup, if_neg fun hmem => ?_]
      obtain ⟨e, he, rfl⟩ := mem_participantRefs.mp hmem
      exact hk e he rfl

end Sys2Proof.Machine
end

section
/-!
SUPPORT. Signals, barriers and queues: a loose message whose first flit is of another class goes on as that class (O48).
-/
namespace Sys2Proof.Machine

/-- A half of a loose row for cell 0 on route 1, with one hop to travel, of class `cls` and with argument `arg`. -/
def passingHalf (cls : BitVec 2) (arg : DWord) : Flit :=
  { cls := cls, mtype := 0x03, seq := 0, ackseq := 0, nak := false, crclass := false, credit := 0, ctx := 0, route := 1, hop := 1
    due := 0, arg := arg, payload := 0 }

/-- A running context whose route 1 goes on through port 1; on port 0 the first half of a loose row stands as a flit of
class 1, and its last half is of class 3. -/
def controlHalfWaits : State :=
  { ctxs := [(0, { state := .running, passedTag := true, routes := [(1, { hops := 1, ports := [1], dest := 0, lat := 0, ret := 0 })] })]
    ports := [(0, { rx := [passingHalf 3 0x80], parts := [passingHalf 1 0] })] }

theorem controlHalfWaits_passing : Passing controlHalfWaits 0 (passingHalf 3 0x80) [] 0 where
  head := rfl
  tag := by decide
  far := by decide
  up := rfl
  alive := .inr (.inr (.inl rfl))
  row := fun _ => by decide

/-- The row goes on with the control flits of port 1: its loose queues stay empty. -/
theorem controlHalfWaits_loose : ((rowLooseArrives controlHalfWaits (.port 0)).port 1).loose = [] := by decide

/-- Refutes O48: a message goes on in the class of its first flit (`State.forward`), and the statement asks for class 3 of its
last flit alone. -/
theorem not_looseMessagesReachTheirCell : ¬ Obligations.LooseMessagesReachTheirCell := by
  unfold Obligations.LooseMessagesReachTheirCell
  rintro ⟨-, -, hpass⟩
  have hrow := hpass 0 controlHalfWaits (passingHalf 3 0x80) [] [passingHalf 1 0] 0 controlHalfWaits_passing rfl rfl
    (by unfold lastOf; decide) (by decide) (0x03, .rowLoose (.port 0)) List.mem_cons_self rfl
  obtain ⟨t, ht, -, hqueued, -⟩ := hrow.1 1 ⟨_, rfl, rfl, rfl⟩ (by decide)
  obtain rfl : rowLooseArrives controlHalfWaits (.port 0) = t := Host.Outcome.next.inj ht
  have hempty : (enqueueLoose (controlHalfWaits.port 1) 0 ([passingHalf 1 0, passingHalf 3 0x80].map hopped)).loose = [] :=
    (congrArg Port.loose hqueued).symm.trans controlHalfWaits_loose
  exact absurd hempty (by decide)

end Sys2Proof.Machine
end

section
/-!
SUPPORT. Silide links: what a port takes from the wire, acknowledges and resends (R279, R280, R283, R292).
-/
namespace Sys2Proof.Machine

/-! ### Updates of one port -/

theorem portBecomes_setPort (s : State) (p : Nat) (q : Port) : PortBecomes s (s.setPort p q) p q :=
  ⟨by simp, fun _ hr => State.port_setPort_other s q hr, rfl⟩

theorem portBecomes_onPort (s : State) (p : Nat) (g : Port → Port) : PortBecomes s (s.onPort p g) p (g (s.port p)) :=
  portBecomes_setPort s p _

/-! ### What an accepted flit tells its context -/

theorem State.hear_eq (s : State) (p : Nat) (f : Flit) : ∃ l, s.hear p f = { s with ctxs := l } := by
  unfold State.hear; split <;> exact ⟨_, rfl⟩

theorem State.countLoose_eq (s : State) (p : Nat) (f : Flit) (sent : Bool) :
    ∃ l, s.countLoose p f sent = { s with ctxs := l } := by
  unfold State.countLoose
  split
  · split_ifs <;> exact ⟨_, rfl⟩
  · exact ⟨_, rfl⟩

/-! ### Receiving -/

section
variable {s : State} {p : Nat} {f : Flit} {t : Nat}

theorem reject_first {q : Port} (h : q.nakSent = false) (now : Nat) :
    reject q now = { q with nakSent := true, sendNak := true, nakAt := now } := by
  simp [reject, h]

theorem receive_bad {w : Wire} {frac : BitVec 6} (hactive : (s.port p).state = .active) (hcrc : crcGood (wireBits w) = false) :
    receive s p w frac = s.setPort p (reject { s.port p with crcErr := satInc 0xFFFF (s.port p).crcErr } s.clock.ns) := by
  simp [receive, hactive, hcrc]

theorem receive_good {w : Wire} {frac : BitVec 6} (hactive : (s.port p).state = .active) (hcrc : crcGood (wireBits w) = true) :
    receive s p w frac = acceptFlit s p (flitOf (wireBits w)) (s.stampNow frac) := by
  simp [receive, hactive, hcrc]

theorem acceptFlit_idle (hcls : f.cls = 0) (hmtype : f.mtype = 0) :
    acceptFlit s p f t = s.setPort p (readHeader (s.port p) f) := by
  simp [acceptFlit, hcls, hmtype]

theorem acceptFlit_out_of_order (hcls : f.cls ≠ 0) (hseq : f.seq ≠ (s.port p).rxNext) :
    acceptFlit s p f t = s.setPort p (reject (s.port p) s.clock.ns) := by
  unfold acceptFlit
  rw [if_neg hcls, if_pos hseq]

/-- The port after a flit in order has been read, before the flit goes into a buffer or is discarded. -/
def readNext (q : Port) (f : Flit) : Port := readHeader { q with rxNext := q.rxNext + 1, nakSent := false } f

theorem holdRx_eq (q : Port) (f : Flit) : holdRx q f = { q with
    landing := q.landing + (if f.cls = 2 then 1 else 0), looseBuf := q.looseBuf + (if f.cls = 3 then 1 else 0) } := by
  unfold holdRx
  by_cases hsched : f.cls = 2
  · have hloose : f.cls ≠ 3 := by rw [hsched]; decide
    rw [if_pos hsched, if_pos hsched, if_neg hloose]
    rfl
  · rw [if_neg hsched, if_neg hsched]
    split_ifs <;> rfl

/-- The port after a flit in order has gone into its buffer; `t` is the time at which it crossed the PHY. -/
def accepted (q : Port) (f : Flit) (t : Nat) : Port :=
  { readNext q f with
    rx := q.rx ++ [f], stamps := if f.mtype = 0x10 then q.stamps ++ [t] else q.stamps
    landing := q.landing + (if f.cls = 2 then 1 else 0), looseBuf := q.looseBuf + (if f.cls = 3 then 1 else 0) }

theorem accepted_stamps (q : Port) (f : Flit) (t : Nat) :
    (accepted q f t).stamps = q.stamps ++ (if f.mtype = 0x10 then [t] else []) := by
  change (if f.mtype = 0x10 then q.stamps ++ [t] else q.stamps) = _
  split_ifs
  · rfl
  · exact (List.append_nil _).symm

theorem acceptFlit_taken (hcls : f.cls ≠ 0) (hseq : f.seq = (s.port p).rxNext) (htakes : takesFlit s p f = true) :
    ∃ l, acceptFlit s p f t = { s.setPort p (accepted (s.port p) f t) with ctxs := l } := by
  obtain ⟨l, hl⟩ := State.hear_eq (s.setPort p (accepted (s.port p) f t)) p f
  obtain ⟨l', hl'⟩ := State.countLoose_eq { s.setPort p (accepted (s.port p) f t) with ctxs := l } p f false
  refine ⟨l', ?_⟩
  rw [← hl', ← hl]
  simp only [acceptFlit, hcls, hseq, htakes, if_false, if_true, ne_eq, not_true_eq_false, holdRx_eq]
  rfl

theorem acceptFlit_discarded (hcls : f.cls ≠ 0) (hseq : f.seq = (s.port p).rxNext) (htakes : takesFlit s p f = false) :
    ∃ a b, acceptFlit s p f t = s.setPort p { readNext (s.port p) f with
      discard := satInc 0xFFFF (s.port p).discard, retSched := a, retLoose := b } := by
  refine ⟨if f.cls = 2 then (s.port p).retSched + 1 else (s.port p).retSched,
    if f.cls = 3 then (s.port p).retLoose + 1 else (s.port p).retLoose, ?_⟩
  simp only [acceptFlit, hcls, hseq, htakes, if_false, ne_eq, not_true_eq_false, Bool.false_eq_true]
  congr 1
  unfold freeRx readNext
  split_ifs <;> rfl

end

/-! ### Acknowledgements (R280) -/

/-- The flit that ACKSEQ names leaves the replay buffer with those before it. -/
theorem readHeader_replay {q : Port} {f g : Flit} {pre post : List Flit} (hreplay : q.replay = pre ++ g :: post)
    (hseq : g.seq = f.ackseq) (hpre : ∀ h ∈ pre, h.seq ≠ f.ackseq) : (readHeader q f).replay = post := by
  have hknown : q.replay.any (fun h => decide (h.seq = f.ackseq)) = true := by
    simp only [hreplay, List.any_append, List.any_cons, hseq, decide_true, Bool.true_or, Bool.or_true]
  have hdrop : q.replay.dropWhile (fun h => decide (h.seq ≠ f.ackseq)) = g :: post := by
    rw [hreplay, List.dropWhile_append_of_pos fun h hh => decide_eq_true (hpre h hh)]
    simp [hseq]
  simp only [readHeader, hknown, if_true, hdrop, List.tail_cons]

theorem mem_resends_readHeader {q : Port} {f : Flit} {e : Nat × Nat} :
    e ∈ (readHeader q f).resends ↔ e ∈ q.resends ∧ ∃ h ∈ (readHeader q f).replay, h.seq.toNat = e.1 := by
  simp [readHeader]

theorem readHeader_credSched (q : Port) (f : Flit) :
    (readHeader q f).credSched = q.credSched + (if f.crclass then 0 else f.credit.toNat) := by
  cases h : f.crclass <;> simp [readHeader, h]

theorem readHeader_credLoose (q : Port) (f : Flit) :
    (readHeader q f).credLoose = q.credLoose + (if f.crclass then f.credit.toNat else 0) := by
  cases h : f.crclass <;> simp [readHeader, h]

/-! ### NAK_RESEND and NAK_REPEAT (R280) -/

theorem execNakResend_naked {s : State} {p : Fin 16} {g : Flit} {rest : List Flit} (hnaked : (s.port p.val).naked = true)
    (hreplay : (s.port p.val).replay = g :: rest) :
    execNakResend p s = .next (s.setPort p.val { s.port p.val with
      naked := false, resend := some g.seq, retries := satInc 0xFFFF (s.port p.val).retries }) := by
  simp [execNakResend, State.onPort, hnaked, hreplay]

theorem execNakRepeat_due {s : State} {p : Fin 16} (hnak : (s.port p.val).nakSent = true)
    (hdue : (s.port p.val).nakAt + 300 ≤ s.clock.ns) :
    execNakRepeat p s = .next (s.setPort p.val { s.port p.val with sendNak := true, nakAt := s.clock.ns }) := by
  simp [execNakRepeat, State.onPort, hnak, hdue]

theorem execNakRepeat_early {s : State} {p : Fin 16} (hearly : s.clock.ns < (s.port p.val).nakAt + 300) :
    execNakRepeat p s = .next (s.setPort p.val (s.port p.val)) := by
  simp [execNakRepeat, State.onPort, Nat.not_le.mpr hearly]

end Sys2Proof.Machine
end

section
/-!
SUPPORT. Silide links: what a port puts on the wire (R270, R271, R278 to R284).
-/
namespace Sys2Proof.Machine

/-! ### A codeword goes onto the lanes (R270, R271) -/

/-- One lane takes its share of a codeword: the port and what has left it so far. `e` is the lane with its place among `n`. -/
def shareOut (p n : Nat) (word : List Sym) (acc : Port × List Out) (e : Nat × Nat) : Port × List Out :=
  let r := lanePush acc.1 p e.1 (laneShare n e.2 word)
  (r.1, acc.2 ++ r.2)

/-- The lanes in use. -/
def usedLanes (q : Port) : List Nat := [0, 1].filter (fun l => bit q.lanes l)

theorem fecPush_part {q : Port} {bits : BitVec 2240} (p : Nat) (h : (q.fecIn ++ flitSymbols bits).length < 514) :
    fecPush q p bits = ({ q with fecIn := q.fecIn ++ flitSymbols bits }, []) := by
  simp only [fecPush, h, if_true]

theorem fecPush_whole {q : Port} {bits : BitVec 2240} (p : Nat) (h : 514 ≤ (q.fecIn ++ flitSymbols bits).length) :
    fecPush q p bits = (usedLanes q).zipIdx.foldl
      (shareOut p (usedLanes q).length (rsCodeword ((q.fecIn ++ flitSymbols bits).take 514)))
      ({ q with fecIn := (q.fecIn ++ flitSymbols bits).drop 514 }, []) := by
  simp only [fecPush, Nat.not_lt.mpr h, if_false]
  rfl

theorem lanePush_port (q : Port) (p lane : Nat) (share : List Sym) :
    ∃ b, (lanePush q p lane share).1 = { q with laneIn := b } := by
  unfold lanePush; split_ifs <;> exact ⟨_, rfl⟩

/-- Blocks of the inner code leave with their own parity. -/
theorem lanePush_blocks {q : Port} {p lane : Nat} {share : List Sym} (h : concatenated q.mode = true) :
    ∀ o ∈ (lanePush q p lane share).2, ∃ d, o = .inner p lane d (innerParity d) := by
  intro o ho
  simp only [lanePush, h, if_true, innerBlocks, List.map_map, List.mem_map] at ho
  obtain ⟨bits, -, rfl⟩ := ho
  exact ⟨BitVec.ofNat 128 (natOfBits bits), rfl⟩

theorem foldl_shareOut_port (p n : Nat) (word : List Sym) (l : List (Nat × Nat)) (acc : Port × List Out) :
    ∃ b, (l.foldl (shareOut p n word) acc).1 = { acc.1 with laneIn := b } := by
  induction l generalizing acc with
  | nil => exact ⟨_, rfl⟩
  | cons e l ih =>
    obtain ⟨b, hb⟩ := lanePush_port acc.1 p e.1 (laneShare n e.2 word)
    obtain ⟨b', hb'⟩ := ih (shareOut p n word acc e)
    exact ⟨b', by rw [List.foldl_cons, hb', shareOut, hb]⟩

/-- In an RS mode the symbols themselves leave. -/
theorem foldl_shareOut_symbols (p n : Nat) (word : List Sym) (l : List (Nat × Nat)) (acc : Port × List Out)
    (h : concatenated acc.1.mode = false) :
    (l.foldl (shareOut p n word) acc).2 = acc.2 ++ l.map (fun e => .symbols p e.1 (laneShare n e.2 word)) := by
  induction l generalizing acc with
  | nil => simp
  | cons e l ih =>
    have hstep : shareOut p n word acc e = (acc.1, acc.2 ++ [.symbols p e.1 (laneShare n e.2 word)]) := by
      simp [shareOut, lanePush, h]
    rw [List.foldl_cons, hstep, ih (acc.1, acc.2 ++ _) h, List.append_assoc]
    rfl

/-- In a concatenated mode blocks of the inner code leave. -/
theorem foldl_shareOut_blocks (p n : Nat) (word : List Sym) (l : List (Nat × Nat)) (acc : Port × List Out)
    (h : concatenated acc.1.mode = true) :
    ∃ out, (l.foldl (shareOut p n word) acc).2 = acc.2 ++ out ∧
      ∀ o ∈ out, ∃ lane d, o = .inner p lane d (innerParity d) := by
  induction l generalizing acc with
  | nil => exact ⟨[], by simp⟩
  | cons e l ih =>
    obtain ⟨b, hb⟩ := lanePush_port acc.1 p e.1 (laneShare n e.2 word)
    obtain ⟨out, hout, hall⟩ := ih (shareOut p n word acc e) (by rw [shareOut, hb]; exact h)
    refine ⟨(lanePush acc.1 p e.1 (laneShare n e.2 word)).2 ++ out, ?_, fun o ho => ?_⟩
    · rw [List.foldl_cons, hout, shareOut, List.append_assoc]
    · rcases List.mem_append.mp ho with ho | ho
      · exact ⟨e.1, lanePush_blocks h o ho⟩
      · exact hall o ho

/-- What the FEC changes of a port: the symbols and the bits that wait. -/
theorem fecPush_port (q : Port) (p : Nat) (bits : BitVec 2240) :
    ∃ a b, (fecPush q p bits).1 = { q with fecIn := a, laneIn := b } := by
  rcases Nat.lt_or_ge (q.fecIn ++ flitSymbols bits).length 514 with h | h
  · rw [fecPush_part p h]; exact ⟨_, _, rfl⟩
  · rw [fecPush_whole p h]
    obtain ⟨b, hb⟩ := foldl_shareOut_port p _ _ (usedLanes q).zipIdx ({ q with fecIn := _ }, [])
    exact ⟨_, b, hb⟩

/-! ### A flit leaves a port -/

/-- The last four bytes of a flit on the wire are the CRC of the others (R278). -/
theorem flitBits_crc (f : Flit) : (flitBits f).extractLsb' 2208 32 = flitCrc ((flitBody f).setWidth 2240) := by
  unfold flitBits
  rw [BitVec.extractLsb'_append_eq_of_le (by decide)]
  simp

theorem wireOut_out (s : State) (p : Nat) (q : Port) (f : Flit) : ((s.setPort p q).wireOut p f).out =
    s.out ++ [.flit p f (flitCrc ((flitBody f).setWidth 2240))] ++ (fecPush q p (flitBits f)).2 := by
  rw [← flitBits_crc]
  unfold State.wireOut
  dsimp only
  rw [State.port_of_emitOut, State.port_setPort]
  rfl

/-- Flit `f` has left port `p`, which is now `q` but for what waits in its FEC. -/
structure Sent (s t : State) (p : Nat) (q : Port) (f : Flit) : Prop where
  left : Left s t p f
  port : ∃ a b, t.port p = { q with fecIn := a, laneIn := b }

theorem sent_wireOut (s : State) {p : Nat} {q : Port} (f : Flit) (hfec : q.fecIn = (s.port p).fecIn)
    (hmode : q.mode = (s.port p).mode) (hlanes : q.lanes = (s.port p).lanes) : Sent s ((s.setPort p q).wireOut p f) p q f := by
  have hout := wireOut_out s p q f
  have hused : [0, 1].filter (s.port p).lanes.getLsbD = usedLanes q := by rw [usedLanes, hlanes]; rfl
  refine ⟨?_, ?_⟩
  · unfold Left
    dsimp only
    rw [hused, ← hmode, ← hfec]
    refine ⟨fun hpart => ?_, fun hwhole h1 h3 => ?_, fun hwhole hconc => ?_⟩
    · rw [hout, fecPush_part p hpart, List.append_nil]
    · rw [hout, fecPush_whole p hwhole, foldl_shareOut_symbols _ _ _ _ _ (by simp [concatenated, h1, h3])]
      rfl
    · obtain ⟨l, hl, hall⟩ := foldl_shareOut_blocks p (usedLanes q).length _ (usedLanes q).zipIdx
        ({ q with fecIn := (q.fecIn ++ flitSymbols (flitBits f)).drop 514 }, []) (by simpa [concatenated] using hconc)
      exact ⟨l, by rw [hout, fecPush_whole p hwhole, hl]; rfl, hall⟩
  · obtain ⟨a, b, hport⟩ := fecPush_port q p (flitBits f)
    refine ⟨a, b, ?_⟩
    simp [State.wireOut, hport]

/-! ### The header (R280, R283) -/

/-- A header returns credits of one class, and no more than are to be returned. -/
theorem fillHeader_credit (q : Port) (now : Nat) (f : Flit) :
    if (fillHeader q now f).2.crclass then
      (fillHeader q now f).1.retLoose + (fillHeader q now f).2.credit.toNat = q.retLoose ∧
        (fillHeader q now f).1.retSched = q.retSched
    else (fillHeader q now f).1.retSched + (fillHeader q now f).2.credit.toNat = q.retSched ∧
        (fillHeader q now f).1.retLoose = q.retLoose := by
  by_cases h : q.retSched = 0
  · simp [fillHeader, h]; omega
  · simp [fillHeader, h]; omega

/-! ### FLIT_TRANSMIT and HEADER_TIMER -/

theorem nextNew_sched {q : Port} {f : Flit} {rest : List Flit} {k : Nat} (hsched : q.sched = f :: rest)
    (hcred : q.credSched = k + 1) : nextNew q = some (f, { q with sched := rest, credSched := k }) := by
  simp only [nextNew, hsched, hcred]

theorem nextNew_ctrl {q : Port} {f : Flit} {rest : List Flit} (hsched : q.sched = []) (hctrl : q.ctrl = f :: rest) :
    nextNew q = some (f, { q with ctrl := rest }) := by
  simp only [nextNew, hsched, hctrl]

section
variable {s : State} {p : Nat} {frac : BitVec 6}

theorem Sent.withCtxs {t : State} {q : Port} {f : Flit} (h : Sent s t p q f) (l : Mem Ctx) :
    Sent s { t with ctxs := l } p q f := ⟨h.left, h.port⟩

theorem execHeaderTimer_due {p : Fin 16} (hactive : (s.port p.val).state = .active)
    (hdue : (s.port p.val).lastHeader + 64 ≤ s.clock.ns) : ∃ t, execHeaderTimer p s = .next t ∧
      Sent s t p.val (fillHeader (s.port p.val) s.clock.ns idleFlit).1 (fillHeader (s.port p.val) s.clock.ns idleFlit).2 := by
  refine ⟨_, ?_, sent_wireOut s _ rfl rfl rfl⟩
  simp [execHeaderTimer, hactive, hdue]

/-- The port after a new flit: the next SEQ has been used, and a copy of the flit is kept (R279). -/
def withCopy (q : Port) (r : Port × Flit) : Port := { r.1 with txSeq := q.txSeq + 1, replay := q.replay ++ [r.2] }

theorem transmit_new {f : Flit} {q' : Port} (hactive : (s.port p).state = .active) (hup : s.unrecoverable = false)
    (hresend : (s.port p).resend = none) (hroom : (s.port p).replay.length < 1024)
    (hnext : nextNew (s.port p) = some (f, q')) (hsync : f.mtype ≠ 0x10) :
    let r := fillHeader q' s.clock.ns { f with seq := (s.port p).txSeq }
    transmit s p frac = ((s.setPort p (withCopy (s.port p) r)).wireOut p r.2).countLoose p r.2 true := by
  have hexchange (t : State) (q : Port) (now : Nat) (g : Flit) (hg : g.mtype ≠ 0x10) :
      t.beginExchange p (fillHeader q now g).2 = t := if_neg fun h => hg h.1
  have hstamp : stampSync f (s.stampNow frac) = f := if_pos hsync
  simp only [transmit, hup, Bool.false_eq_true, if_false, hactive, nextResent, hresend, Nat.not_le.mpr hroom, hnext,
    hstamp, ne_eq, not_true_eq_false]
  rw [hexchange _ _ _ { f with seq := (s.port p).txSeq } hsync]
  rfl

theorem sent_transmit_new {f : Flit} {q' : Port} (hactive : (s.port p).state = .active) (hup : s.unrecoverable = false)
    (hresend : (s.port p).resend = none) (hroom : (s.port p).replay.length < 1024)
    (hnext : nextNew (s.port p) = some (f, q')) (hsync : f.mtype ≠ 0x10)
    (hfec : q'.fecIn = (s.port p).fecIn) (hmode : q'.mode = (s.port p).mode) (hlanes : q'.lanes = (s.port p).lanes) :
    let r := fillHeader q' s.clock.ns { f with seq := (s.port p).txSeq }
    Sent s (transmit s p frac) p (withCopy (s.port p) r) r.2 := by
  intro r
  obtain ⟨l, hl⟩ := State.countLoose_eq ((s.setPort p (withCopy (s.port p) r)).wireOut p r.2) p r.2 true
  rw [transmit_new hactive hup hresend hroom hnext hsync, hl]
  exact (sent_wireOut s (q := withCopy (s.port p) r) r.2 hfec hmode hlanes).withCtxs l

/-- The port after the flit with SEQ `r` has been resent (R280, R302). -/
def afterResent (q : Port) (r : BitVec 12) (now : Nat) : Port :=
  { q with
    resend := if q.replay.any (fun g => decide (g.seq = r + 1)) then some (r + 1) else none
    resends := Mem.put q.resends r.toNat (Mem.rd 0 q.resends r.toNat + 1)
    sendNak := false, lastHeader := now }

/-- A resent flit keeps its SEQ, its payload and its credits (R280). -/
theorem sent_transmit_resent {r : BitVec 12} {g : Flit} (hactive : (s.port p).state = .active) (hup : s.unrecoverable = false)
    (hresend : (s.port p).resend = some r) (hfind : (s.port p).replay.find? (fun f => decide (f.seq = r)) = some g) :
    Sent s (transmit s p frac) p (afterResent (s.port p) r s.clock.ns)
      { g with ackseq := (s.port p).rxNext - 1, nak := (s.port p).sendNak } := by
  have hnext : ∃ q', nextResent (s.port p) = some (g, q') ∧
      (resendHeader q' s.clock.ns g).1 = afterResent (s.port p) r s.clock.ns ∧ q'.rxNext = (s.port p).rxNext ∧
      q'.sendNak = (s.port p).sendNak := by
    simp only [nextResent, hresend, hfind]
    exact ⟨_, rfl, rfl, rfl, rfl⟩
  obtain ⟨q', hnext, hport, hack, hnak⟩ := hnext
  simp only [transmit, hup, Bool.false_eq_true, if_false, hactive, hnext, ne_eq, not_true_eq_false, hport]
  simp only [resendHeader, hack, hnak]
  exact sent_wireOut s _ rfl rfl rfl

end

end Sys2Proof.Machine
end

section
/-!
SUPPORT. Silide links: what a slot cycle puts into a scheduled queue (R172, R285 to R289).
-/
namespace Sys2Proof.Machine

/-! ### The scheduled queue of a port (R289) -/

/-- Flits of one key go behind all that have no greater one, in their order. -/
theorem foldl_insertBy_last (key : Nat) (fs : List Flit) (l : List (Nat × Flit)) (h : ∀ e ∈ l, e.1 ≤ key) :
    fs.foldl (fun l f => insertBy (·.1) (key, f) l) l = l ++ fs.map (key, ·) := by
  have hlast (f : Flit) : ∀ l : List (Nat × Flit), (∀ e ∈ l, e.1 ≤ key) →
      insertBy (·.1) (key, f) l = l ++ [(key, f)] := by
    intro l
    induction l with
    | nil => exact fun _ => rfl
    | cons e l ih =>
      intro h
      simp [insertBy, Nat.not_lt.mpr (h e List.mem_cons_self), ih fun e he => h e (List.mem_cons_of_mem _ he)]
  induction fs generalizing l with
  | nil => simp
  | cons f fs ih =>
    rw [List.foldl_cons, hlast f l h, ih]
    · simp
    · intro e he
      rcases List.mem_append.mp he with he | he
      · exact h e he
      · rw [List.mem_singleton.mp he]

/-- Flits of another core clock cycle than the last ones go to the end of the queue. -/
theorem reachPort_later {q : Port} {clk : Nat} (key : Nat) (fs : List Flit) (h : q.reached.1 ≠ clk) :
    reachPort q clk key fs = { q with sched := q.sched ++ fs, reached := (clk, fs.map (fun _ => key)) } := by
  simp [reachPort, h, foldl_insertBy_last, Function.comp_def]

/-- Two flits of one core clock cycle stand by context and pair. -/
theorem reachPort_second {q : Port} {clk k : Nat} {pre : List Flit} {o : Flit} (key : Nat) (f : Flit)
    (hreached : q.reached = (clk, [k])) (hsched : q.sched = pre ++ [o]) :
    (reachPort q clk key [f]).sched = pre ++ (if key < k then [f, o] else [o, f]) := by
  by_cases hkey : key < k <;> simp [reachPort, hreached, hsched, insertBy, hkey]

@[simp] theorem State.port_reach (s : State) (p n pair : Nat) (fs : List Flit) :
    (s.reach p n pair fs).port p = reachPort (s.port p) s.clock.clk (32 * n + pair) fs := State.port_onPort ..

theorem State.port_reach_other (s : State) {p r : Nat} (n pair : Nat) (fs : List Flit) (h : r ≠ p) :
    (s.reach p n pair fs).port r = s.port r := State.port_onPort_other s _ h

@[simp] theorem State.ctx_of_reach (s : State) (p n pair : Nat) (fs : List Flit) (m : Nat) :
    (s.reach p n pair fs).ctx m = s.ctx m := rfl

/-! ### SLOT_CYCLE_SEND (R287) -/

/-- The two flits of a row carry its halves. -/
theorem halves_append {w : Nat} (v : BitVec (w + w)) : (v >>> w).setWidth w ++ v.setWidth w = v := by
  refine BitVec.eq_of_getLsbD_eq fun i hi => ?_
  rw [BitVec.getLsbD_append]
  split
  next hlow => simp [hlow]
  next hlow =>
    have hhigh : i - w < w := by omega
    simp [hhigh, Nat.add_sub_cancel' (Nat.not_lt.mp hlow)]

/-- The due cycle of what a slot cycle sends. -/
def slotDue (x : Ctx) (e : SlotEntry) : Nat :=
  x.cc + (match Mem.find x.routes e.route with | some r => r.lat | none => 0)

theorem stopsOf_noStopNow {s : State} {c : CellRef} (h : noStopNow s c) : s.stopsOf c = s := by
  unfold State.stopsOf
  cases hc : s.cell? c with
  | none => rfl
  | some cell =>
    refine if_neg fun hany => ?_
    obtain ⟨e, he, hnow⟩ := List.any_eq_true.mp hany
    rw [Bool.and_eq_true, decide_eq_true_eq] at hnow
    rw [h cell hc e he hnow.1] at hnow
    exact Bool.false_ne_true hnow.2

section
variable {s : State} {p : Nat} {n : Fin 32} {e : SlotEntry}
  (he : Mem.rd ({} : SlotEntry) (s.ctx n.val).slots (32 * p + (s.ctx n.val).cc % 320 / 10) = e)
  (hrun : running s (s.ctx n.val) = true) (hcc : (s.ctx n.val).cc % 10 = 0) (hkind : e.kind = 1)
  (hstop : noStopNow s ⟨n, e.cell⟩)
include he hrun hcc hkind hstop

/-- A slot cycle without a row of its cell sends one VACANT flit. -/
theorem slotSend_vacant (hrows : (s.ctx n.val).linkRows = []) :
    slotSend s p n.val = (s.setCtx n.val { s.ctx n.val with
      vacs := (vacantFor (s.ctx n.val) e (slotDue (s.ctx n.val) e)).2 }).reach p n.val
      ((s.ctx n.val).cc % 320 / 10) [(vacantFor (s.ctx n.val) e (slotDue (s.ctx n.val) e)).1] := by
  have hn : (⟨Fin.ofNat 32 n.val, e.cell⟩ : CellRef) = ⟨n, e.cell⟩ := by simp
  simp only [slotSend, he, portsRun, hrun, hcc, hkind, Bool.true_or, and_self, if_true, hn, stopsOf_noStopNow hstop, hrows,
    List.find?_nil]
  rfl

/-- A slot cycle in which its cell has issued a row sends the row's two flits. -/
theorem slotSend_row {l : LinkRow} (hrows : (s.ctx n.val).linkRows = [l]) (hcycle : l.cycle = (s.ctx n.val).cc)
    (hroute : l.route = e.route) (hcell : l.cell = e.cell) :
    slotSend s p n.val = (s.setCtx n.val { s.ctx n.val with linkRows := [] }).reach p n.val ((s.ctx n.val).cc % 320 / 10)
      [ctxFlit (s.ctx n.val) 2 l.mtype e.route (slotDue (s.ctx n.val) e) l.arg0 (l.data.setWidth 2048),
       ctxFlit (s.ctx n.val) 2 l.mtype e.route (slotDue (s.ctx n.val) e) l.arg1 ((l.data >>> 2048).setWidth 2048)] := by
  have hn : (⟨Fin.ofNat 32 n.val, e.cell⟩ : CellRef) = ⟨n, e.cell⟩ := by simp
  simp only [slotSend, he, portsRun, hrun, hcc, hkind, Bool.true_or, and_self, if_true, hn, stopsOf_noStopNow hstop, hrows,
    List.find?_cons, hcycle, hroute, hcell, decide_true, Bool.and_self, List.filter_cons, Bool.not_true, Bool.false_eq_true,
    if_false, List.filter_nil]
  rfl

end

/-! ### The arrival that rides in a VACANT flit (R172, Table 11.7) -/

/-- ARG of a VACANT flit that carries an arrival. -/
def arrivalArg (v : VacArrival) : DWord :=
  packFields 64 [(63, 32, v.bytes), (31, 18, v.dest.toNat), (6, 6, 1), (5, 0, v.sig.toNat)]

theorem arrivalArg_toNat (v : VacArrival) :
    (arrivalArg v).toNat = v.bytes % 2 ^ 32 * 2 ^ 32 + v.dest.toNat * 2 ^ 18 + 64 + v.sig.toNat := by
  have hdest := v.dest.isLt
  have hsig := v.sig.isLt
  simp only [arrivalArg, packFields, List.foldl_cons, List.foldl_nil, Nat.shiftLeft_eq, BitVec.toNat_ofNat]
  omega

theorem arrivalArg_fields (v : VacArrival) : (arrivalArg v).getLsbD 6 = true ∧ fld (arrivalArg v) 5 0 = v.sig.toNat ∧
    fld (arrivalArg v) 31 18 = v.dest.toNat ∧ fld (arrivalArg v) 63 32 = v.bytes % 2 ^ 32 := by
  have hdest := v.dest.isLt
  have hsig := v.sig.isLt
  simp only [BitVec.getLsbD, Nat.testBit_eq_decide_div_mod_eq, fld, Nat.shiftRight_eq_div_pow, arrivalArg_toNat,
    decide_eq_true_eq]
  omega

theorem vacantFor_none {x : Ctx} (h : x.vacs = []) (e : SlotEntry) (due : Nat) :
    vacantFor x e due = (ctxFlit x 2 0x01 e.route due 0 0, []) := by
  simp [vacantFor, h]

theorem vacantFor_single {x : Ctx} {e : SlotEntry} {v : VacArrival} (h : x.vacs = [v]) (hroute : v.route = e.route)
    (hcell : v.cell = e.cell) (hafter : v.after ≤ x.cc) (due : Nat) :
    vacantFor x e due = (ctxFlit x 2 0x01 e.route due (arrivalArg v) 0, []) := by
  simp [vacantFor, arrivalArg, h, hroute, hcell, hafter]

end Sys2Proof.Machine
end

section
/-!
SUPPORT. Silide links: flits on a port (O47).
-/
namespace Sys2Proof.Machine

/-- Settles O47: each clause is one outcome of `receive`, `readHeader`, `transmit` or `slotSend`, whose lemmas stand above. -/
theorem flitsAreSentAcknowledgedAndResent : Obligations.FlitsAreSentAcknowledgedAndResent := by
  unfold Obligations.FlitsAreSentAcknowledgedAndResent
  intro p s q
  refine ⟨fun hactive w frac => ?_, fun f pre post g hreplay hseq hpre => ?_,
    fun f => ⟨readHeader_credSched q f, readHeader_credLoose q f, rfl⟩, fun g rest hnaked hreplay => ?_,
    fun hnak => ⟨fun hdue => ?_, fun hearly => ?_⟩, fun hactive hdue => ?_, fun frac hactive hup => ?_, fun n => ?_,
    fun n v => ?_, fun n l => ?_⟩
  · intro f got good
    have hbad (h : good false) : got (s.setPort p.val (reject { q with crcErr := satInc 0xFFFF q.crcErr } s.clock.ns)) :=
      congrArg Host.Outcome.next (receive_bad hactive h)
    have hgood (h : good true) : got (acceptFlit s p.val f (s.stampNow frac)) := congrArg Host.Outcome.next (receive_good hactive h)
    refine ⟨fun hcrc hcls hmtype => ⟨_, hgood hcrc, ?_⟩, fun hcrc hnak => ⟨_, hbad hcrc, ?_⟩,
      fun hcrc hcls hseq hnak => ⟨_, hgood hcrc, ?_⟩, fun hcrc hcls hseq htakes => ?_,
      fun hcrc hcls hseq htakes => ?_, fun hcrc hcls hmtype => ?_⟩
    · rw [acceptFlit_idle hcls hmtype]
      exact portBecomes_setPort ..
    · rw [reject_first (by exact hnak)]
      exact portBecomes_setPort ..
    · rw [acceptFlit_out_of_order hcls hseq, reject_first hnak]
      exact portBecomes_setPort ..
    · obtain ⟨l, hl⟩ := acceptFlit_taken (t := s.stampNow frac) hcls hseq htakes
      have hnext := hgood hcrc
      rw [hl] at hnext
      have hport := portBecomes_setPort s p.val (accepted q f (s.stampNow frac))
      exact ⟨_, _, hnext, hport.here, rfl, rfl, rfl, rfl, rfl, rfl, rfl, hactive, accepted_stamps .., hport.others, rfl⟩
    · obtain ⟨a, b, hab⟩ := acceptFlit_discarded (t := s.stampNow frac) hcls hseq htakes
      have hnext := hgood hcrc
      rw [hab] at hnext
      exact ⟨_, _, hnext, portBecomes_setPort .., rfl, rfl, rfl, rfl, rfl⟩
    · exact ⟨_, congrArg Host.Outcome.next (if_pos ⟨hactive, hcrc, hcls, hmtype⟩), portBecomes_setPort ..⟩
  · have hleft := readHeader_replay hreplay hseq hpre
    exact ⟨hleft, fun e => hleft ▸ mem_resends_readHeader⟩
  · exact ⟨_, execNakResend_naked hnaked hreplay, portBecomes_setPort ..⟩
  · exact ⟨_, execNakRepeat_due hnak hdue, portBecomes_setPort ..⟩
  · exact ⟨_, execNakRepeat_early hearly, portBecomes_setPort ..⟩
  · obtain ⟨t, ht, hleft, a, b, hport⟩ := execHeaderTimer_due hactive hdue
    exact ⟨t, _, _, ht, hport, hleft, rfl, rfl, rfl, rfl, rfl, rfl, rfl, rfl, fillHeader_credit q s.clock.ns idleFlit⟩
  · intro sent
    have hsent {u g} (h : Sent s (transmit s p.val frac) p.val u g) :
        ∃ a b, sent (transmit s p.val frac) { u with fecIn := a, laneIn := b } g :=
      h.port.imp fun a => Exists.imp fun b hport => ⟨rfl, hport, h.left⟩
    refine ⟨fun f rest k hresend hroom hsched hcred hsync => ?_, fun f rest hresend hroom hsched hctrl hsync => ?_,
      fun r g hresend hfind => ?_⟩
    · obtain ⟨a, b, h⟩ := hsent (sent_transmit_new hactive hup hresend hroom (nextNew_sched hsched hcred) hsync rfl rfl rfl)
      exact ⟨_, _, _, h, rfl, rfl, rfl, rfl, rfl, rfl, rfl, rfl, rfl, rfl, rfl⟩
    · obtain ⟨a, b, h⟩ := hsent (sent_transmit_new hactive hup hresend hroom (nextNew_ctrl hsched hctrl) hsync rfl rfl rfl)
      exact ⟨_, _, _, h, rfl, rfl, rfl, rfl, rfl, rfl, rfl⟩
    · obtain ⟨a, b, h⟩ := hsent (sent_transmit_resent hactive hup hresend hfind)
      exact ⟨_, _, _, h, of_decide_eq_true (List.find?_some hfind :), rfl, rfl, rfl, rfl, rfl, Mem.rd_put_self .., rfl, rfl, rfl⟩
  · intro x e key hrun hcc hkind hstop hrows hvacs
    have hsend := slotSend_vacant rfl hrun hcc hkind hstop hrows
    rw [vacantFor_none hvacs] at hsend
    refine ⟨_, ctxFlit x 2 0x01 e.route (slotDue x e) 0 0, congrArg Host.Outcome.next hsend, rfl, rfl, rfl, rfl,
      BitVec.toNat_ofNat .., fun hclk => ?_, fun pre o k hreached hsched => ?_⟩
    · rw [State.port_reach]
      exact reachPort_later _ _ hclk
    · rw [State.port_reach]
      exact reachPort_second _ _ hreached hsched
  · intro x e hrun hcc hkind hstop hrows hvacs hroute hcell hafter hclk
    have hsend := slotSend_vacant rfl hrun hcc hkind hstop hrows
    rw [vacantFor_single hvacs hroute hcell hafter] at hsend
    refine ⟨_, ctxFlit x 2 0x01 e.route (slotDue x e) (arrivalArg v) 0, congrArg Host.Outcome.next hsend, ?_, ?_, rfl,
      arrivalArg_fields v⟩
    · rw [State.port_reach]
      exact congrArg Port.sched (reachPort_later _ _ hclk)
    · rw [State.ctx_of_reach, State.ctx_setCtx]
  · intro x e hrun hcc hkind hstop hrows hcycle hroute hcell hclk
    have hsend := slotSend_row rfl hrun hcc hkind hstop hrows hcycle hroute hcell
    refine ⟨_, ctxFlit x 2 l.mtype e.route (slotDue x e) l.arg0 (l.data.setWidth 2048),
      ctxFlit x 2 l.mtype e.route (slotDue x e) l.arg1 ((l.data >>> 2048).setWidth 2048),
      congrArg Host.Outcome.next hsend, ?_, ?_, rfl, rfl, rfl, rfl, halves_append (w := 2048) l.data⟩
    · rw [State.port_reach]
      exact congrArg Port.sched (reachPort_later _ _ hclk)
    · rw [State.ctx_of_reach, State.ctx_setCtx]

end Sys2Proof.Machine
end

section
/-!
SUPPORT. Silide links: what a port hands on: scheduled flits, loose messages of one flit, and control flits (R283, R291, R437).
-/
namespace Sys2Proof.Machine

/-! ### Taking the first accepted flit -/

theorem PortBecomes.onPort {s t : State} {p : Nat} {q : Port} (h : PortBecomes s t p q) (g : Port → Port) :
    PortBecomes s (t.onPort p g) p (g q) := by
  refine ⟨by rw [State.port_onPort, h.here], fun r hr => ?_, h.rest⟩
  rw [State.port_onPort_other _ _ hr]
  exact h.others r hr

/-- The state after the first accepted flit of port `p` has been taken; `rest` are the others. -/
def tookRx (s : State) (p : Nat) (rest : List Flit) : State := s.setPort p (popped (s.port p) rest)

section
variable {s : State} {p n : Nat} {f : Flit} {rest : List Flit} {mtype : BitVec 6}

@[simp] theorem ctx_tookRx (m : Nat) : (tookRx s p rest).ctx m = s.ctx m := rfl
@[simp] theorem tagged_tookRx (tag : BitVec 16) : (tookRx s p rest).tagged tag = s.tagged tag := rfl
@[simp] theorem admitsFlit_tookRx : admitsFlit (tookRx s p rest) n f = admitsFlit s n f := rfl
@[simp] theorem planBroken_tookRx : planBroken (tookRx s p rest) n f = planBroken s n f := rfl

theorem portBecomes_tookRx : PortBecomes s (tookRx s p rest) p (popped (s.port p) rest) := portBecomes_setPort ..

theorem takeRx_head (hrx : (s.port p).rx = f :: rest) (hkind : f.mtype = mtype) :
    s.takeRx p mtype = some (f, tookRx s p rest) := by
  simp only [State.takeRx, hrx, hkind, if_true]
  rfl

theorem portBecomes_leavePort : PortBecomes s ((tookRx s p rest).leavePort p f 1) p (freeRx (popped (s.port p) rest) f 1) :=
  portBecomes_tookRx.onPort _

theorem freeRx_scheduled (q : Port) (h : f.cls = 2) : freeRx (popped q rest) f 1 = landed q rest := if_pos h

theorem freeRx_loose (q : Port) (h : f.cls = 3) :
    freeRx (popped q rest) f 1 = { q with rx := rest, looseBuf := q.looseBuf - 1, retLoose := q.retLoose + 1 } := by
  have hnot : f.cls ≠ 2 := by rw [h]; decide
  rw [freeRx, if_neg hnot, if_pos h]
  rfl

/-! ### A context takes the flit or forwards it (R349) -/

theorem AtHead.admits (h : AtHead s p f rest mtype n) : admitsFlit s n f = true := by
  have htakes := h.takes
  simpa [admitsFlit, h.here, takesMessages, h.up, or_assoc] using htakes

theorem Passing.admits (h : Passing s p f rest n) : admitsFlit s n f = true := by
  have halive := h.alive
  rw [admitsFlit, if_pos h.far]
  simpa [forwards, takesMessages, h.up, or_assoc] using halive

/-! ### LINK_PLAN (R437) -/

/-- The report of a LINK_PLAN case. -/
def planErr (s : State) (n p : Nat) (f : Flit) : ErrRec :=
  { code := 0x0030, unit := 9, free := false, cell := 0, detail := 16 * f.route.toNat + p, cc := (s.ctx n).cc
    dome := s.clock.dome }

/-- A LINK_PLAN case asks the root to end the context, and does nothing else. -/
theorem linkPlan_eq (s : State) (n p : Nat) (f : Flit) : s.linkPlan n p f = s.setCtx n { s.ctx n with
    kills := (s.ctx n).kills ++ [{ source := 2, err := planErr s n p f, since := s.clock.clk, sched := (s.ctx n).cc }] } := by
  simp [State.linkPlan, State.emit, State.fenceOf, addHazards, addReads, State.setCtx, planErr]

/-- A scheduled flit in a LINK_PLAN case has left the port. -/
def plannedOut (s : State) (p n : Nat) (f : Flit) (rest : List Flit) : State :=
  ((tookRx s p rest).leavePort p f 1).linkPlan n p f

theorem plannedOut_reports : planReported s (plannedOut s p n f rest) n p f :=
  ⟨planErr s n p f, by rw [plannedOut, linkPlan_eq, State.ctx_setCtx]; rfl, rfl, rfl⟩

theorem plannedOut_landings : ((plannedOut s p n f rest).ctx n).landings = (s.ctx n).landings := by
  rw [plannedOut, linkPlan_eq, State.ctx_setCtx]
  rfl

theorem plannedOut_port (hcls : f.cls = 2) : (plannedOut s p n f rest).port p = landed (s.port p) rest := by
  rw [plannedOut, linkPlan_eq]
  exact portBecomes_leavePort.here.trans (freeRx_scheduled _ hcls)

/-! ### Scheduled flits (R288, R291, R437) -/

section
variable {act : State → Nat → Flit → State}

theorem scheduled_broken (hrx : (s.port p).rx = f :: rest) (hkind : f.mtype = mtype) (htag : s.tagged f.ctx = some n)
    (hadmits : admitsFlit s n f = true) (hplan : planBroken s n f = true) :
    scheduled s p mtype act = plannedOut s p n f rest := by
  simp only [scheduled, takeRx_head hrx hkind, tagged_tookRx, htag, admitsFlit_tookRx, hadmits, planBroken_tookRx, hplan,
    Bool.not_true, Bool.false_eq_true, if_false, if_true]
  rfl

theorem scheduled_acts (h : AtHead s p f rest mtype n) (hplan : planBroken s n f = false) :
    scheduled s p mtype act = act (tookRx s p rest) n f := by
  simp only [scheduled, takeRx_head h.head h.kind, tagged_tookRx, h.tag, admitsFlit_tookRx, h.admits,
    planBroken_tookRx, hplan, Bool.not_true, Bool.false_eq_true, if_false, h.here, ne_eq, not_true_eq_false]

theorem scheduled_forwards (h : Passing s p f rest n) (hkind : f.mtype = mtype) (hplan : planBroken s n f = false) :
    scheduled s p mtype act = ((tookRx s p rest).leavePort p f 1).forward n p [f] := by
  simp only [scheduled, takeRx_head h.head hkind, tagged_tookRx, h.tag, admitsFlit_tookRx, h.admits,
    planBroken_tookRx, hplan, Bool.not_true, Bool.false_eq_true, if_false, h.far, ne_eq, not_false_eq_true, if_true]

end

/-! ### Loose messages of one flit (R283, R291) -/

/-- A message of one flit has left the loose buffer. -/
def tookLoose (s : State) (p : Nat) (f : Flit) (rest : List Flit) : State :=
  (tookRx s p rest).onPort p (fun q => freeRx { q with parts := [] } f 1)

theorem portBecomes_tookLoose :
    PortBecomes s (tookLoose s p f rest) p (freeRx { popped (s.port p) rest with parts := [] } f 1) :=
  portBecomes_tookRx.onPort _

theorem port_tookLoose (h : f.cls = 3) : (tookLoose s p f rest).port p = looseTaken (s.port p) rest 1 := by
  have hnot : f.cls ≠ 2 := by rw [h]; decide
  rw [portBecomes_tookLoose.here, freeRx, if_neg hnot, if_pos h]
  rfl

/-- The message types of one flit (Table 11.7). -/
theorem oneFlit (h : f.mtype ∉ ([0x03, 0x05, 0x07] : List (BitVec 6))) : flitIndex f = 0 ∧ lastFlit f = true := by
  simp only [List.mem_cons, List.not_mem_nil, or_false, not_or] at h
  obtain ⟨h3, h5, h7⟩ := h
  simp only [flitIndex, lastFlit, h3, h5, h7, or_self, if_false, and_self]

theorem looseMsg_one {act : State → Nat → List Flit → State} (h : AtHead s p f rest mtype n) (hparts : (s.port p).parts = [])
    (hone : mtype ∉ ([0x03, 0x05, 0x07] : List (BitVec 6))) (hplan : planBroken s n f = false) :
    looseMsg s p mtype act = act (tookLoose s p f rest) n [f] := by
  obtain ⟨hindex, hlast⟩ := oneFlit (h.kind ▸ hone)
  have hport : (tookRx s p rest).port p = popped (s.port p) rest := portBecomes_tookRx.here
  have hparts' : (popped (s.port p) rest).parts = [] := hparts
  have hgoes : goesOn [] f = true := by simp [goesOn, hindex]
  have htag : (tookLoose s p f rest).tagged f.ctx = some n := h.tag
  have hadmits : admitsFlit (tookLoose s p f rest) n f = true := h.admits
  have hplan' : planBroken (tookLoose s p f rest) n f = false := hplan
  have htook : (tookRx s p rest).setPort p (freeRx { popped (s.port p) rest with parts := [] } f 1) = tookLoose s p f rest := by
    rw [tookLoose, State.onPort, hport]
  simp only [looseMsg, takeRx_head h.head h.kind, hport, hparts', hgoes, if_true, List.nil_append, Bool.not_true,
    Bool.false_eq_true, if_false, hlast, List.length_singleton, htook, htag, hadmits, hplan', Bool.or_self, List.any_cons,
    List.any_nil, h.here, ne_eq, not_true_eq_false]

/-! ### Control flits (R291, R293) -/

theorem controlMsg_acts {act : State → Nat → Flit → State} (h : AtHead s p f rest mtype n) :
    controlMsg s p mtype act = act (tookRx s p rest) n f := by
  simp only [controlMsg, takeRx_head h.head h.kind, tagged_tookRx, h.tag, h.here, ne_eq, not_true_eq_false, if_false]

theorem controlMsg_forwards {act : State → Nat → Flit → State} (hrx : (s.port p).rx = f :: rest) (hkind : f.mtype = mtype)
    (htag : s.tagged f.ctx = some n) (hhop : f.hop ≠ 0) :
    controlMsg s p mtype act = (tookRx s p rest).forward n p [f] := by
  simp only [controlMsg, takeRx_head hrx hkind, tagged_tookRx, htag, hhop, ne_eq, not_false_eq_true, if_true]

/-! ### Forwarding (R291) -/

theorem forwardPort_goesOut {out : Nat} (h : goesOut s n f out) : forwardPort (s.ctx n) f = some out := by
  obtain ⟨r, hfind, hhops, hport⟩ := h
  simp only [forwardPort, hfind, hhops, if_true, hport]

theorem forwardPort_none (h : ∀ out, ¬ goesOut s n f out) : forwardPort (s.ctx n) f = none := by
  unfold forwardPort
  split
  next r hfind =>
    split_ifs with hhops
    · exact Option.eq_none_iff_forall_ne_some.mpr fun out hport => h out ⟨r, hfind, hhops, hport⟩
    · rfl
  next => rfl

theorem planBroken_passing (h : Passing s p f rest n) : planBroken s n f = (forwardPort (s.ctx n) f).isNone := by
  have hrow : ((decide (f.mtype = 0x02) || decide (f.mtype = 0x03)) && decide (640 ≤ argRow f.arg)) = false := by
    rw [← Bool.decide_or, ← Bool.decide_and]
    exact decide_eq_false fun hbeyond => Nat.not_le.mpr (h.row hbeyond.1) hbeyond.2
  simp only [planBroken, hrow, Bool.false_eq_true, if_false, h.far, ne_eq, not_false_eq_true, if_true]

theorem forward_scheduled {out : Nat} (hcls : f.cls = 2) (h : goesOut s n f out) :
    s.forward n p [f] = s.reach out n (transitPair (s.ctx n) out f.route.toNat) [hopped f] := by
  simp only [State.forward, forwardPort_goesOut h, hcls, if_true]
  rfl

theorem forward_control {out : Nat} (hcls : f.cls = 1) (h : goesOut s n f out) :
    s.forward n p [f] = s.onPort out (fun q => { q with ctrl := q.ctrl ++ [hopped f] }) := by
  simp only [State.forward, forwardPort_goesOut h, hcls]
  rfl

end

end Sys2Proof.Machine
end

section
/-!
SUPPORT. Silide links: scheduled messages in the landing buffer (R172, R230, R288, R311, R313).
-/
namespace Sys2Proof.Machine

section
variable {s : State} {x : Ctx} {p n d : Nat} {f : Flit} {rest : List Flit} {e : Expect}

/-! ### The due cycle, and the pair that it is expected of (R288) -/

/-- Within 2^21 cycles ahead, the low bits of a due cycle give it back. -/
theorem rebuildDue_near {cc : Nat} {due : BitVec 22} (hlow : d % 2 ^ 22 = due.toNat) (hlate : cc < d) (hnear : d < cc + 2 ^ 21) :
    rebuildDue cc due = d := by
  unfold rebuildDue
  dsimp only
  omega

theorem expectedFor_due (h : Due x p f e d) : expectedFor s x p f = some (e, d) := by
  have hrebuilt : rebuildDue x.cc f.due = d := rebuildDue_near h.low h.late h.near
  have hcc : schedCc s x ≤ x.cc + 1 := by
    simp only [schedCc, h.alive]
    split_ifs <;> omega
  have hnow : ¬ (d : Int) < schedCc s x := by have := h.late; omega
  have hslot : expectedAt e d = true := by simp [expectedAt, h.lat, h.pair]
  simp [expectedFor, hrebuilt, hnow, h.only, h.port, h.route, hslot]

theorem expectedFor_nothing (h : x.expects = []) : expectedFor s x p f = none := by
  simp [expectedFor, h]

theorem catchUp_eq (x : Ctx) (p : Nat) (f : Flit) (due : Nat) : ∃ l, catchUp x p f due = { x with lagging := l } := by
  unfold catchUp; split_ifs <;> exact ⟨_, rfl⟩

/-! ### Cases of LINK_PLAN that a scheduled flit shows at the end of its route (R437) -/

theorem planBroken_vacant (hkind : f.mtype = 0x01) (hhop : f.hop = 0)
    (hcell : bit f.arg 6 = true → cellExists (s.ctx n).regions.length (argCell f.arg) = true) : planBroken s n f = false := by
  simpa [planBroken, hkind, hhop, State.hasCell] using hcell

theorem planBroken_row (hkind : f.mtype = 0x02) (hhop : f.hop = 0)
    (hcell : cellExists (s.ctx n).regions.length (argCell f.arg) = true) (hrow : argRow f.arg < 640) :
    planBroken s n f = false := by
  simp [planBroken, hkind, hhop, State.hasCell, hcell, Nat.not_le.mpr hrow]

theorem planBroken_reduce (hkind : f.mtype = 0x0A) (hhop : f.hop = 0)
    (hcell : cellExists (s.ctx n).regions.length (BitVec.ofNat 14 (fld f.arg 43 30)) = true) : planBroken s n f = false := by
  simp [planBroken, hkind, hhop, State.hasCell, hcell]

/-! ### A message becomes whole -/

/-- What the landing buffer holds of a message whose first half has arrived. -/
def halfArrived (p : Nat) (f : Flit) (d : Nat) (mtype : BitVec 6) (a : DWord × BitVec 2048) : Instance :=
  { port := p, route := f.route.toNat, due := d, mtype := mtype, half0 := some a, half1 := none }

theorem enterHalf_second {mtype : BitVec 6} {a : DWord × BitVec 2048} (h : x.instances = [halfArrived p f d mtype a]) :
    enterHalf x p d 1 f = { halfArrived p f d mtype a with half1 := some (f.arg, f.payload) } := by
  simp [enterHalf, h, halfArrived]

/-- Landings and arrivals go to those of their context. -/
theorem State.emit_lands_arrs (s : State) (n : Nat) (l : List Landing) (a : List Arrival) :
    s.emit n { lands := l, arrs := a } = s.setCtx n { s.ctx n with
      landings := (s.ctx n).landings ++ l, arrivals := (s.ctx n).arrivals ++ a } := by
  simp [State.emit, addHazards, addReads, State.setCtx]

/-- A flit has left port `p` for the landing buffer, and its message has brought context `n` landings and arrivals. -/
structure Brought (s t : State) (p n : Nat) (rest : List Flit) (l : List Landing) (a : List Arrival) : Prop where
  port : t.port p = popped (s.port p) rest
  landings : (t.ctx n).landings = (s.ctx n).landings ++ l
  arrivals : (t.ctx n).arrivals = (s.ctx n).arrivals ++ a
  cells : ∀ c, t.cell? c = s.cell? c

theorem brought_emit {y : Ctx} (k : Nat) (l : List Landing) (a : List Arrival) (hl : y.landings = (s.ctx n).landings)
    (ha : y.arrivals = (s.ctx n).arrivals) :
    Brought s ({ (tookRx s p rest).setCtx n y with free := k }.emit n { lands := l, arrs := a }) p n rest l a := by
  have hctx : State.ctx { (tookRx s p rest).setCtx n y with free := k } n = y := State.ctx_setCtx ..
  rw [State.emit_lands_arrs, hctx]
  refine ⟨?_, ?_, ?_, fun c => rfl⟩
  · exact portBecomes_tookRx.here
  · rw [State.ctx_setCtx, hl]
  · rw [State.ctx_setCtx, ha]

/-! ### VACANT -/

/-- What a VACANT flit leaves in the landing buffer. -/
def vacantInstance (p : Nat) (f : Flit) (d : Nat) : Instance :=
  { port := p, route := f.route.toNat, due := d, mtype := 0x01, half0 := some (f.arg, 0), half1 := none }

theorem vacantArrives_alone (hhead : AtHead s p f rest 0x01 n) (hdue : Due (s.ctx n) p f e d) (hnone : bit f.arg 6 = false) :
    vacantArrives s p = (tookRx s p rest).setCtx n { catchUp (s.ctx n) p f d with
      instances := putInstance (s.ctx n).instances (vacantInstance p f d) } := by
  have hplan : planBroken s n f = false := planBroken_vacant hhead.kind hhead.here (by simp [hnone])
  simp only [vacantArrives, scheduled_acts hhead hplan, ctx_tookRx, expectedFor_due hdue, hnone, Bool.false_eq_true, if_false]
  rfl

theorem vacantArrives_arrival (hhead : AtHead s p f rest 0x01 n) (hdue : Due (s.ctx n) p f e d) (harr : bit f.arg 6 = true)
    (hcell : cellExists (s.ctx n).regions.length (argCell f.arg) = true) :
    Brought s (vacantArrives s p) p n rest [] [{
      due := d, own := false, cell := argCell f.arg, sig := argSig f.arg, n := 1, bytes := fld f.arg 63 32 }] := by
  have hplan : planBroken s n f = false := planBroken_vacant hhead.kind hhead.here fun _ => hcell
  simp only [vacantArrives, scheduled_acts hhead hplan, ctx_tookRx, expectedFor_due hdue, harr, if_true]
  obtain ⟨l, hl⟩ := catchUp_eq (s.ctx n) p f d
  exact brought_emit s.free [] _ (by rw [hl]) (by rw [hl])

/-! ### ROW -/

theorem rowArrives_whole {a : DWord × BitVec 2048} (hhead : AtHead s p f rest 0x02 n) (hdue : Due (s.ctx n) p f e d)
    (hsecond : bit f.arg 7 = true) (hfirst : (s.ctx n).instances = [halfArrived p f d 0x02 a])
    (hcell : cellExists (s.ctx n).regions.length (argCell f.arg) = true) (hrow : argRow f.arg < 640) :
    Brought s (rowArrives s p) p n rest (rowEmit e s.free d a.1 f.arg a.2 f.payload).lands
      (rowEmit e s.free d a.1 f.arg a.2 f.payload).arrs := by
  have hplan : planBroken s n f = false := planBroken_row hhead.kind hhead.here hcell hrow
  have hone : b01 (bit f.arg 7) = 1 := by rw [hsecond]; rfl
  obtain ⟨l, hl⟩ := catchUp_eq (s.ctx n) p f d
  simp only [rowArrives, scheduled_acts hhead hplan, ctx_tookRx, expectedFor_due hdue, hone, enterHalf_second hfirst, hl, halfArrived]
  exact brought_emit _ _ _ rfl rfl

theorem rowEmit_arrs_none {a0 : DWord} (h : bit a0 63 = false) (e : Expect) (free due : Nat) (a1 : DWord)
    (lo hi : BitVec 2048) : (rowEmit e free due a0 a1 lo hi).arrs = [] := if_neg (by simp [h])

theorem rowEmit_arrs_carrier {a0 : DWord} (h : bit a0 63 = true) (e : Expect) (free due : Nat) (a1 : DWord)
    (lo hi : BitVec 2048) : (rowEmit e free due a0 a1 lo hi).arrs = [{
      due := due, own := false, cell := argCell a0, sig := argSig a0, n := 1, bytes := fld a1 63 32 }] := if_pos h

theorem maybeCut_eq_false_iff (v : Row) : maybeCut v = false ↔ ∀ k, k < 8 → v.extractLsb' (512 * k) 512 ≠ 0 := by
  simp only [maybeCut, List.any_eq_false, List.mem_range, decide_eq_true_eq, ne_eq]

theorem linkRowBytes_whole (free : Nat) {a0 : DWord} (h : bit a0 63 = false) (a1 : DWord) (v : Row) :
    linkRowBytes free (rowMaybeCut a0 a1 v) = 512 := by
  simp [linkRowBytes, rowMaybeCut, h]

/-- A row that carries its group's arrival may have been cut short where it has zero bytes and the group has no whole rows. -/
theorem linkRowBytes_carrier (free : Nat) {a0 : DWord} (h : bit a0 63 = true) (a1 : DWord) (v : Row) :
    linkRowBytes free (rowMaybeCut a0 a1 v) =
      if fld a1 63 32 % 512 = 0 ∨ ∀ k, k < 8 → v.extractLsb' (512 * k) 512 ≠ 0 then 512
      else 64 * (1 + (Config.freeValue free).toNat % 8) := by
  have hwhole := maybeCut_eq_false_iff v
  split_ifs with hsure
  · rcases hsure with hrows | hfull
    · simp [linkRowBytes, rowMaybeCut, hrows]
    · simp [linkRowBytes, rowMaybeCut, hwhole.mpr hfull]
  · obtain ⟨hrows, hzero⟩ := not_or.mp hsure
    have hcut : maybeCut v = true := Bool.of_not_eq_false fun hno => hzero (hwhole.mp hno)
    simp [linkRowBytes, rowMaybeCut, h, hrows, hcut]

/-! ### REDUCE -/

/-- The landing of a whole REDUCE row (R313, R324). -/
def reduceLanding (e : Expect) (due : Nat) (a0 : DWord) (lo hi : BitVec 2048) : Landing :=
  { due := due, own := false, cell := BitVec.ofNat 14 (fld a0 43 30), row := fld a0 29 20, data := rowOf lo hi, rank := 3
    issued := due - e.lat, tie := e.port, src := e.port
    bucket := some (fld a0 47 45, BitVec.ofNat 32 (fld a0 63 48)), ovf := bit a0 17 }

/-- The exponent message of a whole REDUCE message (R311). -/
def reduceExp (due : Nat) (a0 : DWord) (lo : BitVec 2048) : ExpMsg :=
  { due := due, cell := BitVec.ofNat 14 (fld a0 43 30), k := fld a0 47 45, tag := fld a0 63 48, e := sext 16 (fld lo 15 0)
    nan := bit lo 18, pinf := bit lo 17, ninf := bit lo 16, ovf := bit lo 19 }

theorem reduceEmit_row {a0 : DWord} (h : bit a0 44 = true) (x : Ctx) (e : Expect) (due : Nat) (lo hi : BitVec 2048) :
    reduceEmit x e due a0 lo hi = (x, { lands := [reduceLanding e due a0 lo hi] }) := if_pos h

theorem reduceEmit_exp {a0 : DWord} (h : bit a0 44 = false) (x : Ctx) (e : Expect) (due : Nat) (lo hi : BitVec 2048) :
    reduceEmit x e due a0 lo hi = ({ x with exps := x.exps ++ [reduceExp due a0 lo] }, {}) := if_neg (by simp [h])

section
variable {a : DWord × BitVec 2048} (hhead : AtHead s p f rest 0x0A n) (hdue : Due (s.ctx n) p f e d)
  (hsecond : bit f.arg 19 = true) (hfirst : (s.ctx n).instances = [halfArrived p f d 0x0A a])
  (hcell : cellExists (s.ctx n).regions.length (BitVec.ofNat 14 (fld f.arg 43 30)) = true)
include hhead hdue hsecond hfirst hcell

/-- The second half makes a REDUCE message whole; `y` is its context with the message in the landing buffer. -/
theorem reduceArrives_whole : ∃ y : Ctx,
    (y.landings = (s.ctx n).landings ∧ y.arrivals = (s.ctx n).arrivals ∧ y.exps = (s.ctx n).exps) ∧
    reduceArrives s p = ((tookRx s p rest).setCtx n (reduceEmit y e d a.1 a.2 f.payload).1).emit n
      (reduceEmit y e d a.1 a.2 f.payload).2 := by
  have hplan : planBroken s n f = false := planBroken_reduce hhead.kind hhead.here hcell
  have hone : b01 (bit f.arg 19) = 1 := by rw [hsecond]; rfl
  obtain ⟨l, hl⟩ := catchUp_eq (s.ctx n) p f d
  simp only [reduceArrives, scheduled_acts hhead hplan, ctx_tookRx, expectedFor_due hdue, hone, enterHalf_second hfirst, hl, halfArrived]
  exact ⟨{ s.ctx n with
    lagging := l
    instances := putInstance (s.ctx n).instances { halfArrived p f d 0x0A a with half1 := some (f.arg, f.payload) } },
    ⟨rfl, rfl, rfl⟩, rfl⟩

theorem reduceArrives_row (hrow : bit a.1 44 = true) :
    Brought s (reduceArrives s p) p n rest [reduceLanding e d a.1 a.2 f.payload] [] := by
  obtain ⟨y, ⟨hlands, harrs, -⟩, hwhole⟩ := reduceArrives_whole hhead hdue hsecond hfirst hcell
  rw [hwhole, reduceEmit_row hrow]
  exact brought_emit s.free _ [] hlands harrs

theorem reduceArrives_exp (hexp : bit a.1 44 = false) :
    ((reduceArrives s p).ctx n).exps = (s.ctx n).exps ++ [reduceExp d a.1 a.2] := by
  obtain ⟨y, ⟨-, -, hexps⟩, hwhole⟩ := reduceArrives_whole hhead hdue hsecond hfirst hcell
  rw [hwhole, reduceEmit_exp hexp, State.emit_empty, State.ctx_setCtx, State.ctx_setCtx, hexps]

end

/-! ### A row that nothing expects (R437) -/

theorem rowArrives_unexpected (hhead : AtHead s p f rest 0x02 n) (hnone : (s.ctx n).expects = []) :
    rowArrives s p = plannedOut s p n f rest := by
  cases hplan : planBroken s n f with
  | true => exact scheduled_broken hhead.head hhead.kind hhead.tag hhead.admits hplan
  | false =>
    simp only [rowArrives, scheduled_acts hhead hplan, ctx_tookRx, expectedFor_nothing hnone]
    rfl

end

end Sys2Proof.Machine
end

section
/-!
SUPPORT. Silide links: results, barrier messages and hold notices (R36, R41, R236 to R241, R249).
-/
namespace Sys2Proof.Machine

section
variable {s : State} {p n : Nat} {f : Flit} {rest : List Flit}

/-! ### The receive side (Table 2.3) -/

section
variable {mtype : BitVec 6} (h : AtHead s p f rest mtype n) (hparts : (s.port p).parts = [])
  (hone : mtype ∉ ([0x03, 0x05, 0x07] : List (BitVec 6))) (hplan : planBroken s n f = false)
include h hparts hone hplan

theorem looseMsg_waits (hpaused : loosePaused (s.ctx n) = true) :
    looseMsg s p mtype (fun s n fs => fs.foldl (fun s f => s.deliver n p f) s) =
      (tookLoose s p f rest).setCtx n { s.ctx n with waiting := (s.ctx n).waiting ++ [(p, f)] } :=
  (looseMsg_one h hparts hone hplan).trans (if_pos hpaused)

theorem looseMsg_takesEffect (hruns : loosePaused (s.ctx n) = false) :
    looseMsg s p mtype (fun s n fs => fs.foldl (fun s f => s.deliver n p f) s) = takeEffect (tookLoose s p f rest) n f :=
  (looseMsg_one h hparts hone hplan).trans (if_neg (Bool.not_eq_true _ ▸ hruns))

end

theorem takeEffect_arrive (h : f.mtype = 0x08) : takeEffect s n f = partnerArrived s n f := by
  simp [takeEffect, h]

theorem takeEffect_release (h : f.mtype = 0x09) : takeEffect s n f = partnerReleased s n f := by
  simp [takeEffect, h]

theorem planBroken_result (hkind : f.mtype = 0x06) (hhop : f.hop = 0)
    (hcell : cellExists (s.ctx n).regions.length (argCell f.arg) = true) : planBroken s n f = false := by
  simp [planBroken, hkind, hhop, State.hasCell, hcell]

theorem planBroken_barrier (hkind : f.mtype = 0x08 ∨ f.mtype = 0x09) (hhop : f.hop = 0) : planBroken s n f = false := by
  rcases hkind with hkind | hkind <;> simp [planBroken, hkind, hhop]

/-! ### Barriers beyond the module -/

/-- The first partner that is heard opens the barrier. -/
theorem partnerArrived_first (hbars : (s.ctx n).bars = []) (hgen : fld f.arg 40 39 = 0) :
    partnerArrived s n f = s.setCtx n { s.ctx n with bars := [heardFirst (s.ctx n) f] } := by
  simp [partnerArrived, hearModule, hbars, hgen, flitKey, heardFirst, bit]

/-- A generation that every participant of the module has reached is released. -/
theorem partnerReleased_complete {i : BarInst} (hbars : (s.ctx n).bars = [i]) (hb : i.b = fld f.arg 43 41)
    (hscope : i.scope = fld f.arg 46 44) (hrejoin : i.rejoin = false) (hgen : i.gen % 4 = fld f.arg 40 39) (hcur : i.cur ≠ [])
    (hall : missing s n i = []) (hepoch : (i.curKey.getD (0, 0, false)).2.2 = false) :
    CtxBecomes s (partnerReleased s n f) n { s.ctx n with
      arrivals := (s.ctx n).arrivals ++ (releaseCells s n i).map (fun e => arriving 0 true e.1 e.2 1)
      bars := [nextGen i (s.ctx n).btime] } := by
  have hmine : (decide (i.b = fld f.arg 43 41) && !i.rejoin && decide (i.scope = fld f.arg 46 44) &&
      decide (i.gen % 4 = fld f.arg 40 39)) = true := by simp [hb, hscope, hrejoin, hgen]
  simp only [partnerReleased, hbars, List.find?_cons, hmine, List.isEmpty_eq_false_iff.mpr hcur, hall,
    List.isEmpty_nil, Bool.not_true, Bool.or_self,
    Bool.false_eq_true, if_false, hepoch, releaseGen, State.emit_arrs]
  refine ⟨?_, fun m hm => ?_, rfl⟩
  · rw [State.ctx_onCtx, State.ctx_setCtx]
    simp only [List.map_cons, List.map_nil, hmine, if_true]
    rfl
  · rw [State.ctx_onCtx_other _ _ hm, State.ctx_setCtx_other _ _ hm]

/-! ### HOLD_NOTICE (R41) -/

theorem AtHead.takesMessages {mtype : BitVec 6} (h : AtHead s p f rest mtype n) : takesMessages s (s.ctx n) = true := by
  have htakes := h.takes
  simpa [Machine.takesMessages, h.up, or_assoc] using htakes

theorem holdNotice_lags (h : AtHead s p f rest 0x11 n) (hnew : 256 * p + f.route.toNat ∉ (s.ctx n).lagging) :
    holdNotice s p = (tookRx s p rest).setCtx n { s.ctx n with
      hold := { (s.ctx n).hold with notice := true }, lagging := (s.ctx n).lagging ++ [256 * p + f.route.toNat] } := by
  have htakes : Machine.takesMessages (tookRx s p rest) (s.ctx n) = true := h.takesMessages
  have hnot : (s.ctx n).lagging.contains (256 * p + f.route.toNat) = false := by simpa using hnew
  simp only [holdNotice, controlMsg_acts h, State.onCtx, ctx_tookRx, htakes, if_true, hnot, Bool.false_eq_true, if_false]

end

end Sys2Proof.Machine
end

section
/-!
SUPPORT. Silide links: kill notices (R294, R365, R366) and MCTP packets over port 15 (R378, R379).
-/
namespace Sys2Proof.Machine

/-! ### What finishing a command reaches (R340 to R345, R353) -/

/-- From `s` to `t` only functions of the hosts have changed, and records and interrupts have left. -/
def HostOnly (s t : State) : Prop := { t with fns := s.fns, out := s.out } = s

namespace HostOnly

theorem refl (s : State) : HostOnly s s := rfl

variable {s t : State} (h : HostOnly s t)
include h

theorem emitOut (l : List Out) : HostOnly s (t.emitOut l) := h
theorem setFn (f : FnRef) (q : Fn) : HostOnly s (t.setFn f q) := h
theorem onFn (f : FnRef) (g : Fn → Fn) : HostOnly s (t.onFn f g) := h

theorem fireMsix (f : FnRef) (v : Nat) : HostOnly s (t.fireMsix f v) := by
  unfold State.fireMsix; dsimp only; split_ifs <;> exact h

theorem signalNow (f : FnRef) : HostOnly s (t.signalNow f) := by
  unfold State.signalNow
  dsimp only
  split_ifs
  · exact fireMsix (setFn h f _) f 0
  · exact h

theorem signalRecord (f : FnRef) : HostOnly s (t.signalRecord f) := signalNow (onFn h f _) f

theorem putRecord (f : FnRef) (r : Course) : HostOnly s (t.putRecord f r) := signalRecord (emitOut (setFn h f _) _) f

theorem finish (f : FnRef) (seq code n result : Nat) : HostOnly s (t.finish f seq code n result) := by
  unfold State.finish
  dsimp only
  split
  · exact h
  · split_ifs
    · exact fireMsix (setFn h f _) f 1
    · exact onFn (putRecord h f _) f _
    · exact h
    · exact h

theorem finishOn (n op code result : Nat) : HostOnly s (t.finishOn n op code result) :=
  foldl_keeps (HostOnly s) _ (fun _ c hu => finish hu _ c.seq code n result) _ _ h

theorem ctx (m : Nat) : t.ctx m = s.ctx m := (congrArg (State.ctx · m) (show { t with fns := s.fns, out := s.out } = s from h) :)

theorem cell (c : CellRef) : t.cell? c = s.cell? c :=
  (congrArg (State.cell? · c) (show { t with fns := s.fns, out := s.out } = s from h) :)

end HostOnly

/-! ### KILL_NOTICE -/

theorem beginKill_killable {s : State} {n : Nat} (source : Nat) (e : ErrRec) (p dome : Nat) (hkill : killable (s.ctx n) = true)
    (hup : s.unrecoverable = false) : ∃ (u : State) (x : Ctx) (k : Kill),
      s.beginKill n source e (some (p, dome)) = u.setCtx n x ∧ HostOnly s u ∧ x.state = .killing ∧ x.kill = some k ∧
      k.code = e.code ∧ k.source = source ∧ k.fromPort = some p ∧ k.notice = dome := by
  simp only [State.beginKill, hkill, hup, true_and, Bool.not_false, if_true]
  refine ⟨_, _, _, rfl, ?_, rfl, rfl, rfl, rfl, rfl, rfl⟩
  split_ifs
  · exact ((HostOnly.refl s).finishOn ..).finishOn ..
  · exact (HostOnly.refl s).finishOn ..

section
variable {s : State} {p n : Nat} {f : Flit} {rest : List Flit} (hrx : (s.port p).rx = f :: rest) (hkind : f.mtype = 0x13)
include hrx hkind

theorem killNotice_starts (htag : s.tagged f.ctx = some n) (hkill : killable (s.ctx n) = true) (hup : s.unrecoverable = false)
    (hnew : (s.ctx n).acceptDome ≤ fld f.payload 63 0) : ∃ (u : State) (x : Ctx) (k : Kill),
      killNotice s p = u.setCtx n x ∧ HostOnly (tookRx s p rest) u ∧ x.state = .killing ∧ x.kill = some k ∧
      k.code = 3 ∧ k.source = 3 ∧ k.fromPort = some p ∧ k.notice = fld f.payload 63 0 := by
  simp only [killNotice, takeRx_head hrx hkind, tagged_tookRx, htag, ctx_tookRx, Nat.not_lt.mpr hnew, if_false, hkill, if_true]
  exact beginKill_killable 3 _ p _ hkill hup

theorem killNotice_old (htag : s.tagged f.ctx = some n) (hold : fld f.payload 63 0 < (s.ctx n).acceptDome) :
    killNotice s p = tookRx s p rest := by
  simp only [killNotice, takeRx_head hrx hkind, tagged_tookRx, htag, ctx_tookRx, hold, if_true]

theorem killNotice_kept (htag : s.tagged f.ctx = none) :
    killNotice s p = (tookRx s p rest).keepNotice f.ctx (fld f.payload 63 0) p := by
  simp only [killNotice, takeRx_head hrx hkind, tagged_tookRx, htag]

end

/-! ### MGMT -/

/-- The bytes of a packet are those that the lantern takes from the payload. -/
theorem packetOf_bytes {f : Flit} {b : List Byte} (h : packetOf f b) :
    bytesOf (f.payload.toNat / 65536) (min 254 (fld f.payload 15 0)) = b := by
  obtain ⟨hlen, hget⟩ := h
  refine List.ext_getElem? fun i => ?_
  by_cases hi : i < b.length
  · rw [hget i hi, bytesOf, ← hlen]
    simp only [List.getElem?_map, List.getElem?_range hi, Option.map_some, BitVec.extractLsb', Nat.shiftRight_add]
    rw [Nat.shiftRight_eq_div_pow _ 16]
  · rw [List.getElem?_eq_none (Nat.not_lt.mp hi), List.getElem?_eq_none]
    simpa [bytesOf, ← hlen] using hi

/-- A packet of another version or for another endpoint is dropped. -/
theorem takePacket_foreign {l : Lantern} {b : List Byte}
    (h : b.length < 4 ∨ (b.getD 0 0).toNat % 16 ≠ 1 ∨ (b.getD 1 0 ≠ 0 ∧ b.getD 1 0 ≠ l.eidLink)) :
    takePacket l b = (l.inbox, none) := if_pos h

/-- The first packet of a message takes the place of what its sender began under its tag. -/
theorem takePacket_first {l : Lantern} {b : List Byte} (hlen : 4 ≤ b.length) (hshort : b.length ≤ 254)
    (hver : (b.getD 0 0).toNat % 16 = 1) (hdest : b.getD 1 0 = 0 ∨ b.getD 1 0 = l.eidLink)
    (hsom : (b.getD 3 0).getLsbD 7 = true) (heom : (b.getD 3 0).getLsbD 6 = false) :
    takePacket l b = (l.inbox.filter (fun o => !decide (packetKey o = packetKey b)) ++ [b], none) := by
  have hmine : ¬ (b.length < 4 ∨ (b.getD 0 0).toNat % 16 ≠ 1 ∨ (b.getD 1 0 ≠ 0 ∧ b.getD 1 0 ≠ l.eidLink)) := by
    rintro (h | h | ⟨h0, hl⟩)
    · omega
    · exact h hver
    · exact hdest.elim h0 hl
  have hfits : ¬ (([b].isEmpty = true) ∨ 1088 < ([b].flatMap (List.drop 4)).length) := by
    simp
    omega
  unfold takePacket
  simp only [if_neg hmine, bit, hsom, if_true, if_neg hfits, heom, Bool.false_eq_true, if_false]

theorem mem_inbox_other (l : Lantern) (b o : List Byte) : o ∈ l.inbox.filter (fun o => !decide (packetKey o = packetKey b)) ↔
    o ∈ l.inbox ∧ ¬ (o.getD 2 0 = b.getD 2 0 ∧ (o.getD 3 0).toNat % 16 = (b.getD 3 0).toNat % 16) := by
  simp only [List.mem_filter, Bool.not_eq_true', decide_eq_false_iff_not, packetKey, Prod.mk.injEq]

theorem pathOpen_port15 {s t : State} {q : Port} (h : PortBecomes s t 15 q) (hstate : q.state = (s.port 15).state) :
    t.pathOpen .port15 = s.pathOpen .port15 := by
  have hlantern : t.lantern = s.lantern := (congrArg State.lantern h.rest :)
  have hbring : t.bring = s.bring := (congrArg State.bring h.rest :)
  simp only [State.pathOpen, State.portActive, hlantern, hbring, h.here, hstate]

/-- A packet that ends no message changes what waits, and nothing else. -/
theorem packet_waits {u : State} {b : List Byte} {l : List (List Byte)} (h : takePacket u.lantern b = (l, none)) :
    u.packet b = { u with lantern := { u.lantern with inbox := l } } := by
  simp only [State.packet, h]

/-- Port 15 brings the lantern a packet. -/
theorem execMgmt_packet {s : State} {f : Flit} {rest : List Flit} {b : List Byte} (hrx : (s.port 15).rx = f :: rest)
    (hkind : f.mtype = 0x18) (hopen : s.pathOpen .port15 = true) (hb : packetOf f b) :
    execMgmt 15 s = .next (((tookRx s 15 rest).leavePort 15 f 1).packet b) := by
  have hopen' : ((tookRx s 15 rest).leavePort 15 f 1).pathOpen .port15 = true := by
    rw [pathOpen_port15 portBecomes_leavePort, hopen]
    unfold freeRx
    split_ifs <;> rfl
  have hfifteen : ((15 : Fin 16).val) = 15 := rfl
  simp only [execMgmt, hfifteen, takeRx_head hrx hkind, hopen', and_self, if_true, packetOf_bytes hb]

end Sys2Proof.Machine
end

section
/-!
SUPPORT. Silide links: messages, notices and packets that arrive (O49).
-/
namespace Sys2Proof.Machine

/-- A command of a scheduled message takes a scheduled flit of its type. -/
theorem schedForms_scheduled {p : Fin 16} {e : BitVec 6 × Instr} (he : e ∈ schedForms p) :
    ∃ act, ∀ s, exec e.2 s = .next (scheduled s p.val e.1 act) := by
  simp only [schedForms, List.mem_cons, List.not_mem_nil, or_false] at he
  rcases he with rfl | rfl | rfl <;> exact ⟨_, fun _ => rfl⟩

/-- A command of a notice takes a control flit of its type. -/
theorem noticeForms_controlMsg {p : Fin 16} {e : BitVec 6 × Instr} (he : e ∈ noticeForms p) :
    ∃ act, ∀ s, exec e.2 s = .next (controlMsg s p.val e.1 act) := by
  simp only [noticeForms, List.mem_cons, List.not_mem_nil, or_false] at he
  rcases he with rfl | rfl <;> exact ⟨_, fun _ => rfl⟩

/-- Settles O49: each clause is one outcome of `scheduled`, `looseMsg`, `controlMsg`, `killNotice` or `takePacket`, whose lemmas
stand above. -/
theorem scheduledMessagesAndNoticesArrive : Obligations.ScheduledMessagesAndNoticesArrive := by
  unfold Obligations.ScheduledMessagesAndNoticesArrive
  refine ⟨fun p s f rest n => ?_, fun p s f rest hrx hup => ?_⟩
  · intro x q
    refine ⟨fun e d hhead hdue hinst hnone => ?vacantAlone, fun e d hhead hdue harr hcell => ?vacantArrival,
      fun e d a hhead hdue hsecond hfirst hcell hrow hplain => ?rowPlain,
      fun e d a hhead hdue hsecond hfirst hcell hrow hcarrier => ?rowCarrier,
      fun e d a hhead hdue hsecond hfirst hcell => ⟨fun hrow => ?reduceRow, fun hexp => ?reduceExp⟩,
      fun hhead hnone => ?rowUnexpected,
      fun hhead hparts hcell hpaused => ?resultWaits, fun hhead hparts hruns hbars hgen => ?partnerArrives,
      fun i hhead hparts hruns hbars hb hscope hrejoin hgen hcur hall hepoch => ?generationReleased,
      fun hhead hnew => ?holdNotice, fun hhead => ?releaseNotice,
      fun hpass hcls e he hkind => ⟨fun out hout hne hclk => ?schedForwarded, fun hnowhere => ?schedNowhere⟩,
      fun hrx htag hfar hcls e he hkind out hout hne => ?noticeForwarded⟩
    case vacantAlone =>
      obtain ⟨l, hl⟩ := catchUp_eq x p.val f d
      refine ⟨_, congrArg Host.Outcome.next (vacantArrives_alone hhead hdue hnone), portBecomes_tookRx.here, ?_, ?_, fun c => rfl,
        fun m hm => State.ctx_setCtx_other _ _ hm⟩
      · rw [State.ctx_setCtx]
        exact congrArg (putInstance · _) hinst
      · rw [State.ctx_setCtx]
        exact (congrArg Ctx.arrivals hl :)
    case vacantArrival =>
      have h := vacantArrives_arrival hhead hdue harr hcell
      exact ⟨_, rfl, h.port, h.arrivals⟩
    case rowPlain =>
      have h := rowArrives_whole hhead hdue hsecond hfirst hcell hrow
      rw [rowEmit_arrs_none hplain] at h
      exact ⟨_, _, rfl, h.port, h.landings, rfl, rfl, rfl, rfl, rfl, rfl, linkRowBytes_whole _ hplain _ _, rfl,
        h.arrivals.trans (List.append_nil _), h.cells⟩
    case rowCarrier =>
      have h := rowArrives_whole hhead hdue hsecond hfirst hcell hrow
      rw [rowEmit_arrs_carrier hcarrier] at h
      exact ⟨_, _, rfl, h.landings, rfl, rfl, linkRowBytes_carrier _ hcarrier _ _, h.arrivals⟩
    case reduceRow =>
      have h := reduceArrives_row hhead hdue hsecond hfirst hcell hrow
      exact ⟨_, _, rfl, h.landings, rfl, rfl, rfl, rfl, rfl, rfl⟩
    case reduceExp =>
      have h := reduceArrives_exp hhead hdue hsecond hfirst hcell hexp
      exact ⟨_, _, rfl, h, rfl, rfl, rfl, rfl, sext_eq_toInt (by decide) _, rfl, rfl, rfl, rfl⟩
    case rowUnexpected =>
      obtain ⟨err, hkills, hcode, -⟩ := plannedOut_reports (s := s) (p := p.val) (n := n) (f := f) (rest := rest)
      exact ⟨_, err, congrArg Host.Outcome.next (rowArrives_unexpected hhead hnone), plannedOut_landings, hkills, hcode, plannedOut_port⟩
    case resultWaits =>
      refine ⟨_, congrArg Host.Outcome.next (looseMsg_waits hhead hparts (by decide)
        (planBroken_result hhead.kind hhead.here hcell) hpaused), ?_, port_tookLoose, fun c => rfl⟩
      rw [State.ctx_setCtx]
    case partnerArrives =>
      have htook := looseMsg_takesEffect hhead hparts (by decide) (planBroken_barrier (.inl hhead.kind) hhead.here) hruns
      rw [takeEffect_arrive hhead.kind, partnerArrived_first (s := tookLoose s p.val f rest) hbars hgen] at htook
      refine ⟨_, congrArg Host.Outcome.next htook, ?_, port_tookLoose, fun m hm => State.ctx_setCtx_other _ _ hm⟩
      rw [State.ctx_setCtx]
      rfl
    case generationReleased =>
      have htook := looseMsg_takesEffect hhead hparts (by decide) (planBroken_barrier (.inr hhead.kind) hhead.here) hruns
      rw [takeEffect_release hhead.kind] at htook
      have h := partnerReleased_complete (s := tookLoose s p.val f rest) hbars hb hscope hrejoin hgen hcur hall hepoch
      refine ⟨_, congrArg Host.Outcome.next htook, ?_, releaseCells_cells s n i, ⟨nextGen i x.btime, ?_, rfl, rfl, rfl, rfl⟩,
        fun hcls => ?_, fun m hm => h.others m hm, fun c => ?_⟩
      · rw [h.here]
        rfl
      · rw [h.here]
        rfl
      · exact (congrArg (State.port · p.val) h.rest :).trans (port_tookLoose hcls)
      · exact (congrArg (State.cell? · c) h.rest :)
    case holdNotice =>
      refine ⟨_, congrArg Host.Outcome.next (holdNotice_lags hhead hnew), portBecomes_tookRx.here, ?_,
        fun m hm => State.ctx_setCtx_other _ _ hm, fun c => rfl⟩
      rw [State.ctx_setCtx]
    case releaseNotice =>
      exact ⟨_, congrArg Host.Outcome.next (controlMsg_acts hhead), portBecomes_tookRx⟩
    case schedForwarded =>
      obtain ⟨act, hact⟩ := schedForms_scheduled he
      have hplan : planBroken s n f = false := by rw [planBroken_passing hpass, forwardPort_goesOut hout]; rfl
      have hleft : PortBecomes s ((tookRx s p.val rest).leavePort p.val f 1) p.val _ := portBecomes_leavePort
      refine ⟨_, transitPair x out f.route.toNat, (hact s).trans (congrArg Host.Outcome.next
        ((scheduled_forwards hpass hkind hplan).trans (forward_scheduled hcls hout))), ?_, ?_, fun o hp ho => ?_, rfl⟩
      · rw [State.port_reach_other _ _ _ _ hne.symm, hleft.here]
        exact freeRx_scheduled _ hcls
      · rw [State.port_reach, hleft.others out hne]
        exact reachPort_later _ _ hclk
      · rw [State.port_reach_other _ _ _ _ ho]
        exact hleft.others o hp
    case schedNowhere =>
      obtain ⟨act, hact⟩ := schedForms_scheduled he
      have hplan : planBroken s n f = true := by rw [planBroken_passing hpass, forwardPort_none hnowhere]; rfl
      exact ⟨_, (hact s).trans (congrArg Host.Outcome.next (scheduled_broken hpass.head hkind hpass.tag hpass.admits hplan)),
        plannedOut_reports, plannedOut_port hcls⟩
    case noticeForwarded =>
      obtain ⟨act, hact⟩ := noticeForms_controlMsg he
      have hleft : PortBecomes s (tookRx s p.val rest) p.val _ := portBecomes_tookRx
      refine ⟨_, (hact s).trans (congrArg Host.Outcome.next
        ((controlMsg_forwards hrx hkind htag hfar).trans (forward_control hcls hout))), ?_, ?_, fun o hp ho => ?_, rfl⟩
      · rw [State.port_onPort_other _ _ hne.symm]
        exact hleft.here
      · rw [State.port_onPort, hleft.others out hne]
      · rw [State.port_onPort_other _ _ ho]
        exact hleft.others o hp
  · refine ⟨fun n hkind htag hkill => ⟨fun hnew => ?killStarts, fun hold => ?killOld⟩,
      fun hkind htag hroom => ?killKept, fun hp hkind hcls hopen b hb => ?packet⟩
    case killStarts =>
      obtain ⟨u, y, k, ht, hhost, hstate, hk, hcode, hsource, hport, hnotice⟩ := killNotice_starts hrx hkind htag hkill hup hnew
      refine ⟨_, k, congrArg Host.Outcome.next ht, ?_, ?_, hcode, hsource, hport, hnotice, fun m hm => ?_, fun c => ?_⟩
      · rw [State.ctx_setCtx, hstate]
      · rw [State.ctx_setCtx, hk]
      · rw [State.ctx_setCtx_other _ _ hm, hhost.ctx]
        rfl
      · rw [State.cell_of_setCtx, hhost.cell]
        rfl
    case killOld =>
      exact ⟨_, congrArg Host.Outcome.next (killNotice_old hrx hkind htag hold), portBecomes_tookRx⟩
    case killKept =>
      refine ⟨_, congrArg Host.Outcome.next (killNotice_kept hrx hkind htag), ?_, ?_, fun m => rfl⟩
      · change (s.oldKills ++ _).drop (s.oldKills.length - 63) = _
        rw [Nat.sub_eq_zero_of_le (Nat.le_of_lt_succ hroom), List.drop_zero]
      · have hport := (portBecomes_tookRx (s := s) (p := p.val) (rest := rest)).onPort
          (fun q => { q with discard := satInc 0xFFFF q.discard })
        exact congrArg Port.rx hport.here
    case packet =>
      subst hp
      intro l q u other
      have htook : PortBecomes s ((tookRx s 15 rest).leavePort 15 f 1) 15 (freeRx (popped q rest) f 1) := portBecomes_leavePort
      rw [freeRx_loose q hcls] at htook
      have hpacket {inbox} (h : takePacket l b = (inbox, none)) := (execMgmt_packet hrx hkind hopen hb).trans
        (congrArg Host.Outcome.next (packet_waits (u := (tookRx s 15 rest).leavePort 15 f 1) h))
      refine ⟨fun hforeign => ⟨_, hpacket (takePacket_foreign hforeign), htook⟩, fun hlen hver hdest hsom heom => ?_⟩
      have hshort : b.length ≤ 254 := hb.1 ▸ Nat.min_le_left ..
      exact ⟨_, _, hpacket (takePacket_first hlen hshort hver hdest hsom heom), rfl, htook.here, mem_inbox_other l b, fun m => rfl⟩

end Sys2Proof.Machine
end

section
/-!
SUPPORT. Aligned fixed reduction: values packed into rows, and the lanes that they are read back from (R84, R312, R316).
-/
namespace Sys2Proof.Machine

/-- Digits of `k` bits, the first one lowest, stand in the number that they are packed into. -/
theorem foldr_shift_digit {α : Type} (k : Nat) (f : α → Nat) (hf : ∀ a, f a < 2 ^ k) (l : List α) (i : Nat) (hi : i < l.length) :
    l.foldr (fun a acc => acc <<< k + f a) 0 / 2 ^ (k * i) % 2 ^ k = f l[i] := by
  induction l generalizing i with
  | nil => exact absurd hi (Nat.not_lt_zero i)
  | cons a l ih =>
    rw [List.foldr_cons, Nat.shiftLeft_eq]
    cases i with
    | zero => simp [Nat.mod_eq_of_lt (hf a)]
    | succ i =>
      have hdrop : ∀ n, (n * 2 ^ k + f a) / 2 ^ k = n := fun n => by
        rw [Nat.mul_comm, Nat.mul_add_div (Nat.two_pow_pos k), Nat.div_eq_of_lt (hf a), Nat.add_zero]
      rw [Nat.mul_succ, Nat.add_comm (k * i), Nat.pow_add, ← Nat.div_div_eq_div_mul, hdrop]
      exact ih i (Nat.lt_of_succ_lt_succ hi)

theorem extractLsb'_ofNat_of_le {N s k : Nat} (n : Nat) (h : s + k ≤ N) :
    (BitVec.ofNat N n).extractLsb' s k = BitVec.ofNat k (n / 2 ^ s) := by
  refine BitVec.eq_of_getLsbD_eq fun i hi => ?_
  have hN : s + i < N := by omega
  simp only [BitVec.getLsbD_extractLsb', BitVec.getLsbD_ofNat, Nat.testBit_div_two_pow, hi, hN, decide_true, Bool.true_and, Nat.add_comm]

theorem laneOf_mapLanes (f : Nat → Word) {l : Nat} (hl : l < 32) : laneOf (mapLanes f) l = f l := by
  have hdigit := foldr_shift_digit 32 BitVec.toNat (fun w : Word => w.isLt) ((List.range 32).map f) l (by simpa using hl)
  rw [List.getElem_map, List.getElem_range] at hdigit
  rw [laneOf, mapLanes, packLanes, extractLsb'_ofNat_of_le _ (by omega)]
  exact BitVec.eq_of_toNat_eq hdigit

theorem packInts_digit (w : Nat) (l : List Int) (i : Nat) (hi : i < l.length) :
    packInts w l / 2 ^ (w * i) % 2 ^ w = (BitVec.ofInt w l[i]).toNat :=
  foldr_shift_digit w (fun v => (BitVec.ofInt w v).toNat) (fun v => (BitVec.ofInt w v).isLt) l i hi

theorem groupRow_lane (l : List Int) {i : Nat} (hi : i < l.length) (h64 : i < 64) :
    (groupRow (packInts 64 l) 0).extractLsb' (64 * i) 64 = BitVec.ofInt 64 l[i] := by
  rw [groupRow, extractLsb'_ofNat_of_le _ (by omega)]
  exact BitVec.eq_of_toNat_eq (packInts_digit 64 l i hi)

end Sys2Proof.Machine
end

section
/-!
SUPPORT. Aligned fixed reduction: the FP32 values of a share, their element exponents, and the merge of a row (R310).
-/
namespace Sys2Proof.Machine

/-! ### The fields of a finite FP32 number (R82) -/

theorem isNan_iff {v : FVal} : isNan v = true ↔ v = .nan := by
  cases v <;> simp [isNan]

theorem isFin_iff {v : FVal} : isFin v = true ↔ ∃ n m x, v = .fin n m x := by
  cases v <;> simp [isFin]

theorem fpv_eq_fin {w : Word} {n : Bool} {m : Nat} {x : Int} (h : fpv w = .fin n m x) :
    (w.toNat / 2 ^ 23 % 256 = 0 ∧ m = w.toNat % 2 ^ 23 ∧ x = -149) ∨
    (w.toNat / 2 ^ 23 % 256 ≠ 0 ∧ m = w.toNat % 2 ^ 23 + 2 ^ 23 ∧ x = ((w.toNat / 2 ^ 23 % 256 : Nat) : Int) - 150) := by
  unfold fpv decodeFloat at h
  dsimp only [fp32Fmt] at h
  split_ifs at h with hspecial hmant he4m3 hexp
  · obtain ⟨-, rfl, rfl⟩ := FVal.fin.inj h
    exact .inl ⟨hexp, rfl, rfl⟩
  · obtain ⟨-, rfl, rfl⟩ := FVal.fin.inj h
    exact .inr ⟨hexp, rfl, by omega⟩

theorem fpv_exponent_ge {w : Word} {n : Bool} {m : Nat} {x : Int} (h : fpv w = .fin n m x) : -149 ≤ x := by
  rcases fpv_eq_fin h with ⟨-, -, hx⟩ | ⟨hexp, -, hx⟩ <;> omega

theorem elemExp_eq_elementExponent {w : Word} (h : isFin (fpv w) = true) : elemExp w = elementExponent w := by
  obtain ⟨n, m, x, hv⟩ := isFin_iff.mp h
  rcases fpv_eq_fin hv with ⟨hexp, rfl, rfl⟩ | ⟨hexp, rfl, rfl⟩
  · by_cases hm : w.toNat % 2 ^ 23 = 0
    · simp only [elemExp, elementExponent, hv, hexp, hm, ne_eq, not_true_eq_false, if_false, if_true]
    · simp only [elemExp, elementExponent, hv, hexp, if_neg hm, floorLog2V, ne_eq, not_true_eq_false, if_false]
      omega
  · have hlog : Nat.log2 (w.toNat % 2 ^ 23 + 2 ^ 23) = 23 := (Nat.log2_eq_iff (by omega)).mpr (by omega)
    have hm : w.toNat % 2 ^ 23 + 2 ^ 23 ≠ 0 := by omega
    simp only [elemExp, elementExponent, hv, if_neg hm, floorLog2V, hlog, ne_eq, hexp, not_false_eq_true, if_true]
    omega

/-! ### The merge of a row (R310) -/

theorem foldl_max_spec {α : Type} (f : α → Int) (l : List α) (b : Int) :
    b ≤ l.foldl (fun a w => max a (f w)) b ∧ (∀ w ∈ l, f w ≤ l.foldl (fun a w => max a (f w)) b) ∧
    (l.foldl (fun a w => max a (f w)) b = b ∨ ∃ w ∈ l, f w = l.foldl (fun a w => max a (f w)) b) := by
  induction l generalizing b with
  | nil => simp
  | cons w l ih =>
    obtain ⟨hbase, hall, hsome⟩ := ih (max b (f w))
    refine ⟨(le_max_left _ _).trans hbase, ?_, ?_⟩
    · exact List.forall_mem_cons.mpr ⟨(le_max_right _ _).trans hbase, hall⟩
    · rcases hsome with hsame | ⟨v, hv, heq⟩
      · rcases max_choice b (f w) with hmax | hmax
        · exact .inl (hsame.trans hmax)
        · exact .inr ⟨w, List.mem_cons_self, (hsame.trans hmax).symm⟩
      · exact .inr ⟨v, List.mem_cons_of_mem _ hv, heq⟩

/-- The lanes of a row that a mask includes. -/
theorem mem_included {row : TileRow} {m w : Word} :
    w ∈ ((maskedLanes row m).filter (·.2)).map (·.1) ↔ ∃ l : Fin 32, m.getLsbD l.val = true ∧ laneOf row l.val = w := by
  simp only [maskedLanes, List.mem_map, List.mem_filter, List.mem_range, Fin.exists_iff]
  constructor
  · rintro ⟨_, ⟨⟨l, hl, rfl⟩, hincl⟩, rfl⟩
    exact ⟨l, hl, hincl, rfl⟩
  · rintro ⟨l, hl, hincl, rfl⟩
    exact ⟨_, ⟨⟨l, hl, rfl⟩, hincl⟩, rfl⟩

theorem rowMerge_exponentMerge (row : TileRow) (m : Word) : RowMerge row m (exponentMerge (maskedLanes row m)) := by
  have hany : ∀ p : Word → Bool, (((maskedLanes row m).filter (·.2)).map (·.1)).any p = true ↔
      ∃ l : Fin 32, m.getLsbD l.val = true ∧ p (laneOf row l.val) = true := fun p => by
    simp only [List.any_eq_true, mem_included]
    exact ⟨fun ⟨_, ⟨l, hl, hw⟩, hp⟩ => ⟨l, hl, hw ▸ hp⟩, fun ⟨l, hl, hp⟩ => ⟨_, ⟨l, hl, rfl⟩, hp⟩⟩
  obtain ⟨hbase, hall, hsome⟩ := foldl_max_spec elemExp
    ((((maskedLanes row m).filter (·.2)).map (·.1)).filter (fun w => isFin (fpv w))) (-150)
  refine ⟨_, _, _, _, rfl, hbase, fun l hl hfin => ?_, hsome.imp_right ?_, ?_, ?_, ?_⟩
  · rw [← elemExp_eq_elementExponent hfin]
    exact hall _ (List.mem_filter.mpr ⟨mem_included.mpr ⟨l, hl, rfl⟩, hfin⟩)
  · rintro ⟨w, hw, heq⟩
    obtain ⟨hmem, hfin⟩ := List.mem_filter.mp hw
    obtain ⟨l, hl, rfl⟩ := mem_included.mp hmem
    exact ⟨l, hl, hfin, (elemExp_eq_elementExponent hfin).symm.trans heq⟩
  · simp only [hany, isNan_iff]
  · simp only [hany, decide_eq_true_eq]
  · simp only [hany, decide_eq_true_eq]

end Sys2Proof.Machine
end

section
/-!
SUPPORT. Aligned fixed reduction: the share values of R312 and R318 as rational numbers.
-/
namespace Sys2Proof.Machine

/-! ### Powers of two, whole and broken -/

theorem two_zpow_eq_natPow_mul {x a : Int} (h : x ≤ a) : (2 : ℚ) ^ a = ((2 ^ (a - x).toNat : Nat) : ℚ) * 2 ^ x := by
  rw [Nat.cast_pow, Nat.cast_ofNat, ← zpow_natCast, ← zpow_add₀ two_ne_zero]
  congr 1
  omega

theorem emod_eq_zero_iff_cast_ediv (s : Int) {d : Nat} (hd : (d : ℚ) ≠ 0) :
    s % (d : Int) = 0 ↔ ((s / (d : Int) : Int) : ℚ) = (s : ℚ) / (d : ℚ) := by
  have hsplit : (d : ℚ) * ((s / (d : Int) : Int) : ℚ) + ((s % (d : Int) : Int) : ℚ) = s := by
    exact_mod_cast Int.mul_ediv_add_emod s d
  rw [eq_div_iff hd, ← hsplit, mul_comm, left_eq_add]
  norm_cast

/-- Truncation toward minus infinity in units of 2^lr, and whether a part was lost (R90, R312). -/
theorem truncTo_eq_floor (s x lr : Int) : truncTo { sum := s, e := x } lr =
    (⌊(s : ℚ) * 2 ^ x * 2 ^ (-lr)⌋, decide ((⌊(s : ℚ) * 2 ^ x * 2 ^ (-lr)⌋ : ℚ) ≠ (s : ℚ) * 2 ^ x * 2 ^ (-lr))) := by
  by_cases h : lr ≤ x
  · have hval : (s : ℚ) * 2 ^ x * 2 ^ (-lr) = ((s * 2 ^ (x - lr).toNat : Int) : ℚ) := by
      rw [two_zpow_eq_natPow_mul h, zpow_neg]
      push_cast
      field_simp
    rw [hval, Int.floor_intCast]
    simp [truncTo, h]
  · have hval : (s : ℚ) * 2 ^ x * 2 ^ (-lr) = (s : ℚ) / ((2 ^ (lr - x).toNat : Nat) : ℚ) := by
      rw [zpow_neg, two_zpow_eq_natPow_mul (not_le.mp h).le]
      field_simp
    have hpos : ((2 ^ (lr - x).toNat : Nat) : ℚ) ≠ 0 := by positivity
    have hcast : (2 : Int) ^ (lr - x).toNat = ((2 ^ (lr - x).toNat : Nat) : Int) := by push_cast; rfl
    rw [hval, Rat.floor_intCast_div_natCast, truncTo, if_neg h, hcast]
    exact congrArg (Prod.mk _) (decide_eq_decide.mpr (not_congr (emod_eq_zero_iff_cast_ediv s hpos)))

theorem reachesAnchor_iff (m : Nat) (x a : Int) :
    reachesAnchor { sum := m, e := x } a = true ↔ (2 : ℚ) ^ a ≤ (m : ℚ) * 2 ^ x := by
  have hx : (0 : ℚ) < 2 ^ x := by positivity
  unfold reachesAnchor
  by_cases h : a ≤ x
  · have hle : (2 : ℚ) ^ a ≤ 2 ^ x := zpow_le_zpow_right₀ one_le_two h
    simp only [h, if_true, decide_eq_true_eq]
    refine ⟨fun hm => hle.trans (le_mul_of_one_le_left hx.le ?_), ?_⟩
    · exact_mod_cast Nat.one_le_iff_ne_zero.mpr (by exact_mod_cast hm)
    · intro hreach hm
      rw [show m = 0 by exact_mod_cast hm, Nat.cast_zero, zero_mul] at hreach
      exact absurd hreach (not_le.mpr (by positivity))
  · rw [two_zpow_eq_natPow_mul (not_le.mp h).le, mul_le_mul_iff_left₀ hx]
    simp only [h, if_false, decide_eq_true_eq, Int.natAbs_natCast]
    norm_cast

/-! ### Share values -/

theorem fpRat_eq {w : Word} {n : Bool} {m : Nat} {x : Int} (h : fpv w = .fin n m x) :
    fpRat w = ((if n then -(m : Int) else m : Int) : ℚ) * 2 ^ x := by
  rw [fpRat, h]
  cases n <;> simp

theorem shareOver_iff {w : Word} {n : Bool} {m : Nat} {x : Int} (h : fpv w = .fin n m x) (e : Int) :
    shareOver e w true ↔ reachesAnchor { sum := m, e := x } (e + 1) = true := by
  have habs : |fpRat w| = (m : ℚ) * 2 ^ x := by
    rw [fpRat_eq h, abs_mul, abs_of_pos (show (0 : ℚ) < 2 ^ x by positivity)]
    cases n <;> simp
  simp [shareOver, h, isFin, habs, reachesAnchor_iff]

theorem shareValue_of_over {e lr : Int} {w : Word} {incl : Bool} (h : shareOver e w incl) :
    shareValue e lr w incl = (0, false, true) := by
  obtain ⟨rfl, hfin, -⟩ := id h
  obtain ⟨n, m, x, hv⟩ := isFin_iff.mp hfin
  simp [shareValue, hv, (shareOver_iff hv e).mp h]

/-- A share value below 2^(E + 1) loses bits where it is no multiple of 2^lr. -/
theorem shareValue_of_not_over {e lr : Int} {w : Word} {incl : Bool} (h : ¬ shareOver e w incl) :
    shareValue e lr w incl = (shareX lr w incl,
      decide (incl = true ∧ isFin (fpv w) = true ∧ (⌊fpRat w * 2 ^ (-lr)⌋ : ℚ) ≠ fpRat w * 2 ^ (-lr)), false) := by
  cases hv : fpv w with
  | nan => simp [shareValue, shareX, hv, isFin]
  | inf n => simp [shareValue, shareX, hv, isFin]
  | fin n m x =>
    cases incl with
    | false => simp [shareValue, shareX, hv]
    | true =>
      have hlow : reachesAnchor { sum := m, e := x } (e + 1) = false := by
        simpa [shareOver_iff hv] using h
      simp [shareValue, shareX, hv, isFin, hlow, truncTo_eq_floor, fpRat_eq hv]

theorem shareExact_eq_shareX (w : Word) (incl : Bool) : shareExact w incl = shareX (-149) w incl := by
  cases hv : fpv w with
  | nan => simp [shareExact, shareX, hv, isFin]
  | inf n => simp [shareExact, shareX, hv, isFin]
  | fin n m x =>
    cases incl with
    | false => simp [shareExact, shareX, hv]
    | true =>
      have hfloor := congrArg Prod.fst (truncTo_eq_floor (if n then -(m : Int) else m) x (-149))
      rw [← fpRat_eq hv, truncTo, if_pos (fpv_exponent_ge hv)] at hfloor
      have hshare : shareX (-149) w true = ⌊fpRat w * 2 ^ (-(-149 : Int))⌋ := by rw [shareX, hv]; rfl
      refine Eq.trans ?_ (hfloor.trans hshare.symm)
      rw [shareExact, hv]
      cases n <;> simp [scaledInt, Nat.shiftLeft_eq]

end Sys2Proof.Machine
end

section
/-!
SUPPORT. Aligned fixed reduction: V slots that pass the checks of their unit, and the row that an AFR instruction reads at its
issue (R56, R130, R189, R198).
-/
namespace Sys2Proof.Machine

/-! ### Checks of the unit -/

theorem portReason_free {cell : Cell} {l : List (VPort × Nat)} (h : portsFree cell l) : portReason cell l = none := by
  refine if_neg ?_
  simpa [portClash, portsFree] using h

theorem afrState_true {p : Prop} [Decidable p] (h : p) : afrState (decide p) = none := by simp [afrState, h]

theorem afrRange_one {r : Nat} (h : r < 640) : afrRange [r] = none := by simp [afrRange, h]

theorem rowNumber_eq (base : Word) (off : BitVec 10) : rowNumber base off.toNat = (base + off.setWidth 32).toNat := by
  rw [rowNumber, BitVec.ofNat_toNat]

/-! ### A row that is read at the issue -/

/-- The scratchpad after a slot of rank `rank` has read row `row`. -/
def spadAfterRead (sp : Scratchpad) (row rank : Nat) : Scratchpad :=
  let read := countCorrected sp row (errWords sp row .correctable)
  { read with claims := read.claims ++ [(row % 8, rank)] }

/-- Counting corrected words changes the four fields of Table 8.10 alone. -/
theorem countCorrected_frame (sp : Scratchpad) (row : Nat) (ws : List Nat) :
    { countCorrected sp row ws with ceCount := sp.ceCount, ce := sp.ce, firstRow := sp.firstRow, firstWord := sp.firstWord } = sp := by
  cases ws with
  | nil => rfl
  | cons w ws => unfold countCorrected; dsimp only; split_ifs <;> rfl

theorem rowRead_spadAfterRead (sp : Scratchpad) (row rank : Nat) : RowRead sp (spadAfterRead sp row rank) row rank := by
  have hframe := countCorrected_frame sp row (errWords sp row .correctable)
  have hclaims : (countCorrected sp row (errWords sp row .correctable)).claims = sp.claims := (congrArg Scratchpad.claims hframe :)
  refine ⟨?_, congrArg (· ++ _) hclaims⟩
  rw [← hclaims]
  exact hframe

/-- A sound row is read as it stands, and its corrected words are counted. -/
theorem readRow_readable {cell : Cell} {row : Nat} (h : Readable cell row) (x : Ctx) (dome : Nat) :
    (readRow x cell dome row).1 = { cell with
      spad := countCorrected cell.spad row (errWords cell.spad row .correctable) } ∧
    (readRow x cell dome row).2.1 = some (Mem.rd 0 cell.spad.rows row) := by
  have hsound : errWords cell.spad row .uncorrectable = [] :=
    List.filter_eq_nil_iff.mpr fun w hw => by simpa using h.sound w (List.mem_range.mp hw)
  simp only [readRow, hsound, and_self]

/-- A slot of a rank other than 4 that reads one readable row executes. -/
theorem issueSlot_reads_row {s : State} {c : CellRef} {sl : Slot} {i : Instr} {body : Ctx → Cell → SlotAct} {cell : Cell}
    {row : Nat} (h : Issuing s c sl cell) (hl : legal i = true) (hi : (body (s.ctx c.ctx.val) cell).illegal = false)
    (hr : (body (s.ctx c.ctx.val) cell).reason = none) (hreads : (body (s.ctx c.ctx.val) cell).reads = [row])
    (hd : (body (s.ctx c.ctx.val) cell).desc = none) (hrank : slotRank sl ≠ 4) (hrow : Readable cell row) :
    (issueSlot s c sl i body).cell? c =
      some (markIssued (claimBanks (body (s.ctx c.ctx.val) cell).cell (slotRank sl) [row]) sl) := by
  have hbank : bankConflict cell (slotRank sl) [row] = false := by
    simpa [bankConflict, banks, hrank] using fun b r hmem hb => absurd hb (hrow.bank (b, r) hmem)
  rw [issueSlot_executes h hl hi hr (by rw [hreads, hbank]) (by rw [hd]; rfl), hreads, hd, State.cell_emit, State.cell_setCell]
  rfl

/-! ### The work of a cycle -/

/-- Work that adds changes of bucket slots to the instructions in progress. -/
theorem applyVec_upd (cell : Cell) (keep : Option VecOp) (upd : List BktUpd) (lands : List Landing) :
    applyVec cell { keep := keep, upd := upd, lands := lands } = { cell with vec := { cell.vec with
      ops := cell.vec.ops ++ keep.toList, bktUpds := cell.vec.bktUpds ++ upd } } := by
  simp [applyVec]

theorem applyVec_tileWrites (cell : Cell) (tw : List TileWrite) :
    applyVec cell { tw := tw } = { cell with vec := { cell.vec with tileWrites := cell.vec.tileWrites ++ tw } } := by
  simp [applyVec]

/-- An instruction starts with the work of its issue cycle. -/
theorem startVec_of_vecAdvance {cell : Cell} {op : VecOp} {keep : Option VecOp} {upd : List BktUpd} {lands : List Landing}
    (h : vecAdvance cell op = { keep := keep, upd := upd, lands := lands }) : startVec cell op = ({ cell with vec := { cell.vec with
      ops := cell.vec.ops ++ keep.toList, bktUpds := cell.vec.bktUpds ++ upd } }, { lands := lands }) := by
  rw [startVec, h, applyVec_upd]

/-- The cell as the instructions in progress find it in a later cycle: taken out one by one, past claims gone. -/
def betweenOps (cell : Cell) : Cell :=
  { cell with vec := { cell.vec with ops := [], claims := cell.vec.claims.filter (fun e => decide (cell.now ≤ e.2)) } }

/-- One instruction in progress goes on with the work of its cycle. -/
theorem goesOn_of_vecAdvance {cell : Cell} {op : VecOp} {keep : Option VecOp} {upd : List BktUpd} {lands : List Landing}
    (h : vecAdvance (betweenOps cell) op = { keep := keep, upd := upd, lands := lands }) :
    GoesOn cell op (fun v => { v with ops := keep.toList, bktUpds := v.bktUpds ++ upd }) lands := by
  have hcycle : vecCycle { cell with vec := { cell.vec with ops := [op] } } =
      (applyVec (betweenOps cell) (vecAdvance (betweenOps cell) op),
        ({} : Emit).and { lands := (vecAdvance (betweenOps cell) op).lands }) := rfl
  rw [GoesOn, hcycle, h, applyVec_upd]
  rfl

end Sys2Proof.Machine
end

section
/-!
SUPPORT. Aligned fixed reduction: AFREXP and AFRCVT at their issue and in their later cycles (R309, R310, R312, R318).
-/
namespace Sys2Proof.Machine

/-! ### The work of their cycles -/

theorem addUpd_ite (cell : Cell) (u : List BktUpd) (p : Prop) [Decidable p] :
    (if p then addUpd cell u else cell) = addUpd cell (if p then u else []) := by
  split_ifs
  · rfl
  · simp [addUpd]

section
variable {cell : Cell} {k src srow n row mask : Nat} {minv : Bool} {log : SlotLog} {desc : Word} {e : Int}

/-- The exponent pass reads its first row in the cycle of the issue. -/
theorem vecAdvance_afrexp_issue (hsrow : srow < 32) : vecAdvance cell (.afrexp cell.now k src srow n mask minv) = {
    keep := if 1 < n then some (.afrexp cell.now k src srow n mask minv) else none
    upd := [⟨cell.now + 2, k, exponentMerge (maskedLanes (tileRow cell.vec src srow) (maskRow cell.vec mask srow minv))⟩] } := by
  simp only [vecAdvance, Nat.sub_self, Nat.add_zero, Nat.zero_add, Nat.mod_eq_of_lt hsrow]

/-- A conversion reads the first half of its elements in the cycle of the issue. -/
theorem vecAdvance_afrcvt_issue (hsrow : srow < 32) :
    vecAdvance cell (.afrcvt cell.now log k src srow row mask minv desc e []) = {
      keep := some (.afrcvt cell.now log k src srow row mask minv desc e
        [(tileRow cell.vec src srow, maskRow cell.vec mask srow minv)]) } := by
  simp only [vecAdvance, Nat.sub_self, Nat.add_zero, Nat.mod_eq_of_lt hsrow, if_true, List.nil_append]

/-- Element `i` of a bucket row that two tile rows hold (R306). -/
def shareWord (g g' : TileRow × Word) (i : Nat) : Word := if i < 32 then laneOf g.1 i else laneOf g'.1 (i - 32)

/-- Whether the masks of the two tile rows include element `i`. -/
def shareIncl (g g' : TileRow × Word) (i : Nat) : Bool := if i < 32 then g.2.getLsbD i else g'.2.getLsbD (i - 32)

theorem flatMap_maskedLanes (g g' : TileRow × Word) : ([g] ++ [g']).flatMap (fun g => maskedLanes g.1 g.2) =
    (List.range 64).map (fun i => (shareWord g g' i, shareIncl g g' i)) := by
  have hlow : maskedLanes g.1 g.2 = (List.range 32).map (fun i => (shareWord g g' i, shareIncl g g' i)) :=
    List.map_congr_left fun i hi => by simp [shareWord, shareIncl, List.mem_range.mp hi]
  have hhigh : maskedLanes g'.1 g'.2 = ((List.range 32).map (32 + ·)).map (fun i => (shareWord g g' i, shareIncl g g' i)) := by
    simp [maskedLanes, shareWord, shareIncl]
  simp only [List.cons_append, List.nil_append, List.flatMap_cons, List.flatMap_nil, List.append_nil, hlow, hhigh,
    ← List.map_append, ← List.range_add]

/-- The 64 share values of an ordinary bucket, each with LOSS and OVER (R312). -/
def shareValues (e : Int) (desc : Word) (g g' : TileRow × Word) : List (Int × Bool × Bool) :=
  (List.range 64).map (fun i => shareValue e (bktLr desc e) (shareWord g g' i) (shareIncl g g' i))

/-- The 64 share values of a privileged bucket, as its group (R318). -/
def shareGroup (g g' : TileRow × Word) : Nat :=
  packInts 320 ((List.range 64).map (fun i => shareExact (shareWord g g' i) (shareIncl g g' i)))

section
variable {issued : Nat} {g g' : TileRow × Word} (hnow : cell.now = issued + 1)
  (hg : g' = (tileRow cell.vec src ((srow + 1) % 32), maskRow cell.vec mask ((srow + 1) % 32) minv))
include hnow hg

/-- The second cycle of a conversion in an ordinary bucket: one row of shares, and what it sets in its bucket. -/
theorem vecAdvance_afrcvt_ordinary (hdesc : desc.getLsbD 15 = false) :
    vecAdvance cell (.afrcvt issued log k src srow row mask minv desc e [g]) = {
      lands := [ownRow cell log row (issued + 2) (issued + 4)
        (groupRow (packInts 64 ((shareValues e desc g g').map (·.1))) 0) (some (k, desc))]
      upd := (if (shareValues e desc g g').any (·.2.1) then [⟨issued + 4, k, .loss⟩] else []) ++
        (if (shareValues e desc g g').any (·.2.2) then [⟨issued + 4, k, .merge (-150) false false false true⟩] else []) } := by
  have hone : cell.now - issued = 1 := by omega
  have hlater : cell.now ≠ issued := by omega
  have hplain : ¬ (bktPriv desc = true) := Bool.eq_false_iff.mp hdesc
  subst hg
  simp only [vecAdvance, hone, if_neg hlater, if_neg hplain, flatMap_maskedLanes, List.map_map]
  rw [shareValues, List.map_map]
  rfl

/-- The second cycle of a conversion in a privileged bucket: the five rows of its group. -/
theorem vecAdvance_afrcvt_privileged (hdesc : desc.getLsbD 15 = true) :
    vecAdvance cell (.afrcvt issued log k src srow row mask minv desc e [g]) = {
      lands := (List.range 5).map (fun j => ownRow cell log (row + j) (issued + 2 + j) (issued + 4 + j)
        (BitVec.ofNat 4096 (shareGroup g g' / 2 ^ (4096 * j))) (some (k, desc))) } := by
  have hone : cell.now - issued = 1 := by omega
  have hlater : cell.now ≠ issued := by omega
  have hpriv : bktPriv desc = true := hdesc
  subst hg
  simp only [vecAdvance, hone, if_neg hlater, if_pos hpriv, flatMap_maskedLanes, List.map_map, groupRow, Nat.shiftRight_eq_div_pow]
  rfl

end

end

/-! ### Their issue -/

section
variable {s : State} {c : CellRef} {cell : Cell} {k : BitVec 3} (h : Issuing s c .V cell)
include h

/-- AFREXP merges its first row, and opens an IDLE bucket. -/
theorem exec_afrexp {src : BitVec 4} {srow nrows : BitVec 5} {mask : BitVec 3} {minv : Bool}
    (hstate : (bktAt cell k).state = 1 ∨ ((bktAt cell k).state = 0 ∧
      1 ≤ bktGuard (cell.vec.bktDesc[k.toNat]'(k.isLt)) ∧ bktGuard (cell.vec.bktDesc[k.toNat]'(k.isLt)) ≤ 18 ∧
      bktsInFlight (s.cellsOf c.ctx.val) + bktsOpening (s.cellsOf c.ctx.val) < 4096))
    (hfree : portsFree cell (claimRun .rp0 cell.now (nrows.toNat + 1))) :
    ∃ t, exec (.afrexp c k src srow nrows mask minv) s = .next t ∧
      CellBecomes s t c (vectored cell (claimRun .rp0 cell.now (nrows.toNat + 1)) (fun v => { v with
        ops := v.ops ++ (if nrows = 0 then [] else
          [.afrexp cell.now k.toNat src.toNat srow.toNat (nrows.toNat + 1) mask.toNat minv])
        bktUpds := v.bktUpds ++ (if (bktAt cell k).state = 0 then
          [⟨cell.now, k.toNat, .opened (cell.vec.bktDesc[k.toNat]'(k.isLt))⟩] else []) ++
          [⟨cell.now + 2, k.toNat, exponentMerge
            (maskedLanes (tileRow cell.vec src.toNat srow.toNat) (maskRow cell.vec mask.toNat srow.toNat minv))⟩] })) := by
  refine ⟨_, rfl, issueSlot_changes_cell h rfl rfl ?reason rfl rfl rfl ?changed⟩
  case reason =>
    have hports : portReason cell ((List.range (nrows.toNat + 1)).map (fun j => (VPort.rp0, cell.now + j))) = none :=
      portReason_free hfree
    dsimp only
    rw [hports]
    rcases hstate with hopen | ⟨hidle, hlow, hhigh, hroom⟩
    · simp [firstReason, afrState, hopen]
    · simp [firstReason, afrState, hidle, hlow, hhigh, Nat.not_le.mpr hroom]
  case changed =>
    have hmore : 1 < nrows.toNat + 1 ↔ ¬ nrows = 0 := by
      rw [Nat.lt_add_left_iff_pos, Nat.pos_iff_ne_zero, ne_eq, BitVec.toNat_eq]
      rfl
    simp only [decide_eq_true_eq, addUpd_ite]
    refine (congrArg Prod.fst (startVec_of_vecAdvance (vecAdvance_afrexp_issue srow.isLt))).trans ?_
    simp only [apply_ite Option.toList, hmore, ite_not]
    rfl

/-- AFRCVT moves an OPEN bucket to SUM, and holds the first half of its elements. -/
theorem exec_afrcvt {src : BitVec 4} {srow rs : BitVec 5} {off : BitVec 10} {mask : BitVec 3} {minv : Bool}
    (hstate : (bktAt cell k).state ≠ 0) (heven : srow.getLsbD 0 = false)
    (hrow : (sreg cell rs + off.setWidth 32).toNat + (if (bktAt cell k).desc.getLsbD 15 then 4 else 0) < 640)
    (hfree : portsFree cell (claimRun .rp0 cell.now 2)) :
    ∃ t w, exec (.afrcvt c k src srow rs off mask minv) s = .next t ∧
      CellBecomes s t c (vectored cell (claimRun .rp0 cell.now 2) (fun v => { v with
        bktUpds := v.bktUpds ++ (if (bktAt cell k).state = 1 then [⟨cell.now, k.toNat, .summing⟩] else [])
        ops := v.ops ++ [.afrcvt cell.now (slotLogOf (s.ctx c.ctx.val) cell .V w 3) k.toNat src.toNat srow.toNat
          (sreg cell rs + off.setWidth 32).toNat mask.toNat minv (bktAt cell k).desc (bktAt cell k).e
          [(tileRow cell.vec src.toNat srow.toNat, maskRow cell.vec mask.toNat srow.toNat minv)]] })) := by
  refine ⟨_, (encodeSlot (.afrcvt c k src srow rs off mask minv)).getD 0, rfl,
    issueSlot_changes_cell h (congrArg Bool.not heven) rfl ?reason rfl rfl ?sent ?changed⟩
  case reason =>
    have hports : portReason cell [(.rp0, cell.now), (.rp0, cell.now + 1)] = none := portReason_free hfree
    have hlast : (if bktPriv (bktAt cell k).desc then rowNumber (sreg cell rs) off.toNat + 4
        else rowNumber (sreg cell rs) off.toNat) < 640 := by
      rw [rowNumber_eq, bktPriv, bit]
      split_ifs at hrow ⊢ <;> exact hrow
    dsimp only
    rw [hports, afrRange_one hlast, afrState_true hstate]
    rfl
  case sent =>
    simp only [addUpd_ite]
    exact congrArg Prod.snd (startVec_of_vecAdvance (vecAdvance_afrcvt_issue srow.isLt))
  case changed =>
    simp only [addUpd_ite, rowNumber_eq]
    refine (congrArg Prod.fst (startVec_of_vecAdvance (vecAdvance_afrcvt_issue srow.isLt))).trans ?_
    simp only [List.append_nil]
    rfl

end

/-! ### Their later cycles -/

section
variable {cell : Cell} {issued k src srow n row mask : Nat} {minv : Bool} {log : SlotLog} {desc : Word} {e : Int}

/-- AFREXP merges one row in each of its cycles. -/
theorem afrexp_goesOn : GoesOn cell (.afrexp issued k src srow n mask minv) (fun v => { v with
      ops := if cell.now - issued + 1 < n then [.afrexp issued k src srow n mask minv] else []
      bktUpds := v.bktUpds ++ [⟨cell.now + 2, k, exponentMerge (maskedLanes
        (tileRow cell.vec src ((srow + (cell.now - issued)) % 32))
        (maskRow cell.vec mask ((srow + (cell.now - issued)) % 32) minv))⟩] }) [] := by
  have hnext := goesOn_of_vecAdvance (cell := cell) (op := .afrexp issued k src srow n mask minv) rfl
  rwa [apply_ite Option.toList] at hnext

variable {g g' : TileRow × Word} (hnow : cell.now = issued + 1)
  (hg : g' = (tileRow cell.vec src ((srow + 1) % 32), maskRow cell.vec mask ((srow + 1) % 32) minv))
include hnow hg

/-- In its second cycle AFRCVT sends one row of shares, and with it LOSS and OVER where a share sets them (R312). -/
theorem afrcvt_goesOn_ordinary (hdesc : desc.getLsbD 15 = false) :
    GoesOn cell (.afrcvt issued log k src srow row mask minv desc e [g])
      (fun v => { v with bktUpds := v.bktUpds ++
        (if (shareValues e desc g g').any (·.2.1) then [⟨issued + 4, k, .loss⟩] else []) ++
        (if (shareValues e desc g g').any (·.2.2) then [⟨issued + 4, k, .merge (-150) false false false true⟩] else []) })
      [ownRow cell log row (issued + 2) (issued + 4)
        (groupRow (packInts 64 ((shareValues e desc g g').map (·.1))) 0) (some (k, desc))] := by
  have hgoes := goesOn_of_vecAdvance (vecAdvance_afrcvt_ordinary (cell := betweenOps cell) (log := log) (k := k) (row := row)
    (e := e) (g := g) hnow hg hdesc)
  simp only [← List.append_assoc] at hgoes
  exact hgoes

/-- In its second cycle AFRCVT sends the five rows of a privileged group (R318). -/
theorem afrcvt_goesOn_privileged (hdesc : desc.getLsbD 15 = true) :
    GoesOn cell (.afrcvt issued log k src srow row mask minv desc e [g]) id
      ((List.range 5).map (fun j => ownRow cell log (row + j) (issued + 2 + j) (issued + 4 + j)
        (BitVec.ofNat 4096 (shareGroup g g' / 2 ^ (4096 * j))) (some (k, desc)))) := by
  have hgoes := goesOn_of_vecAdvance (vecAdvance_afrcvt_privileged (cell := betweenOps cell) (log := log) (k := k) (row := row)
    (e := e) (g := g) hnow hg hdesc)
  simp only [List.append_nil] at hgoes
  exact hgoes

end

/-! ### What the shares are (R312, R318) -/

section
variable {e : Int} {desc : Word} {g g' : TileRow × Word}

theorem shareValues_over : (shareValues e desc g g').any (·.2.2) = true ↔
    ∃ i < 64, shareOver e (shareWord g g' i) (shareIncl g g' i) := by
  simp only [shareValues, List.any_map, List.any_eq_true, List.mem_range, Function.comp_apply]
  refine exists_congr fun i => and_congr_right fun _ => ?_
  by_cases hover : shareOver e (shareWord g g' i) (shareIncl g g' i)
  · simp [shareValue_of_over hover, hover]
  · simp [shareValue_of_not_over hover, hover]

theorem shareValues_loss : (shareValues e desc g g').any (·.2.1) = true ↔
    ∃ i < 64, shareIncl g g' i = true ∧ isFin (fpv (shareWord g g' i)) = true ∧
      ¬ shareOver e (shareWord g g' i) (shareIncl g g' i) ∧
      (⌊fpRat (shareWord g g' i) * 2 ^ (-bktLr desc e)⌋ : ℚ) ≠ fpRat (shareWord g g' i) * 2 ^ (-bktLr desc e) := by
  simp only [shareValues, List.any_map, List.any_eq_true, List.mem_range, Function.comp_apply]
  refine exists_congr fun i => and_congr_right fun _ => ?_
  by_cases hover : shareOver e (shareWord g g' i) (shareIncl g g' i)
  · simp [shareValue_of_over hover, hover]
  · simp only [shareValue_of_not_over hover, hover, decide_eq_true_eq, not_false_eq_true, true_and]

theorem shareValues_lane {i : Nat} (hi : i < 64) :
    (groupRow (packInts 64 ((shareValues e desc g g').map (·.1))) 0).extractLsb' (64 * i) 64 =
      BitVec.ofInt 64 (shareValue e (bktLr desc e) (shareWord g g' i) (shareIncl g g' i)).1 := by
  rw [groupRow_lane _ (by simpa [shareValues] using hi) hi]
  simp [shareValues]

theorem shareValues_lane_of_over {i : Nat} (hi : i < 64) (h : shareOver e (shareWord g g' i) (shareIncl g g' i)) :
    (groupRow (packInts 64 ((shareValues e desc g g').map (·.1))) 0).extractLsb' (64 * i) 64 = 0 := by
  rw [shareValues_lane hi, shareValue_of_over h]
  rfl

theorem shareValues_lane_of_not_over {i : Nat} (hi : i < 64) (h : ¬ shareOver e (shareWord g g' i) (shareIncl g g' i)) :
    (groupRow (packInts 64 ((shareValues e desc g g').map (·.1))) 0).extractLsb' (64 * i) 64 =
      BitVec.ofInt 64 (shareX (bktLr desc e) (shareWord g g' i) (shareIncl g g' i)) := by
  rw [shareValues_lane hi, shareValue_of_not_over h]

theorem shareGroup_digit {i : Nat} (hi : i < 64) : shareGroup g g' / 2 ^ (320 * i) % 2 ^ 320 =
    (BitVec.ofInt 320 (shareX (-149) (shareWord g g' i) (shareIncl g g' i))).toNat := by
  rw [shareGroup, packInts_digit 320 _ i (by simpa using hi), List.getElem_map, List.getElem_range, shareExact_eq_shareX]

end

end Sys2Proof.Machine
end

section
/-!
SUPPORT. Aligned fixed reduction: AFRFIN, AFREND, and the changes of a bucket at the end of a cycle (R307, R309, R316 to R318).
-/
namespace Sys2Proof.Machine

/-! ### AFREND -/

section
variable {s : State} {c : CellRef} {cell : Cell} {k : BitVec 3} (h : Issuing s c .V cell)
include h

theorem exec_afrend (hstate : (bktAt cell k).state ≠ 0) : ∃ t, exec (.afrend c k) s = .next t ∧
    CellBecomes s t c (vectored cell [] (fun v => { v with bktUpds := v.bktUpds ++ [⟨cell.now, k.toNat, .closed⟩] })) := by
  refine ⟨_, rfl, issueSlot_changes_cell h rfl rfl (afrState_true hstate) rfl rfl rfl ?_⟩
  rw [List.append_nil]
  rfl

end

/-! ### AFRFIN -/

/-- A value as AFRFIN rounds it: to FP32, or to BF16 in the upper half of its word. -/
def delivered (bf16 : Bool) (v : FVal) : Word :=
  if bf16 then BitVec.ofNat 32 (65536 * encodeIeee bf16Fmt v) else BitVec.ofNat 32 (encodeIeee fp32Fmt v)

theorem finLane_eq_delivered (bf16 nan pinf ninf ovf : Bool) (sum lsb : Int) :
    finLane bf16 nan pinf ninf ovf sum lsb = delivered bf16 (drainValue nan pinf ninf ovf sum lsb) := by
  rw [finLane, delivered, Nat.mul_comm]
  rfl

theorem delivered_nan (bf16 : Bool) : delivered bf16 .nan = 0x7FC00000 := by cases bf16 <;> decide
theorem delivered_inf (bf16 : Bool) : delivered bf16 (.inf false) = 0x7F800000 := by cases bf16 <;> decide
theorem delivered_neg_inf (bf16 : Bool) : delivered bf16 (.inf true) = 0xFF800000 := by cases bf16 <;> decide
theorem delivered_zero (bf16 : Bool) : delivered bf16 (.fin false 0 0) = 0 := by cases bf16 <;> decide

/-- The six cases of R316. -/
theorem finLane_eq_finWord (bf16 nan pinf ninf ovf : Bool) (sum lsb : Int) :
    finLane bf16 nan pinf ninf ovf sum lsb = finWord bf16 nan pinf ninf ovf sum lsb := by
  rw [finLane_eq_delivered, drainValue]
  simp only [apply_ite (delivered bf16), delivered_nan, delivered_inf, delivered_neg_inf, delivered_zero]
  rfl

/-- The word that AFRFIN delivers of element `i` of row `v` to an ordinary bucket. -/
def finishedWord (b : Bucket) (v : Row) (i : Nat) : Word :=
  finWord (b.desc.getLsbD 9) b.nan b.pinf b.ninf b.ovf (v.extractLsb' (64 * i) 64).toInt (bktLr b.desc b.e)

section
variable {s : State} {c : CellRef} {cell : Cell} {k : BitVec 3} {rs : BitVec 5} {off : BitVec 10} {dst : BitVec 4} {drow : BitVec 5}
  {row : Nat} (h : Issuing s c .V cell) (hstate : (bktAt cell k).state = 2) (heven : drow.getLsbD 0 = false)
  (hnum : rowNumber (sreg cell rs) off.toNat = row) (hrow : Readable cell row)
include h hstate heven hnum hrow

/-- AFRFIN of an ordinary bucket plans its two tile rows. -/
theorem exec_afrfin_ordinary (hdesc : (bktAt cell k).desc.getLsbD 15 = false)
    (hfree : portsFree cell (claimRun .wp0 (cell.now + 3) 2)) :
    ∃ t, exec (.afrfin c k rs off dst drow) s = .next t ∧
      t.cell? c = some (vectored { cell with spad := spadAfterRead cell.spad row 3 } (claimRun .wp0 (cell.now + 3) 2)
        (fun v => { v with
          tileWrites := v.tileWrites ++ finRows cell.now (cell.now + 3) dst.toNat drow.toNat
            (finishedWord (bktAt cell k) (Mem.rd 0 cell.spad.rows row)) })) := by
  have hplain : bktPriv (bktAt cell k).desc = false := hdesc
  have hports : portReason cell [(.wp0, cell.now + 3), (.wp0, cell.now + 4)] = none := portReason_free hfree
  obtain ⟨hcell, hvalue⟩ := readRow_readable (cell := claimPorts cell [(.wp0, cell.now + 3), (.wp0, cell.now + 4)])
    ⟨hrow.exists', hrow.bank, hrow.sound⟩ (s.ctx c.ctx.val) s.clock.dome
  refine ⟨_, rfl, Eq.trans (issueSlot_reads_row h (congrArg Bool.not heven) rfl ?reason (congrArg (fun r => [r]) hnum) rfl
    (by decide) hrow) (congrArg some ?changed)⟩
  case reason =>
    simp only [hnum, hplain, Bool.false_eq_true, if_false, hports, afrRange_one hrow.exists', afrState_true hstate]
    rfl
  case changed =>
    simp only [hnum, hplain, Bool.false_eq_true, if_false, hcell, hvalue, applyVec_tileWrites, finLane_eq_finWord]
    rfl

/-- AFRFIN of a privileged bucket holds the first row of the group and reads on. -/
theorem exec_afrfin_privileged (hdesc : (bktAt cell k).desc.getLsbD 15 = true) (hlast : row + 4 < 640)
    (hfree : portsFree cell (claimRun .wp0 (cell.now + 6) 2)) :
    ∃ t, exec (.afrfin c k rs off dst drow) s = .next t ∧
      t.cell? c = some (vectored { cell with spad := spadAfterRead cell.spad row 3 } (claimRun .wp0 (cell.now + 6) 2)
        (fun v => { v with
          ops := v.ops ++ [.afrfin cell.now k.toNat row dst.toNat drow.toNat (bktAt cell k).desc (bktAt cell k).e
            (bktAt cell k).nan (bktAt cell k).pinf (bktAt cell k).ninf (bktAt cell k).ovf
            [Mem.rd 0 cell.spad.rows row]] })) := by
  have hpriv : bktPriv (bktAt cell k).desc = true := hdesc
  have hports : portReason cell [(.wp0, cell.now + 6), (.wp0, cell.now + 7)] = none := portReason_free hfree
  obtain ⟨hcell, hvalue⟩ := readRow_readable (cell := claimPorts cell [(.wp0, cell.now + 6), (.wp0, cell.now + 7)])
    ⟨hrow.exists', hrow.bank, hrow.sound⟩ (s.ctx c.ctx.val) s.clock.dome
  refine ⟨_, rfl, Eq.trans (issueSlot_reads_row h (congrArg Bool.not heven) rfl ?reason (congrArg (fun r => [r]) hnum) rfl
    (by decide) hrow) (congrArg some ?changed)⟩
  case reason =>
    simp only [hnum, hpriv, if_true, hports, afrRange_one hlast, afrState_true hstate]
    rfl
  case changed =>
    simp only [hnum, hpriv, if_true, hcell, hvalue]
    rfl

end

/-! ### The end of a cycle -/

/-- A change that is due, alone. -/
theorem landBuckets_one {cell : Cell} {t due : Nat} {k : Fin 8} {ch : BktChange}
    (h : cell.vec.bktUpds = [⟨due, k.val, ch⟩]) (hdue : due ≤ t) : landBuckets t cell = { cell with vec := { cell.vec with
      bkts := cell.vec.bkts.set k.val (changeBkt cell.vec.bkts[k.val] ch), bktUpds := [] } } := by
  simp [landBuckets, h, hdue, Nat.mod_eq_of_lt k.isLt]

/-! ### Buckets open, sum and close (O28) -/

theorem bktGuard_eq (desc : Word) : bktGuard desc = desc.toNat / 1024 % 32 := by
  rw [bktGuard, fld, Nat.shiftRight_eq_div_pow]
  rfl

theorem bktLr_eq (desc : Word) (e : Int) : bktLr desc e = e + ((desc.toNat / 1024 % 32 : Nat) : Int) - 62 := by
  rw [bktLr, bktGuard_eq]

/-- The two tile rows of AFRFIN, DROW even. -/
theorem finRows_eq (issued due dst : Nat) {drow : BitVec 5} (heven : drow.getLsbD 0 = false) (f : Nat → Word) :
    finRows issued due dst drow.toNat f =
      [⟨due, issued, 0, 32 * dst + drow.toNat, 0xFFFFFFFF, mapLanes f⟩,
       ⟨due + 1, issued, 0, 32 * dst + drow.toNat + 1, 0xFFFFFFFF, mapLanes (fun l => f (32 + l))⟩] := by
  have heven' : ¬ drow.toNat % 2 = 1 := of_decide_eq_false ((Nat.testBit_zero _).symm.trans heven)
  have hlow : drow.toNat % 32 = drow.toNat := Nat.mod_eq_of_lt drow.isLt
  have hhigh : (drow.toNat + 1) % 32 = drow.toNat + 1 := by omega
  rw [finRows, tileKey, tileKey, hlow, hhigh, Nat.add_assoc]

/-- Settles O28: each clause is one outcome of an AFR instruction or of the end of a cycle, whose lemmas stand above. -/
theorem bucketsOpenSumAndClose : Obligations.BucketsOpenSumAndClose := by
  unfold Obligations.BucketsOpenSumAndClose
  refine ⟨fun c s cell k h => ⟨fun src srow nrows mask minv => ?exponents, ?close, fun src srow rs off mask minv => ?shares,
      fun rs off dst drow => ?finish, fun rs off dst drow => ?finishGroup⟩,
    fun cell issued k src srow n mask minv => ?moreExponents,
    fun cell issued log k src srow row mask minv desc e g hnow => ⟨fun hdesc => ?row, fun hdesc => ?group⟩,
    fun cell t due k ch hone hdue => ?change⟩
  case exponents =>
    intro claims hstate hfree
    simp only [← bktGuard_eq] at hstate
    obtain ⟨t, hexec, ht⟩ := exec_afrexp h hstate hfree
    exact ⟨t, _, hexec, rowMerge_exponentMerge _ _, ht⟩
  case close => exact exec_afrend h
  case shares => exact exec_afrcvt h
  case finish =>
    intro row claims v word hstate hdesc heven hrow hfree
    obtain ⟨t, hexec, ht⟩ := exec_afrfin_ordinary h hstate heven (rowNumber_eq _ _) hrow hdesc hfree
    rw [finRows_eq _ _ _ heven] at ht
    have hword (i : Nat) : finishedWord (bktAt cell k) v i = word i := by
      rw [finishedWord, bktLr_eq]
      rfl
    refine ⟨t, _, _, _, hexec, rowRead_spadAfterRead _ _ _, ht, fun l hl => ?_⟩
    rw [laneOf_mapLanes _ hl, laneOf_mapLanes _ hl]
    exact ⟨hword l, hword (32 + l)⟩
  case finishGroup =>
    intro row claims hstate hdesc heven hrow hlast hfree
    obtain ⟨t, hexec, ht⟩ := exec_afrfin_privileged h hstate heven (rowNumber_eq _ _) hrow hdesc hlast hfree
    exact ⟨t, _, hexec, rowRead_spadAfterRead _ _ _, ht⟩
  case moreExponents => exact ⟨_, rowMerge_exponentMerge _ _, afrexp_goesOn⟩
  case row =>
    let g' := (tileRow cell.vec src ((srow + 1) % 32), maskRow cell.vec mask ((srow + 1) % 32) minv)
    rw [← bktLr_eq]
    exact ⟨_, _, _, afrcvt_goesOn_ordinary (g' := g') hnow rfl hdesc, shareValues_over, shareValues_loss,
      fun i hi => ⟨shareValues_lane_of_over (g := g) (g' := g') hi, shareValues_lane_of_not_over (g := g) (g' := g') hi⟩⟩
  case group => exact ⟨_, afrcvt_goesOn_privileged hnow rfl hdesc, fun i hi => shareGroup_digit hi⟩
  case change =>
    refine ⟨_, landBuckets_one hone hdue, ?_, ?_, ?_, ?_, ?_⟩
    · rintro desc rfl
      rfl
    · rintro rfl
      rfl
    · rintro rfl hstate
      exact if_neg hstate
    · rintro rfl hstate
      exact if_neg hstate
    · rintro e nan pinf ninf ovf rfl hstate
      exact if_neg hstate

end Sys2Proof.Machine
end

section
/-!
SUPPORT. Bring-up, power and clocks: a step with no waiting command is one core clock cycle, whose only updates of the times are
the change of the clock frequency and the advance of the counters (O2).
-/
namespace Sys2Proof.Machine

variable (s : State) (n : Nat)

/-! ### The counters -/

@[simp] theorem advanceDome_clk (c : Clocks) : (advanceDome c).clk = c.clk + 1 := by
  unfold advanceDome
  dsimp only
  split <;> rfl

@[simp] theorem lowerClock_clk : (lowerClock s).clock.clk = s.clock.clk := by
  unfold lowerClock
  split <;> rfl

/-! ### The beginning of a context's cycle leaves the times -/

@[simp] theorem advanceCtx_clock (ns : Nat) : (advanceCtx s n ns).clock = s.clock := rfl

@[simp] theorem openCell_clock (sched : Bool) (c : CellRef) : (openCell s n sched c).clock = s.clock := by
  unfold openCell
  split
  · rfl
  · simp

@[simp] theorem openFree_clock : (openFree s n).clock = s.clock := by
  unfold openFree
  dsimp only
  split
  · refine foldl_same State.clock _ (fun t c => ?_) _ _
    split
    · split <;> simp
    · rfl
  · rfl

@[simp] theorem placeCommand_clock (x : Ctx) (q : Command) : (placeCommand x s q).clock = s.clock := rfl

@[simp] theorem openCtx_clock : (openCtx s n).clock = s.clock := by
  unfold openCtx
  rw [State.onCtx_clock, foldl_same State.clock _ (fun t c => openCell_clock t n true c),
    foldl_same State.clock _ (fun t q => placeCommand_clock t _ q), State.onCtx_clock]

@[simp] theorem beginCtx_clock : (beginCtx s n).clock = s.clock := by
  unfold beginCtx
  dsimp only
  split_ifs <;> simp

/-! ### What has waited during a hold leaves the times -/

@[simp] theorem combResult_clock (region q : Nat) (res : BitVec 2) : (combResult s n region q res).clock = s.clock := by
  unfold combResult
  dsimp only
  split_ifs <;> simp [State.setComb]

@[simp] theorem applyResult_clock (goal : Reply) (res : BitVec 2) : (applyResult s goal res).clock = s.clock := by
  unfold applyResult
  split <;> simp

@[simp] theorem linkResult_clock (f : Flit) : (linkResult s n f).clock = s.clock := by
  unfold linkResult
  dsimp only
  split
  · simp
  · split <;> simp

@[simp] theorem partnerArrived_clock (f : Flit) : (partnerArrived s n f).clock = s.clock := by
  unfold partnerArrived
  dsimp only
  split <;> simp

@[simp] theorem releaseGen_clock (cells : List (CellId × BitVec 6)) (epoch : Bool) :
    (releaseGen s n cells epoch).clock = s.clock := by
  unfold releaseGen
  rw [State.emit_clock]
  split
  · exact foldl_same State.clock _ (fun t _ => State.onCell_clock t _ _) _ _
  · rfl

@[simp] theorem partnerReleased_clock (f : Flit) : (partnerReleased s n f).clock = s.clock := by
  unfold partnerReleased
  dsimp only
  split
  · rfl
  · split <;> simp

@[simp] theorem takeEffect_clock (f : Flit) : (takeEffect s n f).clock = s.clock := by
  unfold takeEffect
  split_ifs <;> simp

@[simp] theorem State.deliverWaiting_clock : (s.deliverWaiting n).clock = s.clock := by
  unfold State.deliverWaiting
  split
  · rfl
  · exact foldl_same State.clock _ (fun t _ => takeEffect_clock t n _) _ _

/-! ### One core clock cycle -/

@[simp] theorem State.sendWord_clock (p : Nat) : (s.sendWord p).clock = s.clock := rfl

@[simp] theorem State.wordTimer_clock (p : Nat) : (s.wordTimer p).clock = s.clock := by
  unfold State.wordTimer
  dsimp only
  split <;> simp

/-- Of all that a cycle does, only the advance of the counters changes the count of core clock cycles (R402). -/
theorem nextCycle_clk : (nextCycle s).clock.clk = s.clock.clk + 1 := by
  unfold nextCycle
  dsimp only
  rw [foldl_same State.clock _ (fun t p => State.wordTimer_clock t p),
    foldl_same State.clock _ (fun t k => (State.deliverWaiting_clock _ k).trans (beginCtx_clock t k)),
    foldl_same State.clock _ (fun t k => advanceCtx_clock t k _), advanceDome_clk, lowerClock_clk]

theorem step_of_no_pending {s : State} (h : s.pending = []) : step s = .next (clockTick s) := by
  unfold step
  rw [h]

theorem clockTick_off {s : State} (hoff : s.clock.on = false) : clockTick s = s := by
  simp [clockTick, hoff]

/-- A cycle puts its commands into the queue; the times are those that `nextCycle` leaves. -/
theorem clockTick_on_clock {s : State} (hon : s.clock.on = true) : (clockTick s).clock = (nextCycle s).clock := by
  simp [clockTick, hon]

/-- Settles O2: the branches of `step` and `clockTick`, and the frame of the clock in a cycle. -/
theorem emptyQueueRunsOneClockCycle : Obligations.EmptyQueueRunsOneClockCycle := by
  unfold Obligations.EmptyQueueRunsOneClockCycle
  intro s hempty
  refine ⟨step_of_no_pending hempty, clockTick_off, fun hon => ?_⟩
  rw [clockTick_on_clock hon, nextCycle_clk]

end Sys2Proof.Machine
end
